-- ==== Sys2Proof/Word.lean ====
section
/-! DEFINITION. The word and byte types of the block (R4: registers are 32 bits wide) and sparse tables over them. -/
namespace Sys2Proof

/-- A register or fabric word (R4). -/
abbrev Word := BitVec 32

/-- One byte of a memory or of a frame. -/
abbrev Byte := BitVec 8

/-- A sparse table: pairs of key and value with the keys strictly rising, holding no value equal to the table's default.
Equal tables are then equal data. -/
abbrev Tab (α : Type) := List (Nat × α)

end Sys2Proof
end

