-- ==== Sys2Proof/Syntax.lean ====
section
/-! DEFINITION. The commands of the block: one constructor per row of spec/opcode_table.json, and the operand types they
use (spec/00 to spec/21). -/
namespace Sys2Proof

/-- Who makes an access to the fabric. `atl c` is the Atelier core in slot `c` (targets 0 to 4 of spec/15), `arm` the
Armature, `pat` the Patina, `remAtl d` and `remHost d` an access arriving over Plinth from device `d` for that device's
Atelier or host (R446), `debug` unlocked debug through the JTAG port (R422). -/
inductive Requester where
  | atl (core : Fin 5)
  | arm
  | pat
  | host
  | dma
  | remAtl (dev : Fin 8)
  | remHost (dev : Fin 8)
  | debug
  deriving DecidableEq, Repr

/-- The width of an access (R4: registers answer 32-bit accesses only). -/
inductive Width where
  | b8 | b16 | b32 | b64
  deriving DecidableEq, Repr

/-- The writers that wait at the store's write port (R40): an item-window slot of an engine, the two write ports, and a
remote device. -/
inductive Writer where
  | engine (e : Fin 48) (slot : Fin 12)
  | host
  | atl
  | remote (dev : Fin 8)
  deriving DecidableEq, Repr

/-- Who sends a DONE or a commit command (R53, R48): an engine through its item window, or a requester through
SS_CG_DONE and SS_CG_CMT. -/
inductive DoneWriter where
  | engine (e : Fin 48)
  | bus (r : Requester)
  deriving DecidableEq, Repr

/-- The bits of an item write: an item has at most 1,024 bits (R39). -/
abbrev ItemBits := BitVec 1024

/-- One item of a remote write (R61): destination handle, the bits, and the mask of the bits written. -/
structure RemoteItem where
  handle : Fin 262144
  data : ItemBits
  mask : ItemBits
  deriving DecidableEq, Repr

/-- How a CAN transmission attempt ends (R248): `ackError` is the want of an acknowledgement at which the controller saw no
dominant bit while it sent its error flag, `dataError` an error in the data phase, `stuffError` a stuff error during arbitration, where
a recessive stuff bit was sent and a dominant one seen. -/
inductive TxOutcome where
  | success | lost | error | ackError | dataError | stuffError
  deriving DecidableEq, Repr

/-- A word of an engine's data or instruction memory (R69). -/
inductive EccWord where
  | data (w : Fin 2048)
  | code (w : Fin 4096)
  deriving DecidableEq, Repr

/-- A whole frame, put together from `frag` fragments after the first (R222). -/
structure WholeFrame where
  bytes : List Byte
  frag : Fin 256 := 0
  deriving DecidableEq, Repr

/-- An SFD `age` ns ago; of a branch on another device that measured it, `back` quarter ns after its relay's SFD (R206). -/
structure Sfd where
  age : BitVec 32
  back : BitVec 32 := 0
  deriving DecidableEq, Repr

/-- A read-back of channel `ch` that rose `age` ns ago (R273, R274). -/
structure Rise where
  ch : Fin 32
  age : BitVec 32
  deriving DecidableEq, Repr

/-- What the host leaves in the endpoint's configuration space (R301, R302, R304) beside Bus Master Enable: MSI-X Enable
and function mask, the bases of BAR0 and of BAR2/BAR3, and whether the function is in D3hot. -/
structure PciConfig where
  msix : Bool
  fmask : Bool
  bar0 : Word
  bar2 : BitVec 64
  d3hot : Bool := false
  deriving DecidableEq, Repr

/-- What reads host memory (R305): a command of a mailbox, or a DMA queue. -/
inductive HostReader where
  | command (n : Fin 16)
  | queue (q : Fin 64)
  deriving DecidableEq, Repr

/-- What a quad-SPI frame that is cut short carried (R309): less than its opcode and address, a READ or STATUS, or a WRITE
with its complete data words. -/
inductive SpiPart where
  | short
  | read
  | write (a : Word) (ws : List Word)
  deriving DecidableEq, Repr

/-- What a packet between devices carries (R446 to R450, R61): a remote write, a remote access and its answer, an event and
its acknowledge, a reset request and its answer, a time message, a frame for the switch, and of a cluster star's head (R206) a frame that it relays on a port of
the receiver, with its FCS good or not, and perhaps cut; a DATA frame that leaves there only if the port is idle, and the answer that it was
not (R195), for an instance of the head; and the edges of a branch's gate in cluster time, and whether each opens (R196). `host` tells the
originator. -/
inductive PkMsg where
  | items (ws : List RemoteItem)
  | read (host : Bool) (a : Word)
  | write (host : Bool) (a v : Word)
  | answer (host : Bool) (result : Fin 8) (v : Word)
  | event (n : Fin 512)
  | eventAck (n : Fin 512)
  | reset (sys : Bool)
  | resetAnswer (ok : Bool)
  | time (t : BitVec 64) (corr : Word)
  | frame (f : List Byte)
  | relay (port : Fin 24) (f : List Byte) (good cut : Bool)
  | data (inst : Fin 256) (port : Fin 24) (f : List Byte) (good cut : Bool)
  | blocked (inst : Fin 256)
  | gate (port : Fin 24) (edges : List (BitVec 64 × Bool))
  deriving DecidableEq, Repr

/-- A packet (R438, R442): its ends, the hops it has taken, whether all of them were on VC0, and its content. -/
structure Packet where
  src : Fin 8
  dst : Fin 8
  hops : Fin 8
  dimOnly : Bool
  msg : PkMsg
  deriving DecidableEq, Repr

/-- The kinds of units whose wear Patina judges, in the order of SPARE_SWAP's KIND (R337, R424, R425). -/
inductive WearKind where
  | engine | bank | lane | segment | core
  deriving DecidableEq, Repr

/-- How a bank's word reads (R377). -/
inductive EccErr where
  | clean | single | double
  deriving DecidableEq, Repr

/-- The commands, one constructor per row of the table, in the table's order. -/
inductive Instr where
  /-- REGISTER_WRITE: R4: a write of a fabric address by a requester. -/
  | registerWrite (r : Requester) (w : Width) (a v : Word)
  /-- ADDRESS_ERROR: R23: an access (a write when `wr`) to an unassigned fabric address. -/
  | addressError (r : Requester) (wr : Bool) (a : Word)
  /-- RECEIVE_FIFO_OVERFLOW: R13: the receive FIFO of port `p` overflows during a frame. -/
  | receiveFifoOverflow (p : Fin 24)
  /-- TRANSMIT_FIFO_UNDERRUN: R13: the transmit FIFO of port `p` runs empty during a frame. -/
  | transmitFifoUnderrun (p : Fin 24)
  /-- INSTANT: R176: generator `n` fires. -/
  | instant (n : Fin 32)
  /-- STARVATION_GRANT: R32: a round of arbiter `arb` at which `asking` ask and priority would grant `first`; a requester denied 64 times goes ahead. -/
  | starvationGrant (arb : Fin 256) (asking : List (Fin 256)) (first : Fin 256)
  /-- IW_HANDLE_WRITE: R44: an engine writes a slot's IW_HANDLE. -/
  | iwHandleWrite (e : Fin 48) (slot : Fin 12) (h : BitVec 32)
  /-- IW_DATA_WRITE: R43: an engine stages word `j`. -/
  | iwDataWrite (e : Fin 48) (slot : Fin 12) (j : Fin 32) (v : Word)
  /-- IW_CLOSE_APPLY: R43: an engine writes 1 to IW_CLOSE. -/
  | iwCloseApply (e : Fin 48) (slot : Fin 12)
  /-- IW_CLOSE_DISCARD: R43: an engine writes 2 to IW_CLOSE. -/
  | iwCloseDiscard (e : Fin 48) (slot : Fin 12)
  /-- ITEM_WRITE_ACCEPT: R42: the store accepts the oldest item write of a writer. -/
  | itemWriteAccept (w : Writer)
  /-- CG_DONE: R53: a writer sends DONE for a group. -/
  | cgDone (w : DoneWriter) (g : Fin 256) (tag : BitVec 8)
  /-- COMMIT_COMMAND: R48: a writer commands a commit. -/
  | commitCommand (w : DoneWriter) (g : Fin 256)
  /-- CUT: R47: the group's trigger reaches the write port. -/
  | cut (g : Fin 256)
  /-- COMMIT_PROCESSING: R49: the commit unit processes the group. -/
  | commitProcessing (g : Fin 256)
  /-- PRESENTATION: R47: the group's ready image becomes front. -/
  | presentation (g : Fin 256)
  /-- REMOTE_WRITE: R61: a cross-device cast write from device `dev` arrives. -/
  | remoteWrite (dev : Fin 8) (ws : List RemoteItem)
  /-- IMAGE_ECC_ERROR: R64: an image word has an uncorrectable error. -/
  | imageEccError (img : Fin 3) (word : Fin 81920)
  /-- IND_READ: R492: SS_IND_CMD is written with 0b01. -/
  | indRead (r : Requester)
  /-- IND_WRITE: R492: SS_IND_CMD is written with 0b10. -/
  | indWrite (r : Requester)
  /-- WRITE_PORT_HANDLE: R493: HANDLE of SS_AWR (`awr`) or SS_HWR is written. -/
  | writePortHandle (r : Requester) (awr : Bool) (v : Word)
  /-- WRITE_PORT_DATA: R493: DATAj of a write port is written. -/
  | writePortData (r : Requester) (awr : Bool) (j : Fin 32) (v : Word)
  /-- WRITE_PORT_APPLY: R493: CTL is written with 0b01. -/
  | writePortApply (r : Requester) (awr : Bool)
  /-- WRITE_PORT_DISCARD: R493: CTL is written with 0b10. -/
  | writePortDiscard (r : Requester) (awr : Bool)
  /-- ENGINE_START: R80: CE_CTL is written with RUN. -/
  | engineStart (r : Requester) (e : Fin 48) (v : Word)
  /-- STARTPEND_START: R80: an engine in STARTPEND starts at its instant. -/
  | startpendStart (e : Fin 48)
  /-- ENGINE_STOP: R84: CE_CTL is written with STOP. -/
  | engineStop (r : Requester) (e : Fin 48) (v : Word)
  /-- STOP_HALT: R84: a STOPPING engine halts at its cycle instant. -/
  | stopHalt (e : Fin 48)
  /-- SLACK_CLEAR: R81: CE_SLACK_CLR takes 1. -/
  | slackClear (r : Requester) (e : Fin 48)
  /-- JOB_MARK: R82: an engine writes JOB_MARK with slot `k`. -/
  | jobMark (e : Fin 48) (k : Fin 8)
  /-- LOADER_DATA_WRITE: R79: CE_LD_DATA is written. -/
  | loaderDataWrite (r : Requester) (v : Word)
  /-- LOADER_DATA_READ: R79: CE_LD_DATA is read. -/
  | loaderDataRead (r : Requester)
  /-- LOADER_ZERO: R79: CE_LD_SEL is written with ZERO. -/
  | loaderZero (r : Requester) (v : Word)
  /-- LOADER_ZERO_DONE: R79: the clear of a space completes. -/
  | loaderZeroDone
  /-- SPLICE_ENTRY_PUSH: R75: SPL_E1 of a window is written (`b` for port B). -/
  | spliceEntryPush (e : Fin 48) (b : Bool) (v : Word)
  /-- SPLICE_FLUSH: R75: SPL_FLUSH takes 1. -/
  | spliceFlush (e : Fin 48) (b : Bool)
  /-- FRAME_RECEIVE: R74: bytes of a frame (the first with `sof`, the last, FCS included, with `eof`) pass a bound port's splice unit. -/
  | frameReceive (p : Fin 24) (f : List Byte) (sof eof : Bool)
  /-- TXD_APPEND: R74: an engine appends a word to its frame. -/
  | txdAppend (e : Fin 48) (b : Bool) (v : Word)
  /-- TXC_WRITE: R74: an engine writes TXC. -/
  | txcWrite (e : Fin 48) (b : Bool) (v : Word)
  /-- SCHEDULED_FRAME_START: R83: the frame at the head of a window's transmit FIFO starts, is late or is dropped. -/
  | scheduledFrameStart (e : Fin 48) (b : Bool)
  /-- MIGRATION_GO: R86: CE_MIG_CTL is written with GO. -/
  | migrationGo (r : Requester) (v : Word)
  /-- PRECOPY_DONE: R86: the pre-copy completes. -/
  | precopyDone
  /-- MIGRATION_GAP: R86: a gap of the migrating engine begins. -/
  | migrationGap
  /-- MIGRATION_RESUME: R86: the freeze completes. -/
  | migrationResume
  /-- MIGRATION_CANCEL: R90: CE_MIG_CTL is written with CANCEL. -/
  | migrationCancel (r : Requester) (v : Word)
  /-- ENGINE_ECC_ERROR: R69: an ECC error in a memory word of engine `e`. -/
  | engineEccError (e : Fin 48) (at_ : EccWord) (corrected : Bool)
  /-- MAQUETTE_PLAY_FRAME: R92: reference frame `k` is due at a port in PLAY. -/
  | maquettePlayFrame (p : Fin 24) (k : Fin 65536)
  /-- ADD: R107, R98, R99: wd = wa + wb. -/
  | add (e : Fin 48) (wd wa wb : Fin 32)
  /-- ADC: R107, R98, R99: wd = wa + wb + C. -/
  | adc (e : Fin 48) (wd wa wb : Fin 32)
  /-- SUB: R107, R98, R99: wd = wa − wb. -/
  | sub (e : Fin 48) (wd wa wb : Fin 32)
  /-- SBC: R107, R98, R99: wd = wa + NOT wb + C. -/
  | sbc (e : Fin 48) (wd wa wb : Fin 32)
  /-- CMP: R107, R98, R99: the flags of wa − wb. -/
  | cmp (e : Fin 48) (wa wb : Fin 32)
  /-- AND: R107, R98, R99: wd = wa AND wb. -/
  | and (e : Fin 48) (wd wa wb : Fin 32)
  /-- OR: R107, R98, R99: wd = wa OR wb. -/
  | or (e : Fin 48) (wd wa wb : Fin 32)
  /-- XOR: R107, R98, R99: wd = wa XOR wb. -/
  | xor (e : Fin 48) (wd wa wb : Fin 32)
  /-- ANDN: R107, R98, R99: wd = wa AND NOT wb. -/
  | andn (e : Fin 48) (wd wa wb : Fin 32)
  /-- TST: R107, R98, R99: the flags of wa AND wb. -/
  | tst (e : Fin 48) (wa wb : Fin 32)
  /-- SHL: R107, R98, R99: wa shifted left by wb[4:0]. -/
  | shl (e : Fin 48) (wd wa wb : Fin 32)
  /-- SHR: R107, R98, R99: logical right shift by wb[4:0]. -/
  | shr (e : Fin 48) (wd wa wb : Fin 32)
  /-- SAR: R107, R98, R99: arithmetic right shift by wb[4:0]. -/
  | sar (e : Fin 48) (wd wa wb : Fin 32)
  /-- ROR: R107, R98, R99: rotate right by wb[4:0]. -/
  | ror (e : Fin 48) (wd wa wb : Fin 32)
  /-- MUL: R107, R98, R99: low 32 bits of the product. -/
  | mul (e : Fin 48) (wd wa wb : Fin 32)
  /-- MULH: R107, R98, R99: high 32 bits of the signed product. -/
  | mulh (e : Fin 48) (wd wa wb : Fin 32)
  /-- MULHU: R107, R98, R99: high 32 bits of the unsigned product. -/
  | mulhu (e : Fin 48) (wd wa wb : Fin 32)
  /-- ADDI: R108, R98, R99: wd = wa + simm. -/
  | addi (e : Fin 48) (wd wa : Fin 32) (imm : Fin 65536)
  /-- SUBI: R108, R98, R99: wd = wa − simm. -/
  | subi (e : Fin 48) (wd wa : Fin 32) (imm : Fin 65536)
  /-- CMPI: R108, R98, R99: the flags of wa − simm. -/
  | cmpi (e : Fin 48) (wa : Fin 32) (imm : Fin 65536)
  /-- ANDI: R108, R98, R99: wd = wa AND zimm. -/
  | andi (e : Fin 48) (wd wa : Fin 32) (imm : Fin 65536)
  /-- ORI: R108, R98, R99: wd = wa OR zimm. -/
  | ori (e : Fin 48) (wd wa : Fin 32) (imm : Fin 65536)
  /-- XORI: R108, R98, R99: wd = wa XOR zimm. -/
  | xori (e : Fin 48) (wd wa : Fin 32) (imm : Fin 65536)
  /-- TSTI: R108, R98, R99: the flags of wa AND zimm. -/
  | tsti (e : Fin 48) (wa : Fin 32) (imm : Fin 65536)
  /-- LIH: R108, R98, R99: wd = imm16 × 65,536. -/
  | lih (e : Fin 48) (wd : Fin 32) (imm : Fin 65536)
  /-- SHLI: R108, R98, R99: shift left by n. -/
  | shli (e : Fin 48) (wd wa n : Fin 32)
  /-- SHRI: R108, R98, R99: logical right shift by n. -/
  | shri (e : Fin 48) (wd wa n : Fin 32)
  /-- SARI: R108, R98, R99: arithmetic right shift by n. -/
  | sari (e : Fin 48) (wd wa n : Fin 32)
  /-- RORI: R108, R98, R99: rotate right by n. -/
  | rori (e : Fin 48) (wd wa n : Fin 32)
  /-- LDW: R109, R96, R98: wd = the word at EA. -/
  | ldw (e : Fin 48) (wd wa : Fin 32) (imm : Fin 65536)
  /-- LDH: R109, R96, R98: wd = the half-word at EA, zero-extended. -/
  | ldh (e : Fin 48) (wd wa : Fin 32) (imm : Fin 65536)
  /-- LDHS: R109, R96, R98: wd = the half-word at EA, sign-extended. -/
  | ldhs (e : Fin 48) (wd wa : Fin 32) (imm : Fin 65536)
  /-- LDB: R109, R96, R98: wd = the byte at EA, zero-extended. -/
  | ldb (e : Fin 48) (wd wa : Fin 32) (imm : Fin 65536)
  /-- LDBS: R109, R96, R98: wd = the byte at EA, sign-extended. -/
  | ldbs (e : Fin 48) (wd wa : Fin 32) (imm : Fin 65536)
  /-- STW: R109, R96: word at EA = wd. -/
  | stw (e : Fin 48) (wd wa : Fin 32) (imm : Fin 65536)
  /-- STH: R109, R96: half-word at EA = wd[15:0]. -/
  | sth (e : Fin 48) (wd wa : Fin 32) (imm : Fin 65536)
  /-- STB: R109, R96: byte at EA = wd[7:0]. -/
  | stb (e : Fin 48) (wd wa : Fin 32) (imm : Fin 65536)
  /-- B: R100, R102, R103, R110: a branch, taken when its condition holds. -/
  | b (e : Fin 48) (cond : Fin 16) (off : Fin 2097152)
  /-- BL: R100 to R103, R110: a branch that writes the link to w31 when it is taken. -/
  | bl (e : Fin 48) (cond : Fin 16) (off : Fin 2097152)
  /-- ENGINE_NOP: R111: nothing but its issue. -/
  | engineNop (e : Fin 48)
  /-- HALT: R111, R80: pending write-backs complete, and the engine enters HALTED. -/
  | halt (e : Fin 48)
  /-- WAIT: R116 to R118: completes at once where its lines are pending. -/
  | wait (e : Fin 48) (wd wa : Fin 32) (keep all : Bool)
  /-- WAITT: R120: completes at once where its target has passed. -/
  | waitt (e : Fin 48) (wd wa : Fin 32) (dom : Fin 2)
  /-- EVS: R121: sets EVS line `line` of engine wa[5:0]; from 48 on it is ignored and sets IO_RSVD. -/
  | evs (e : Fin 48) (wa : Fin 32) (line : Fin 4)
  /-- JR: R100, R103: to wa[11:0] after the delay slot. -/
  | jr (e : Fin 48) (wa : Fin 32)
  /-- JALR: R100, R101, R103: to wa[11:0] after the delay slot; wd = (A + 2) mod 4,096. -/
  | jalr (e : Fin 48) (wd wa : Fin 32)
  /-- CRCB: R123, R98: advances the CRC state in wa by n + 1 bytes of wb. -/
  | crcb (e : Fin 48) (wd wa wb : Fin 32) (poly : Fin 6) (n : Fin 4)
  /-- BFX: R124, R98: the field of w + 1 bits of wa from POS on. -/
  | bfx (e : Fin 48) (wd wa : Fin 32) (sx : Bool) (w pos : Fin 32)
  /-- BFXR: R124, R98: as BFX, with POS in wb[4:0]. -/
  | bfxr (e : Fin 48) (wd wa wb : Fin 32) (sx : Bool) (w : Fin 32)
  /-- BFI: R124, R98: replaces the field of wd at POS, or at the position in register `pos`. -/
  | bfi (e : Fin 48) (wd wa : Fin 32) (w : Fin 32) (byReg : Bool) (pos : Fin 32)
  /-- IN: R112 to R114, R98: reads an I/O word without waiting. -/
  | ioIn (e : Fin 48) (wd : Fin 32) (io : Fin 4096) (idx : Option (Fin 32))
  /-- INW: R112 to R115, R98: reads an I/O word, stalling until the unit can supply one. -/
  | ioInw (e : Fin 48) (wd : Fin 32) (io : Fin 4096) (idx : Option (Fin 32))
  /-- OUT: R112 to R114: writes an I/O word without waiting. -/
  | ioOut (e : Fin 48) (wd : Fin 32) (io : Fin 4096) (idx : Option (Fin 32))
  /-- OUTW: R112 to R115: writes an I/O word, stalling until the unit can accept it. -/
  | ioOutw (e : Fin 48) (wd : Fin 32) (io : Fin 4096) (idx : Option (Fin 32))
  /-- UNDEFINED_INSTRUCTION: R106: executes as NOP and sets ILL_OP. -/
  | undefinedInstruction (e : Fin 48)
  /-- IO_WRITE_DELIVERY: R113: the oldest undelivered write of engine `e` is delivered. -/
  | ioWriteDelivery (e : Fin 48)
  /-- WAIT_COMPLETE: R116 to R118: a wait in progress on engine `e` completes. -/
  | waitComplete (e : Fin 48)
  /-- WAITT_COMPLETE: R120: a wait in progress on engine `e` completes. -/
  | waittComplete (e : Fin 48)
  /-- INW_COMPLETE: R115: a stalled INW of engine `e` completes. -/
  | inwComplete (e : Fin 48)
  /-- OUTW_COMPLETE: R115: a stalled OUTW of engine `e` completes. -/
  | outwComplete (e : Fin 48)
  /-- PACK_VERIFIED: R130: the checks of the pack image that came first are complete. -/
  | packVerified
  /-- INSTANCE_STOPPED: R140: all engines of instance `i` are HALTED. -/
  | instanceStopped (i : Fin 256)
  /-- CYCLIC_FRAME_ORIGINATE: R186: S_k of the leader instance `i`. -/
  | cyclicFrameOriginate (i : Fin 256)
  /-- CYCLIC_FRAME_RECEIVE: R187: a node receives a cyclic frame, its SFD `age` ns ago. -/
  | cyclicFrameReceive (i : Fin 256) (f : List Byte) (age : BitVec 32)
  /-- STAR_RELAY_START: R197: a start in the frame phase on branch `n`; `long`: still arriving at s + F. -/
  | starRelayStart (i : Fin 256) (n : Fin 128) (f : List Byte) (sfd : Sfd) (long : Bool)
  /-- BYPASS: R198: C_n of the node the relay waits for. -/
  | bypass (i : Fin 256)
  /-- LOST_CYCLE: R198: C_L without an accepted origination. -/
  | lostCycle (i : Fin 256)
  /-- BRANCH_RETURN_TIMEOUT: R198: four cycles without a return on branch `n`. -/
  | branchReturnTimeout (i : Fin 256) (n : Fin 128)
  /-- QUARANTINE_SILENCE: R199: two cycles without a start on branch `n`. -/
  | quarantineSilence (i : Fin 256) (n : Fin 128)
  /-- DELAY_REQ: R193: a node's mini-slot, or at a star the request `f` from branch `n`. -/
  | delayReq (i : Fin 256) (n : Fin 128) (f : List Byte) (age : BitVec 32)
  /-- DELAY_RESP: R193: a node receives DELAY_RESP. -/
  | delayResp (i : Fin 256) (f : List Byte) (age : BitVec 32)
  /-- ACYCLIC_FRAME: R195: node `n` sends the DATA frame `f`. -/
  | acyclicFrame (i : Fin 256) (n : Fin 128) (f : List Byte) (age : BitVec 32)
  /-- LISTEN_TIMEOUT: R203: a node's listen timeout expires. -/
  | listenTimeout (i : Fin 256)
  /-- COLDSTART_FRAME: R204: a cold-start frame from branch `n`. -/
  | coldstartFrame (i : Fin 256) (n : Fin 128) (f : List Byte) (age : BitVec 32)
  /-- COLDSTART_DECISION: R204: the first arrival's unit ends. -/
  | coldstartDecision (i : Fin 256)
  /-- COLDSTART_RELAY_RECEIVE: R205: a node receives a relayed cold-start frame. -/
  | coldstartRelayReceive (i : Fin 256) (f : List Byte)
  /-- COLDSTART_TIMEOUT: R205: one CYCLE without a relayed cold-start frame. -/
  | coldstartTimeout (i : Fin 256)
  /-- NET_LISTEN: R204: four cycles without an accepted origination. -/
  | netListen (i : Fin 256)
  /-- LEADER_RETURN_TIMEOUT: R205: four cycles without the leader's frame. -/
  | leaderReturnTimeout (i : Fin 256)
  /-- REF_LOSS: R161: XREF is lost for 400 ns, while ALTREF is valid or not. -/
  | refLoss (altref : Bool)
  /-- REF_REVERT: R161: XREF shows edges again, or goes on to after 1 s. -/
  | refRevert
  /-- PLL_LOCK: R160: the timebase PLL locks after a reset. -/
  | pllLock
  /-- FRC_READ: R162: TB_FRC_LO is read. -/
  | frcRead (r : Requester)
  /-- TB_SNAP: R165: TB_SNAP takes 1. -/
  | tbSnap (r : Requester)
  /-- DOMAIN_LOAD: R164: TB_Dd_LOAD takes 1. -/
  | domainLoad (r : Requester) (d : Fin 2)
  /-- DOMAIN_ADJ: R164: TB_Dd_ADJ is written. -/
  | domainAdj (r : Requester) (d : Fin 2) (v : Word)
  /-- MEAS_WRITE: R171: TB_Dd_MEAS is written. -/
  | measWrite (r : Requester) (d : Fin 2) (v : Word)
  /-- ACQ: R172: TB_Dd_CTL is written with ACQ. -/
  | acq (r : Requester) (d : Fin 2) (v : Word)
  /-- WALK_GO: R174: TB_WALK_CTL is written with GO. -/
  | walkGo (r : Requester) (v : Word)
  /-- WALK_DONE: R174: the domains come within 1 ns. -/
  | walkDone
  /-- IG_ENABLE: R177: TB_IGn_CTL is written with EN = 1. -/
  | igEnable (r : Requester) (n : Fin 32) (v : Word)
  /-- IG_DISABLE: R177: TB_IGn_CTL is written with EN = 0. -/
  | igDisable (r : Requester) (n : Fin 32) (v : Word)
  /-- IG_UPDATE: R177: TB_IGn_CTL is written with UPD. -/
  | igUpdate (r : Requester) (n : Fin 32) (v : Word)
  /-- SYNC_PIN_CONFIG: R179: PIN_EN and POL of generator `n` are written. -/
  | syncPinConfig (r : Requester) (n : Fin 4) (en pol : Bool)
  /-- SYNC_PULSE_END: R179: the pulse on SYNC pin `n` ends. -/
  | syncPulseEnd (n : Fin 4)
  /-- TSF_POP: R169: TB_TSF_POP takes 1. -/
  | tsfPop (r : Requester)
  /-- ENGINE_TIME_READ: R181: an engine reads T0_LO. -/
  | engineTimeRead (e : Fin 48)
  /-- SLOT_CONFIG: R181: an engine writes ISk_CTL. -/
  | slotConfig (e : Fin 48) (k : Fin 8) (v : Word)
  /-- SLOT_ARM: R181: an engine writes ISk_TIME. -/
  | slotArm (e : Fin 48) (k : Fin 8) (v : Word)
  /-- SLOT_FIRE: R181: a one-shot slot reaches its target. -/
  | slotFire (e : Fin 48) (k : Fin 8)
  /-- PORT_ENABLE: R216: MAC_CTL of port `p` is written with STATE ENABLED. -/
  | portEnable (r : Requester) (p : Fin 24) (v : Word)
  /-- PORT_DISABLE: R217: MAC_CTL of port `p` is written with STATE DISABLED. -/
  | portDisable (r : Requester) (p : Fin 24) (v : Word)
  /-- PORT_SLEEP: R218: MAC_CTL of port `p` is written with STATE SLEEP. -/
  | portSleep (r : Requester) (p : Fin 24) (v : Word)
  /-- LINK_UP: R216: the link of port `p` comes up at a speed, or resolves half duplex. -/
  | linkUp (p : Fin 24) (speed : Fin 5) (half : Bool)
  /-- LINK_DOWN: R217: the link of port `p` drops. -/
  | linkDown (p : Fin 24)
  /-- WAKE_MATCH: R218: frame `f` (from the first byte after the SFD) reaches the wake detector of port `p`. -/
  | wakeMatch (p : Fin 24) (f : List Byte)
  /-- PAUSE_FRAME: R219: a pause frame (one quanta value) or an 802.1Qbb frame (priority enables and eight values) is received. -/
  | pauseFrame (p : Fin 24) (pfc : Bool) (en : BitVec 8) (quanta : List (BitVec 16))
  /-- PAUSE_END: R219: the quanta of a class expire. -/
  | pauseEnd (p : Fin 24) (c : Fin 8)
  /-- PAUSE_WATCHDOG_TRIP: R221: pause has held the transmitter beyond LIMIT. -/
  | pauseWatchdogTrip (p : Fin 24)
  /-- PAUSE_WATCHDOG_RECOVER: R221: the RECOVER period ends. -/
  | pauseWatchdogRecover (p : Fin 24)
  /-- PREEMPT_VERIFY: R222: one attempt of the verify procedure ends. -/
  | preemptVerify (p : Fin 24) (ok : Bool)
  /-- INGRESS_FRAME: R223: a whole frame, FCS included, enters switch port `p` (through SPL, from external port `ext`). -/
  | ingressFrame (p : Fin 30) (ext : Fin 24) (f : WholeFrame)
  /-- FDB_AGE_OUT: R224: a dynamic FDB entry passes SW_AGE. -/
  | fdbAgeOut (i : Fin 32768)
  /-- EGRESS_FRAME_START: R237: the switch core starts the frame at the head of a queue. -/
  | egressFrameStart (p : Fin 30) (c : Fin 8)
  /-- GATE_ENTRY: R235: the next entry boundary of the port's gate list passes. -/
  | gateEntry (p : Fin 24)
  /-- GATE_LIST_CHANGE: R238: the written list becomes operative at a cycle start. -/
  | gateListChange (p : Fin 24)
  /-- FRER_RESET_TIMEOUT: R241: the reset timeout of a recovery entry expires. -/
  | frerResetTimeout (i : Fin 512)
  /-- SW_IND_READ: R223: SW_IND_CMD takes 1. -/
  | swIndRead (r : Requester)
  /-- SW_IND_WRITE: R223: SW_IND_CMD takes 2. -/
  | swIndWrite (r : Requester)
  /-- FDB_INSERT: R223: SW_IND_CMD takes 3. -/
  | fdbInsert (r : Requester)
  /-- FDB_DELETE: R223: SW_IND_CMD takes 4. -/
  | fdbDelete (r : Requester)
  /-- FDB_LOOKUP: R223: SW_IND_CMD takes 5. -/
  | fdbLookup (r : Requester)
  /-- TXB_REQUEST: R246: TXB_CTL is written with REQ. -/
  | txbRequest (r : Requester) (n : Fin 4) (k : Fin 3) (v : Word)
  /-- TXB_ABORT: R249: TXB_CTL is written with ABORT. -/
  | txbAbort (r : Requester) (n : Fin 4) (k : Fin 3) (v : Word)
  /-- TX_BUFFER_CHOICE: R247: the bus allows a start of frame. -/
  | txBufferChoice (n : Fin 4)
  /-- TX_ATTEMPT_END: R248: an attempt ends, `age` ns after its start of frame. -/
  | txAttemptEnd (n : Fin 4) (o : TxOutcome) (age : BitVec 32)
  /-- BUS_OFF_RECOVER: R253: CAN_CTL is written with RECOVER. -/
  | busOffRecover (r : Requester) (n : Fin 4) (v : Word)
  /-- BUS_OFF_RECOVERY_DONE: R253: 128 occurrences of 11 recessive bits. -/
  | busOffRecoveryDone (n : Fin 4)
  /-- CAN_FRAME_RECEIVE: R251: a frame is received, `age` ns after its start of frame. -/
  | canFrameReceive (n : Fin 4) (id fmt af : Word) (age : BitVec 32) (data : List Byte)
  /-- TT_MISS: R257: no reference message in two cycles. -/
  | ttMiss (n : Fin 4)
  /-- CAN_RX_POP: R252: CAN_RX_POP takes 1. -/
  | canRxPop (r : Requester) (n : Fin 4)
  /-- CAN_INIT_ENTRY: R254: the frame on the bus ends after RUN was cleared. -/
  | canInitEntry (n : Fin 4)
  /-- CAN_TX_DATA_APPEND: R256: an engine writes TXk_D. -/
  | canTxDataAppend (e : Fin 48) (n : Fin 4) (k : Fin 3) (v : Word)
  /-- CHANNEL_CONFIG: R259: FX_CHn_CFG is written. -/
  | channelConfig (r : Requester) (n : Fin 32) (v : Word)
  /-- INPUT_EDGE: R260, R261: the comparator of channel `n` has been at `lvl` for `age` ns. -/
  | inputEdge (n : Fin 32) (lvl : Bool) (age : BitVec 32)
  /-- EDGE_POP: R262: FX_EDGE_POP takes 1. -/
  | edgePop (r : Requester)
  /-- SEGMENT_SWAP: R263: the spare of channel `n` is switched on for segment `seg`. -/
  | segmentSwap (n : Fin 32) (seg : Fin 8)
  /-- SEGMENT_SWAP_DONE: R263: 20 µs later. -/
  | segmentSwapDone (n : Fin 32)
  /-- OVERLOAD: R264: 100 µs of current limiting at `ma` mA. -/
  | overload (n : Fin 32) (ma : BitVec 16)
  /-- THERMAL_TRIP: R264: the switch reaches 165 °C. -/
  | thermalTrip (n : Fin 32)
  /-- THERMAL_RESTART: R264: the switch is back at 150 °C. -/
  | thermalRestart (n : Fin 32)
  /-- CLR_LATCH: R264: CLR_LATCH takes 1. -/
  | clrLatch (r : Requester) (n : Fin 32)
  /-- LEVEL_COMMAND: R266: a level from the field service (`none`) or a write of FX_CHn_CMD.LEVEL. -/
  | levelCommand (w : Option Requester) (n : Fin 32) (lvl : Bool)
  /-- SCHEDULE_ARM: R268: FX_CHn_SCHk_CTL is written. -/
  | scheduleArm (r : Requester) (n : Fin 32) (k : Fin 4) (v : Word)
  /-- SCHEDULE_FIRE: R268: the 8 ns tick of an entry. -/
  | scheduleFire (n : Fin 32) (k : Fin 4)
  /-- OPEN_WIRE: R272: an open-wire condition has lasted 20 ms. -/
  | openWire (n : Fin 32)
  /-- READBACK_MISMATCH: R272: read-back has differed for 20 ms. -/
  | readbackMismatch (n : Fin 32)
  /-- SHORT_LP: R273: an off channel's read-back has been high for 20 ms at least. -/
  | shortLp (a : Rise)
  /-- CROSS_MISMATCH: R274: off channel `a` has risen after output `b` switched on. -/
  | crossMismatch (a : Rise) (b : Fin 32)
  /-- SAG_WARN: R275: a group's supply is at `mv` mV, below 17 V. -/
  | sagWarn (g : Fin 2) (mv : BitVec 16)
  /-- LOCKOUT: R275: the supply has been below 14 V for 0.5 ms. -/
  | lockout (g : Fin 2) (mv : BitVec 16)
  /-- LOCKOUT_CLEAR: R275: CLEAR takes 1 with the supply at `mv` mV. -/
  | lockoutClear (r : Requester) (g : Fin 2) (mv : BitVec 16)
  /-- LOCKOUT_AUTO_RESTORE: R275: the supply has been at 15.5 V or more for 10 ms. -/
  | lockoutAutoRestore (g : Fin 2) (mv : BitVec 16)
  /-- GROUP_OVERLOAD: R276: the average current exceeds 4.0 A, or has for 1 s (`long`). -/
  | groupOverload (g : Fin 2) (ma : BitVec 16) (long : Bool)
  /-- FIELD_SERVICE_POLL: R278: the 20 µs poll. -/
  | fieldServicePoll
  /-- SDCI_CHARACTER: R280: a character is sent (`tx`) or received on C/Q. -/
  | sdciCharacter (n : Fin 32) (tx : Bool) (b : Byte)
  /-- WAKE_UP_PULSE: R280: a wake-up pulse on a C/Q line that stands at `level`. -/
  | wakeUpPulse (n : Fin 32) (level : Bool)
  /-- HOLD_RELEASE: R282: FX_HOLD_RELEASE takes 1. -/
  | holdRelease (r : Requester)
  /-- HOLD_EXPIRY: R282: HOLD_LIMIT elapses. -/
  | holdExpiry
  /-- PD_CLASSIFICATION: R284: a class event. -/
  | pdClassification
  /-- PD_POWER_GOOD: R283: FET_PD is fully on, with the input at `vin` × 10 mV. -/
  | pdPowerGood (vin : BitVec 16)
  /-- AUX_SENSE: R285: AUXSENSE crosses 18 V. -/
  | auxSense (on_ : Bool)
  /-- RASP_STEP: R290: a step tick of unit `u`, with the levels at the GPIO balls. -/
  | raspStep (u : Fin 16) (pins : BitVec 64)
  /-- RASP_WAIT_END: R291: the last step tick of a WAIT. -/
  | raspWaitEnd (u : Fin 16)
  /-- RASP_STALL_RELEASE: R294: a step tick at which the FIFO of a stalled entry is ready. -/
  | raspStallRelease (u : Fin 16)
  /-- RASP_FLIP: R296: RASP_u_CTL is written with FLIP. -/
  | raspFlip (r : Requester) (u : Fin 16) (v : Word)
  /-- RASP_TABLE_WRITE: R296: RASP_TW_DATA is written. -/
  | raspTableWrite (r : Requester) (v : Word)
  /-- RASP_INJECT: R295: INJ is written. -/
  | raspInject (w : DoneWriter) (u : Fin 16) (v : Word)
  /-- RASP_GO: R293: RASP_START is written with GO. -/
  | raspGo (r : Requester) (v : Word)
  /-- RASP_SYNC_START: R293: the requested start takes effect. -/
  | raspSyncStart
  /-- RASP_DISABLE: R297: RASP_u_CTL is written with EN = 0. -/
  | raspDisable (r : Requester) (u : Fin 16) (v : Word)
  /-- RASP_DISABLE_TICK: R297: the next step tick after EN = 0. -/
  | raspDisableTick (u : Fin 16)
  /-- RASP_PIN_RELEASE: R297: one step period after the stop. -/
  | raspPinRelease (u : Fin 16)
  /-- RASP_PULL_WRITE: R298: a word is written to the pull FIFO. -/
  | raspPullWrite (w : DoneWriter) (u : Fin 16) (v : Word)
  /-- RASP_PUSH_READ: R298: a word is read from the push FIFO. -/
  | raspPushRead (w : DoneWriter) (u : Fin 16)
  /-- HOT_RESET: R306: a hot reset, link disable, link down or low PERST_N. -/
  | hotReset
  /-- PCIE_LINK_TRAINED: R306: the link trains, or trains anew, at rate code `speed` + 1 on 2^`width` lanes, and the host sets Bus Master Enable to `bme` and the endpoint's configuration to `c`. -/
  | pcieLinkTrained (speed width : Fin 3) (bme : Bool) (c : PciConfig)
  /-- COMPLETION_TIMEOUT: R305: a host read is not completed in time, or fails (`ur`). -/
  | completionTimeout (ur : Bool) (r : HostReader)
  /-- QSPI_WRITE: R307: a quad-SPI WRITE frame of 1 to 64 words. -/
  | qspiWrite (a : Word) (ws : List Word)
  /-- QSPI_READ: R307: a quad-SPI READ frame of `count` + 1 words. -/
  | qspiRead (a : Word) (count : Fin 64)
  /-- QSPI_STATUS: R307: a quad-SPI STATUS frame. -/
  | qspiStatus
  /-- BAD_FRAME: R308: a frame with an undefined opcode. -/
  | badFrame (op : BitVec 8)
  /-- QSPI_ABORT: R309: HSPI_CS_N rises before the status byte. -/
  | qspiAbort (part : SpiPart)
  /-- HOST_MAILBOX_WRITE: R311: HMBn_DATA is written. -/
  | hostMailboxWrite (r : Requester) (n : Fin 16) (v : Word)
  /-- HOST_MAILBOX_ACK: R311: HMBn_ACK is written. -/
  | hostMailboxAck (r : Requester) (n : Fin 16) (v : Word)
  /-- ATELIER_MAILBOX_WRITE: R314: AMBn_DATA is written. -/
  | atelierMailboxWrite (r : Requester) (n : Fin 16) (v : Word)
  /-- ATELIER_MAILBOX_ACK: R314: AMBn_ACK is written. -/
  | atelierMailboxAck (r : Requester) (n : Fin 16) (v : Word)
  /-- HDB_SET: R316: HDB_SET is written. -/
  | hdbSet (r : Requester) (v : Word)
  /-- HDB_CLR: R316: HDB_CLR is written. -/
  | hdbClr (r : Requester) (v : Word)
  /-- ADB_SET: R316: ADB_SET is written. -/
  | adbSet (r : Requester) (v : Word)
  /-- ADB_CLR: R316: ADB_CLR is written. -/
  | adbClr (r : Requester) (v : Word)
  /-- UNDEFINED_OPCODE: R326: the command in mailbox `n` has an OPCODE that is not defined. -/
  | undefinedOpcode (n : Fin 16)
  /-- NOP: R329: the command in mailbox `n`. -/
  | hmbNop (n : Fin 16)
  /-- PING: R329: the command in mailbox `n`. -/
  | ping (n : Fin 16)
  /-- CH_OPEN: R330: the command in mailbox `n`. -/
  | chOpen (n : Fin 16)
  /-- CH_CLOSE: R330: the command in mailbox `n`. -/
  | chClose (n : Fin 16)
  /-- CH_REFRESH: R322, R330: the command in mailbox `n`. -/
  | chRefresh (n : Fin 16)
  /-- PACK_LOAD: R331: the command in mailbox `n`. -/
  | packLoad (n : Fin 16)
  /-- PACK_UNLOAD: R331: the command in mailbox `n`. -/
  | packUnload (n : Fin 16)
  /-- PACK_START: R332: the command in mailbox `n`. -/
  | packStart (n : Fin 16)
  /-- PACK_STOP: R140: the command in mailbox `n`. -/
  | packStop (n : Fin 16)
  /-- ITEM_SET: R333, R334: the command in mailbox `n`. -/
  | itemSet (n : Fin 16)
  /-- ITEM_CLEAR: R333, R334: the command in mailbox `n`. -/
  | itemClear (n : Fin 16)
  /-- CG_SET: R333, R334: the command in mailbox `n`. -/
  | cgSet (n : Fin 16)
  /-- CAST_SET: R333, R334: the command in mailbox `n`. -/
  | castSet (n : Fin 16)
  /-- CAST_CLEAR: R333, R334: the command in mailbox `n`. -/
  | castClear (n : Fin 16)
  /-- PORT_CFG: R335: the command in mailbox `n`. -/
  | portCfg (n : Fin 16)
  /-- SW_CFG: R335: the command in mailbox `n`. -/
  | swCfg (n : Fin 16)
  /-- TIME_CFG: R335: the command in mailbox `n`. -/
  | timeCfg (n : Fin 16)
  /-- CAN_CFG: R335: the command in mailbox `n`. -/
  | canCfg (n : Fin 16)
  /-- RASP_CFG: R335: the command in mailbox `n`. -/
  | raspCfg (n : Fin 16)
  /-- FX_CFG: R335: the command in mailbox `n`. -/
  | fxCfg (n : Fin 16)
  /-- RECORD_WAIT_TIMEOUT: R335: the WAIT record of the batch in mailbox `n` has waited for 10 ms. -/
  | recordWaitTimeout (n : Fin 16)
  /-- FX_HOLD_REL: R329, R282: the command in mailbox `n`. -/
  | fxHoldRel (n : Fin 16)
  /-- DIAG_READ: R336: the command in mailbox `n`. -/
  | diagRead (n : Fin 16)
  /-- SPARE_SWAP_ENGINE: R337: KIND 0 in mailbox `n`. -/
  | spareSwapEngine (n : Fin 16)
  /-- SPARE_SWAP_BANK: R337: KIND 1 in mailbox `n`. -/
  | spareSwapBank (n : Fin 16)
  /-- SPARE_SWAP_LANE: R337: KIND 2 in mailbox `n`. -/
  | spareSwapLane (n : Fin 16)
  /-- SPARE_SWAP_SEGMENT: R337: KIND 3 in mailbox `n`. -/
  | spareSwapSegment (n : Fin 16)
  /-- SPARE_SWAP_CORE: R337: KIND 4 in mailbox `n`; KIND 5 to 7 are refused. -/
  | spareSwapCore (n : Fin 16)
  /-- FW_UPDATE_BEGIN: R338: phase 0 in mailbox `n`. -/
  | fwUpdateBegin (n : Fin 16)
  /-- FW_UPDATE_WRITE: R338: phase 1 in mailbox `n`. -/
  | fwUpdateWrite (n : Fin 16)
  /-- FW_UPDATE_COMMIT: R338: phase 2 in mailbox `n`. -/
  | fwUpdateCommit (n : Fin 16)
  /-- FW_UPDATE_ABORT: R338: phase 3 in mailbox `n`. -/
  | fwUpdateAbort (n : Fin 16)
  /-- ATTEST: R339, R419: the command in mailbox `n`. -/
  | attest (n : Fin 16)
  /-- ATTEST_SIGNED: R419: Armature has signed the report asked for first. -/
  | attestSigned
  /-- LC_CHANGE: R339: the command in mailbox `n`. -/
  | lcChange (n : Fin 16)
  /-- LC_CHANGE_DONE: R410: Armature has carried out the change. -/
  | lcChangeDone
  /-- SECURE_WIPE_DONE: R383: the wipe of the secure bank is complete. -/
  | secureWipeDone
  /-- BLOCK_RESET_DEVICE: R340: class 0 in mailbox `n`, and the refusal of classes that are not defined. -/
  | blockResetDevice (n : Fin 16)
  /-- HOST_RESET_PULSE: R387: the reset that BLOCK_RESET scheduled. -/
  | hostResetPulse
  /-- BLOCK_RESET_ENGINE: R340, R396: class 1 in mailbox `n`. -/
  | blockResetEngine (n : Fin 16)
  /-- BLOCK_RESET_PORT: R340, R396: class 2 in mailbox `n`. -/
  | blockResetPort (n : Fin 16)
  /-- BLOCK_RESET_CAN: R340, R396: class 3 in mailbox `n`. -/
  | blockResetCan (n : Fin 16)
  /-- BLOCK_RESET_RASP: R340, R396: class 4 in mailbox `n`. -/
  | blockResetRasp (n : Fin 16)
  /-- BLOCK_RESET_QUEUE: R340, R396: class 5 in mailbox `n`. -/
  | blockResetQueue (n : Fin 16)
  /-- MAQUETTE: R341: the command in mailbox `n`. -/
  | maquette (n : Fin 16)
  /-- NOTIFICATION: R345: the next notification is sent if AMB0 is free. -/
  | notification
  /-- QUEUE_DOORBELL: R351: a doorbell of a DMA queue, from a requester or from the window of the engine that owns it. -/
  | queueDoorbell (w : DoneWriter) (q : Fin 64)
  /-- DESCRIPTOR_FETCH: R346: a queue's descriptor read completes. -/
  | descriptorFetch (q : Fin 64)
  /-- DMA_COPY: R349: a COPY descriptor is carried out. -/
  | dmaCopy (q : Fin 64)
  /-- DMA_FILL: R349: a FILL descriptor is carried out. -/
  | dmaFill (q : Fin 64)
  /-- DMA_COMPARE: R349: a COMPARE descriptor is carried out. -/
  | dmaCompare (q : Fin 64)
  /-- BURST_GRANT: R353: a round of the DMA arbiter. -/
  | burstGrant
  /-- DMA_AGING_GRANT: R31: a round reserved for level 0. -/
  | dmaAgingGrant
  /-- BURST_COMPLETE: R352: the `i`-th burst in flight of a queue completes. -/
  | burstComplete (q : Fin 64) (i : Fin 16)
  /-- DESCRIPTOR_RETURN: R347: a descriptor is returned. -/
  | descriptorReturn (q : Fin 64)
  /-- RQ_TAIL_WRITE: R357: DQn_RQ_TAIL is written. -/
  | rqTailWrite (r : Requester) (q : Fin 64) (v : BitVec 12)
  /-- QUEUE_DISABLE: R360: DQn_CTL is written with EN = 0. -/
  | queueDisable (r : Requester) (q : Fin 64) (v : Word)
  /-- QUEUE_RESUME: R350: DQn_CTL is written with EN and RESUME. -/
  | queueResume (r : Requester) (q : Fin 64) (v : Word)
  /-- EVENT_SIGNAL: R364: source `n` signals. -/
  | eventSignal (n : Fin 512)
  /-- SOFTWARE_EVENT: R363: EVH_SWSET is written. -/
  | softwareEvent (r : Requester) (v : BitVec 6)
  /-- EVENT_CLAIM: R367: EVH_Tt_CLAIM is written. -/
  | eventClaim (r : Requester) (t : Fin 8) (n : Fin 512)
  /-- EVENT_EOI: R367: EVH_Tt_EOI is written. -/
  | eventEoi (r : Requester) (t : Fin 8) (n : Fin 512)
  /-- EVENT_MASK: R368: EVH_MASKw is written. -/
  | eventMask (r : Requester) (w : Fin 16) (v : Word)
  /-- MASK_FENCE: R369: EVH_MASK_FENCE is read. -/
  | maskFence (r : Requester)
  /-- EVENT_RETARGET: R370: EVH_SRCn_CFG is written. -/
  | eventRetarget (r : Requester) (n : Fin 512) (v : Word)
  /-- FALLBACK_MOVE: R371: LINGER of a source's target ends. -/
  | fallbackMove (n : Fin 512)
  /-- BANK_ECC_ERROR: R377: a read of a bank's word finds an error. -/
  | bankEccError (b : Fin 96) (word : BitVec 15) (err : EccErr)
  /-- SCRUB_WORD: R378: the scrubber reads its next word. -/
  | scrubWord (err : EccErr)
  /-- TEST_WINDOW: R379: the next window of bank `b` is saved and tested. -/
  | testWindow (b : Fin 96)
  /-- TEST_WINDOW_RESTORE: R379: the window is restored, with or without a failure. -/
  | testWindowRestore (fail : Bool)
  /-- BANK_POWER_REQUEST: R380: MEM_BKn_PWR is written. -/
  | bankPowerRequest (r : Requester) (b : Fin 96) (v : Word)
  /-- BANK_POWER_ON: R380: a transition to ON completes. -/
  | bankPowerOn (b : Fin 96)
  /-- BANK_REMAP_GO: R382: MEM_REMAP_CTL is written with GO. -/
  | bankRemapGo (r : Requester) (v : Word)
  /-- BANK_REMAP_DONE: R382: the copy completes. -/
  | bankRemapDone
  /-- MEMORY_READY: R384: the banks are initialised. -/
  | memoryReady
  /-- SUPPLY_MONITOR_TRIP: R472: rail `r` has stayed at `mv` mV for 2 µs. -/
  | supplyMonitorTrip (r : Fin 8) (mv : BitVec 16)
  /-- SUPPLY_GOOD: R387: the eight rails have stayed at these mV for 2 ms. -/
  | supplyGood (mvs : List (BitVec 16))
  /-- PORST_N_LOW: R388: a low pulse of `len` ns on PORST_N. -/
  | porstNLow (len : BitVec 32)
  /-- SYSRST_N_LOW: R388: a low pulse of `len` ns on SYSRST_N. -/
  | sysrstNLow (len : BitVec 32)
  /-- RESET_RELEASE: R389: every reset source is released. -/
  | resetRelease
  /-- ATELIER_WATCHDOG_EXPIRY: R391: the count of the Atelier watchdog reaches 0. -/
  | atelierWatchdogExpiry
  /-- AWD_KICK: R391: `r` writes 1 to RST_AWD_KICK. -/
  | awdKick (r : Requester)
  /-- ARMATURE_WATCHDOG_EXPIRY: R392: Armature has not serviced its watchdog for 1 s. -/
  | armatureWatchdogExpiry
  /-- BOOT_IMAGE_READ_DONE: R397: the image is read and hashed. -/
  | bootImageReadDone
  /-- BOOT_VERIFY_DONE: R397: the image's verification ends. -/
  | bootVerifyDone
  /-- ATL_READY: R397: Atelier has initialised. -/
  | atlReady
  /-- HBOOT_LENGTH_WRITE: R400: `r` writes RST_HBOOT_LEN. -/
  | hbootLengthWrite (r : Requester) (v : Word)
  /-- TAMPER: R420: source `k` is detected: GLITCH, TEMP, PACE or DEBUG. -/
  | tamper (k : Fin 4)
  /-- DEBUG_CHALLENGE: R422: the JTAG instruction CHALLENGE. -/
  | debugChallenge
  /-- DEBUG_UNLOCK: R422: the JTAG instruction UNLOCK with a token. -/
  | debugUnlock (t : List Byte)
  /-- WEAR_ROUND: R424: the units of a kind are sampled. -/
  | wearRound (k : WearKind) (paces : List Word)
  /-- EPOCH_END: R426: PAT_EPOCH minutes have passed. -/
  | epochEnd
  /-- BASELINE_CAPTURE: R428: ten minutes after release. -/
  | baselineCapture
  /-- LIFE_RECORD_WRITE: R429: the life record is rewritten. -/
  | lifeRecordWrite
  /-- SPARE_REQUEST_REPEAT: R430: PAT_REQ_INT minutes after a request. -/
  | spareRequestRepeat (k : WearKind) (n : Fin 288)
  /-- SUBSTITUTION_RETRY: R432: PAT_RETRY minutes after an abandoned migration. -/
  | substitutionRetry
  /-- TELEMETRY_SNAPSHOT: R435: 10 ms of FRC time, with the sensors' highest and lowest Tj, the free OTP rows / 8 and the corrected errors. -/
  | telemetrySnapshot (tHi tLo : BitVec 16) (rows : BitVec 8) (ce : Word)
  /-- PHY_TRIM: R436: the trim of a PHY port gives setting `v`. -/
  | phyTrim (p : Fin 8) (v : Word) (inRange : Bool)
  /-- ADC_OFFSET_CALIBRATION: R436: the ADC's offset measures `v`. -/
  | adcOffsetCalibration (v : BitVec 16) (inRange : Bool)
  /-- TEMPERATURE_SENSOR_CHECK: R436: the sensors read `t`. -/
  | temperatureSensorCheck (t : List (BitVec 16))
  /-- OSCILLATOR_DRIFT: R161, R436: the loop looks at ALTREF; against a valid one XREF measures a value. -/
  | oscillatorDrift (altref : Option Word) (inRange : Bool)
  /-- PLINTH_LINK_TRAINED: R441: link `k` trains; what its peer sent, and the measured delay. -/
  | plinthLinkTrained (k : Fin 4) (id : Fin 8) (size : Fin 16) (link : Fin 4) (delay : BitVec 24)
  /-- LANE_FAILURE: R437: an active lane of link `k` fails. -/
  | laneFailure (k : Fin 4) (lane : Fin 2)
  /-- PACKET_RECEIVE: R438: link `k` receives acknowledges and a packet. -/
  | packetReceive (k : Fin 4) (acked : Fin 33) (crcOk : Bool) (p : Option Packet)
  /-- PACKET_RESEND: R438: the first unacknowledged packet of link `k` is sent again. -/
  | packetResend (k : Fin 4)
  /-- LINK_STATE_FLOOD: R442: the link-state word of device `d`. -/
  | linkStateFlood (d : Fin 8) (w : BitVec 4)
  /-- ROUTE_HOLD_END: R444: packets to `d` on the old route are acknowledged. -/
  | routeHoldEnd (d : Fin 8)
  /-- LANE_SWAP: R445: PK_Lk_CTL is written with SWAP. -/
  | laneSwap (r : Requester) (k : Fin 4) (v : Word)
  /-- LANE_SWAP_DONE: R445: the swapped link is trained again. -/
  | laneSwapDone (k : Fin 4)
  /-- REMOTE_ACCESS_GO: R446: PK_RAp_CMD is written with GO. -/
  | remoteAccessGo (r : Requester) (p : Fin 2) (v : Word)
  /-- REMOTE_ACCESS_DONE: R446: the answer to a remote access arrives. -/
  | remoteAccessDone (p : Fin 2) (result : Fin 4) (v : Word)
  /-- REMOTE_ACCESS_TIMEOUT: R446: 1 ms without an answer. -/
  | remoteAccessTimeout (p : Fin 2)
  /-- REMOTE_DMA_GO: R447: PK_RDc_CTL is written with GO. -/
  | remoteDmaGo (r : Requester) (c : Fin 4) (v : Word)
  /-- REMOTE_DMA_DONE: R447: a remote copy ends; `data` is what a copy from the remote device brought. -/
  | remoteDmaDone (c : Fin 4) (result : Fin 5) (done : BitVec 24) (data : List Byte)
  /-- REMOTE_EVENT: R448: an event message from device `d`. -/
  | remoteEvent (d : Fin 8)
  /-- REMOTE_RESET_REQUEST: R449: PK_RRST is written with GO. -/
  | remoteResetRequest (r : Requester) (v : Word)
  /-- REMOTE_RESET_RECEIVE: R449: device `d` asks for a reset. -/
  | remoteResetReceive (d : Fin 8) (sys : Bool)
  /-- CLUSTER_TIME_MESSAGE: R450: the time master's millisecond. -/
  | clusterTimeMessage
  /-- CLUSTER_TIME_RECEIVE: R450: the time message measures `e`. -/
  | clusterTimeReceive (e : Word)
  /-- ECO_STEP: R461: the 10 ms step of ECO. -/
  | ecoStep
  /-- BUDGET_STEP: R461: BUDGET looks at a power of `mw` mW. -/
  | budgetStep (mw : BitVec 20)
  /-- VCORE_SLEW: R462: the request moves. -/
  | vcoreSlew
  /-- AVS_FAILURE: R463: a third failure of an AVSBus command. -/
  | avsFailure
  /-- BUDGET_WRITE: R465: PWR_BUDGET is written. -/
  | budgetWrite (r : Requester) (v : Word)
  /-- STORE_READY: R65: the images are zeroed. -/
  | storeReady
  /-- SAG_WARN_CLEAR: R275: the supply rises above 17.5 V. -/
  | sagWarnClear (g : Fin 2) (mv : BitVec 16)
  /-- PD_POWER_LOSS: R283: the input is lost. -/
  | pdPowerLoss
  /-- PLINTH_LINK_DOWN: R444: link `k` goes down. -/
  | plinthLinkDown (k : Fin 4)
  /-- CAN_BUS_ERROR: R253: an error on the bus gives the error counters new values. -/
  | canBusError (n : Fin 4) (tec : Fin 512) (rec_ : Fin 256)
  deriving DecidableEq, Repr

end Sys2Proof
end

