-- ==== Sys2Proof/Decode.lean ====
section
/-! DEFINITION. The command that a word spells. The spec's table gives no row any bits: the commands reach the block as register
accesses, bus transactions and events, and no word spells one. The words of an engine's program are decoded by
decodeEngine in Machine/Operands.lean, which is part of what the engines do. -/
namespace Sys2Proof

/-- The command that a word of `nbits` bits spells: none, since no row of the table has bits. -/
def decodeTableWord (_nbits _w : Nat) : Option Instr := none

end Sys2Proof
end

