-- ==== Sys2Proof/Config.lean ====
section
/-! DEFINITION. What the spec leaves open: values drawn by the device (random numbers, hashes of the switch, loss draws) and
the cryptographic functions of the standards it names. Each is a constant with no body, so that a proof holds for every
choice. -/
namespace Sys2Proof.Config

/-- The n-th free value of `w` bits (TRNG words, WRED draws, measured quantities the spec does not compute). -/
opaque freeValue : Nat → (w : Nat) → BitVec w

/-- The comparator delay of a field input in ns (R261); the spec states no value. -/
opaque comparatorDelay : Nat

/-- The transmitter delay that controller CBn measures, in kernel periods (R245). -/
opaque canDelay : Nat → BitVec 8

/-- SHAKE256 of a byte string, first `n` bytes of output (FIPS 202; R396 ff. of spec/18). -/
opaque shake256Bytes : List Byte → (n : Nat) → Vector Byte n
def shake256 (bs : List Byte) (n : Nat) : List Byte := (shake256Bytes bs n).toList

/-- The switch's hash of (DA, FID), one of 8,192 sets (R223). -/
opaque fdbHash : (mac fid : Nat) → Fin 8192

/-- SLH-DSA verification of a signature of a message under a public key (FIPS 205). -/
opaque slhDsaVerify : (key msg sig : List Byte) → Bool

/-- SLH-DSA signature, 49,856 bytes, of a message with the device identity key of an identity seed, hedged with a random number (R419). -/
opaque slhDsaSignBytes : (seed : List Byte) → (rnd : BitVec 256) → (msg : List Byte) → Vector Byte 49856
def slhDsaSign (seed : List Byte) (rnd : BitVec 256) (msg : List Byte) : List Byte := (slhDsaSignBytes seed rnd msg).toList

/-- SEC_DEVID, 16 bytes, and the identity public key, 64 bytes, derived from the identity seed (R410, R419). -/
opaque deviceIdBytes : (seed : List Byte) → Vector Byte 16
opaque identityKeyBytes : (seed : List Byte) → Vector Byte 64
def deviceId (seed : List Byte) : List Byte := (deviceIdBytes seed).toList
def identityKey (seed : List Byte) : List Byte := (identityKeyBytes seed).toList

/-- Armature's ROM, and Ehrern's production key in it (R408, R418). -/
opaque romImage : List Byte
opaque romKeyBytes : Vector Byte 64
def romKey : List Byte := romKeyBytes.toList

/-- The n-th debug challenge from the TRNG (R422). -/
opaque challenge : Nat → BitVec 256

/-- What an instant generator of an instance is for (R142, R196). -/
inductive IgUse where
  | cycle | commit | latch | sample | gate
  deriving DecidableEq, Repr, Inhabited

/-- An engine program of a pack as an instance needs it (R129, R135, R136): its words, its data, the generator of its cycle and
that of its start among the instance's, W, and the offset of its gap with the length that the pack declares, where it does not leave
it to the pack table's default. -/
structure PackEngine where
  code : List Word := []
  data : List Byte := []
  cyc : Option Nat := none
  start : Option Nat := none
  w : Nat := 0
  gapOff : Nat := 0
  gap : Option (BitVec 32) := none
  deriving DecidableEq, Repr, Inhabited

/-- An instant generator of an instance: its use, its period in ns and 2^-16 ns, how many of its periods an interval of the network
has (intervals reach 60 s, R141), and its first instant from the start on. -/
structure PackIg where
  use : IgUse := .cycle
  period : BitVec 32 := 0
  pfrac : BitVec 16 := 0
  times : BitVec 16 := 1
  offset : BitVec 32 := 0
  deriving DecidableEq, Repr, Inhabited

/-- A commit group of an instance: its trigger (a command, or a generator among the instance's), the DONE writes it expects, and
the shortest period of its commands. -/
structure PackGroup where
  byCmd : Bool := false
  ig : Nat := 0
  writers : Fin 16 := 0
  minPeriod : BitVec 32 := 0
  deriving DecidableEq, Repr, Inhabited

/-- A network object of the configuration (R156, R157): the unit (segment, bus, line) and the node it belongs to, its direction, its
bytes, and its group among the instance's. -/
structure PackObject where
  unit : Nat := 0
  node : Nat := 0
  out : Bool := false
  bytes : Nat := 0
  group : Nat := 0
  deriving DecidableEq, Repr, Inhabited

/-- An item of an instance: width - 1, its group among the instance's, and its direction. -/
structure PackItem where
  widthM1 : Fin 1024 := 0
  group : Nat := 0
  out : Bool := false
  deriving DecidableEq, Repr, Inhabited

/-- An FDB entry that sends a pack's frames to one of its engines (R137), with the stream handle that it assigns, if any (R240). -/
structure PackFdb where
  mac : BitVec 48 := 0
  fid : BitVec 12 := 0
  engine : Nat := 0
  stream : Option (Fin 1024) := none
  deriving DecidableEq, Repr, Inhabited

/-- What a role's configuration asks for (R134 to R145, R148 to R157): whether its time need is FOLLOW where the pack table leaves a
choice (DC_REF = SUBDEVICE, time synchronisation), the source it would follow, the units its engines are counted by (R141), whether
it has YP10's isochronous class, whether YPMB runs over RTU, the YP12 segments with cable redundancy, the cycle of each YPSD port in ns,
the longest service-data segment of YPCO, the MEI types that code 43 is used with, whether its engines are one block, its engines, generators and groups,
the network's objects, its nodes by unit and address, the cyclic frames of each segment, the reduction ratios, the function codes of
its poll lists, its CAN controllers, Rasp units, GPIO pins and field channels, and the FDB entries and stream filters that classify
its frames. Its items and the number of its nodes follow from these. -/
structure PackPlan where
  follow : Bool := false
  src : Nat := 0
  units : Nat := 0
  units2 : Nat := 0
  iso : Bool := false
  rtu : Bool := false
  twin : List Nat := []
  portCycles : List (BitVec 32) := []
  sdo : Nat := 0
  meis : List Nat := []
  block : Bool := false
  engines : List PackEngine := []
  igs : List PackIg := []
  groups : List PackGroup := []
  objects : List PackObject := []
  addrs : List (Nat × Nat) := []
  frames : List Nat := []
  ratios : List Nat := []
  funcs : List Nat := []
  cans : List (Fin 4) := []
  rasps : List (Fin 16) := []
  pins : List (Fin 64) := []
  chans : List (Fin 32) := []
  fdb : List PackFdb := []
  filters : List (Fin 1024 × Nat) := []
  itemBits : Nat := 1024
  items : List PackItem := []
  nodes : BitVec 16 := 0
  deriving DecidableEq, Repr, Inhabited

/-- The plan that a pack's body gives a role for its ports and its configuration block; none where the pack's rules refuse the
configuration. The spec gives the body's content (R129) but not its format, and the configuration blocks of YPFZ alone. -/
opaque packPlan : (image : List Byte) → (role ports : Nat) → (cfg : List Byte) → Option PackPlan

end Sys2Proof.Config
end

