-- ==== Sys2Proof/Machine/Tab.lean ====
section
/-! DEFINITION. Reading and writing sparse tables (keys rising, no entry equal to the default), and the small number and
byte helpers that every block uses. -/
namespace Sys2Proof.Machine

/-- The value at key `k`; an unlisted key holds the default `d`. -/
def tabGet {α : Type} (d : α) : Tab α → Nat → α
  | [], _ => d
  | p :: t, k => if p.1 = k then p.2 else tabGet d t k

/-- Place a value at key `k`, before the first greater key. -/
def tabPut {α : Type} : Tab α → Nat → α → Tab α
  | [], k, v => [(k, v)]
  | p :: t, k, v => if k < p.1 then (k, v) :: p :: t else if p.1 = k then (k, v) :: t else p :: tabPut t k v

/-- Write `v` at key `k`, keeping the canonical form: writing the default removes the entry. -/
def tabSet {α : Type} [DecidableEq α] (d : α) (t : Tab α) (k : Nat) (v : α) : Tab α :=
  if v = d then t.filter fun p => p.1 != k else tabPut t k v

/-- Return every key from `lo` up to but not including `hi` to the default. -/
def tabClear {α : Type} (t : Tab α) (lo hi : Nat) : Tab α :=
  t.filter fun p => p.1 < lo || hi ≤ p.1

/-- The canonical form of a table with default `d`. -/
def tabWf {α : Type} [DecidableEq α] (d : α) (t : Tab α) : Bool :=
  decide (t.Pairwise fun p q => p.1 < q.1) && t.all fun p => decide (p.2 ≠ d)

/-- 32 bits of a number. -/
def w32 (n : Nat) : Word := BitVec.ofNat 32 n

/-- The number of a bit. -/
def bit01 (b : Bool) : Nat := if b then 1 else 0

/-- Bits `hi = lo + width - 1` down to `lo` of a number. -/
def bits (n lo width : Nat) : Nat := n / 2 ^ lo % 2 ^ width

/-- `n` with bits `lo + width - 1` to `lo` replaced by those of `v`. -/
def setBits (n lo width v : Nat) : Nat :=
  n - bits n lo width * 2 ^ lo + v % 2 ^ width * 2 ^ lo

/-- Add and hold at the largest number of `width` bits. -/
def satAdd (width a b : Nat) : Nat := min (a + b) (2 ^ width - 1)

/-- The signed reading of the low 32 bits of a number. -/
def s32 (n : Nat) : Int := (BitVec.ofNat 32 n).toInt

/-- The low 32 bits of an integer, two's complement. -/
def u32 (i : Int) : Nat := (BitVec.ofInt 32 i).toNat

/-- An integer held within a signed 32-bit number (R19: saturating). -/
def sat32 (i : Int) : Int := max (-2147483648) (min 2147483647 i)

/-- The signed 32-bit difference of two 32-bit views of a time, exact while they lie within 2^31 of each other. -/
def diff32 (a b : Nat) : Int := s32 ((a + 2 ^ 32 - b % 2 ^ 32) % 2 ^ 32)

/-- The signed difference of two 64-bit times. -/
def diff64 (a b : Nat) : Int := (BitVec.ofNat 64 (a + 2 ^ 64 - b % 2 ^ 64)).toInt

/-- A little-endian number of bytes. -/
def leNat : List Byte → Nat
  | [] => 0
  | b :: bs => b.toNat + 256 * leNat bs

/-- `n` bytes of a number, least significant first. -/
def leBytes : Nat → Nat → List Byte
  | 0, _ => []
  | n + 1, v => BitVec.ofNat 8 v :: leBytes n (v / 256)

/-- Write `v` at position `i` of a list; a position beyond it changes nothing. -/
def listSet {α : Type} : List α → Nat → α → List α
  | [], _, _ => []
  | _ :: t, 0, v => v :: t
  | x :: t, i + 1, v => x :: listSet t i v

/-- The numbers from `0` to `n - 1` for which `p` holds, in rising order. -/
def numsWhere (n : Nat) (p : Nat → Bool) : List Nat := (List.range n).filter p

end Sys2Proof.Machine
end

