-- ==== Sys2Proof/Machine/Reg.lean ====
section
/-! DEFINITION. What a register is in the map: name, address, strides, fields with their access codes and reset columns
(spec/00, "Register tables"), and the special reset values that depend on the register's number. -/
namespace Sys2Proof.Machine

/-- The access codes of spec/00; `cnt` is a W1C field that holds a count (R489). -/
inductive Acc where
  | rw | ro | wo | w1c | w1s | rwl | cnt
  deriving DecidableEq, Repr

/-- One row of a register table: lowest bit, width, access code, and the POR, SYSTEM and CORE columns (`none` is a
dash: the field keeps its value through that reach, R3). -/
structure FldDesc where
  lo : Nat
  width : Nat
  acc : Acc
  por : Nat
  sys : Option Nat
  core : Option Nat
  deriving DecidableEq, Repr

/-- A register of the map, with up to three index strides, and what its reset value adds by its first index. -/
structure Reg where
  name : String
  base : Nat
  dims : List (Nat × Nat)
  fields : List FldDesc
  special : Nat → Nat

/-- A named field of a register. -/
structure Fld where
  reg : Reg
  lo : Nat
  width : Nat

/-- The distance of an index tuple from the register's base. -/
def regOffset : List (Nat × Nat) → List Nat → Nat
  | d :: ds, i :: is => i * d.2 + regOffset ds is
  | _, _ => 0

/-- The fabric address of the register numbered `i`, `j`, `k`. -/
def Reg.addr (r : Reg) (i j k : Nat) : Nat := r.base + regOffset r.dims [i, j, k]

/-- The word a register takes at POR. -/
def Reg.por (r : Reg) (i : Nat) : Nat :=
  r.fields.foldl (fun w f => w ||| (f.por % 2 ^ f.width) * 2 ^ f.lo) (r.special i)

/-- The place of a field's bits in its register. -/
def FldDesc.mask (f : FldDesc) : Nat := (2 ^ f.width - 1) * 2 ^ f.lo

/-- The level sources of the event hub (R363): all but the address-error, remote-event and software sources. -/
def isLevelSource (n : Nat) : Bool := n < 308 || (324 ≤ n && n < 448)

/-- The default target of an event source (R363). -/
def defaultTarget (n : Nat) : Nat :=
  if n < 32 then 0 else if n < 80 then 6 else if n < 112 then 0 else if n < 144 then 6
  else if n < 308 then 0 else if n < 316 then n - 308 else 0

/-- The use of a bank slot (R374): 0 Atelier, 1 store, 2 switch, 3 channel cache and DMA, 4 scratch, 5 secure, 6 spare. -/
def slotUse (n : Nat) : Nat :=
  if n < 16 then 0 else if n < 35 then 1 else if n < 67 then 2 else if n < 71 then 3 else if n < 87 then 4
  else if n < 88 then 5 else 6

/-- The index tuple that places an offset within strides (outermost first), if there is one. -/
def findIndex : List (Nat × Nat) → Nat → Option (List Nat)
  | [], off => if off = 0 then some [] else none
  | d :: ds, off =>
    if d.2 = 0 then none
    else if off / d.2 < d.1 then (findIndex ds (off % d.2)).map (fun is => off / d.2 :: is)
    else none

/-- The indexes (missing ones zero) of a fabric address within a register, if the address is one of the register's. -/
def Reg.index (r : Reg) (a : Nat) : Option (Nat × Nat × Nat) :=
  if a < r.base then none
  else (findIndex r.dims (a - r.base)).map fun is => (is.getD 0 0, is.getD 1 0, is.getD 2 0)

end Sys2Proof.Machine
end

