-- ==== Sys2Proof/Machine/RegMap.lean ====
section
/-! DEFINITION. The register map: every register of the spec's register tables, with its address, strides, fields,
access codes and reset columns (spec/02 to spec/21, "Registers"), and a name for every field. Reset values that the
tables give by name (option block, record, OTP) stand as for a device as shipped (R488); see notes/assumptions. -/
namespace Sys2Proof.Machine.R
open Sys2Proof.Machine

/-- spec/02. -/
def SS_CTL : Reg := ⟨"SS_CTL", 0x40060000, [],
  [⟨0, 1, .rw, 0x0, (some 0), none⟩, ⟨1, 1, .rw, 0x0, (some 0), none⟩], fun _ => 0⟩
/-- spec/02. -/
def SS_STAT : Reg := ⟨"SS_STAT", 0x40060004, [],
  [⟨0, 1, .ro, 0x0, (some 0), none⟩, ⟨1, 1, .ro, 0x0, (some 0), none⟩], fun _ => 0⟩
/-- spec/02. -/
def SS_NITEMS : Reg := ⟨"SS_NITEMS", 0x40060008, [],
  [⟨0, 19, .ro, 0x0, (some 0), none⟩], fun _ => 0⟩
/-- spec/02. -/
def SS_NCASTS : Reg := ⟨"SS_NCASTS", 0x4006000C, [],
  [⟨0, 19, .ro, 0x0, (some 0), none⟩], fun _ => 0⟩
/-- spec/02. -/
def SS_EVT : Reg := ⟨"SS_EVT", 0x40060010, [],
  [⟨0, 1, .w1c, 0x0, (some 0), none⟩, ⟨1, 1, .w1c, 0x0, (some 0), none⟩, ⟨2, 1, .w1c, 0x0, (some 0), none⟩, ⟨3, 1, .w1c, 0x0, (some 0), none⟩, ⟨4, 1, .w1c, 0x0, (some 0), none⟩, ⟨5, 1, .w1c, 0x0, (some 0), none⟩, ⟨6, 1, .w1c, 0x0, (some 0), none⟩], fun _ => 0⟩
/-- spec/02. -/
def SS_EVT_EN : Reg := ⟨"SS_EVT_EN", 0x40060014, [],
  [⟨0, 1, .rw, 0x0, (some 0), none⟩, ⟨1, 1, .rw, 0x0, (some 0), none⟩, ⟨2, 1, .rw, 0x0, (some 0), none⟩, ⟨3, 1, .rw, 0x0, (some 0), none⟩, ⟨4, 1, .rw, 0x0, (some 0), none⟩, ⟨5, 1, .rw, 0x0, (some 0), none⟩, ⟨6, 1, .rw, 0x0, (some 0), none⟩], fun _ => 0⟩
/-- spec/02. -/
def SS_WR_CNT : Reg := ⟨"SS_WR_CNT", 0x40060018, [],
  [⟨0, 32, .ro, 0x0, (some 0), none⟩], fun _ => 0⟩
/-- spec/02. -/
def SS_THRU_CNT : Reg := ⟨"SS_THRU_CNT", 0x4006001C, [],
  [⟨0, 32, .ro, 0x0, (some 0), none⟩], fun _ => 0⟩
/-- spec/02. -/
def SS_THRU_DEPTH : Reg := ⟨"SS_THRU_DEPTH", 0x40060020, [],
  [⟨0, 32, .ro, 0x0, (some 0), none⟩], fun _ => 0⟩
/-- spec/02. -/
def SS_REMOTE_CNT : Reg := ⟨"SS_REMOTE_CNT", 0x40060024, [],
  [⟨0, 32, .ro, 0x0, (some 0), none⟩], fun _ => 0⟩
/-- spec/02. -/
def SS_ECC_HANDLE : Reg := ⟨"SS_ECC_HANDLE", 0x40060028, [],
  [⟨0, 32, .ro, 0x0, (some 0), none⟩], fun _ => 0⟩
/-- spec/02. -/
def SS_IND_SEL : Reg := ⟨"SS_IND_SEL", 0x40060100, [],
  [⟨0, 19, .rw, 0x0, (some 0), none⟩, ⟨24, 2, .rw, 0x0, (some 0), none⟩], fun _ => 0⟩
/-- spec/02. -/
def SS_IND_CMD : Reg := ⟨"SS_IND_CMD", 0x40060104, [],
  [⟨0, 2, .wo, 0x0, (some 0), none⟩], fun _ => 0⟩
/-- spec/02. -/
def SS_IND_DATA_LO : Reg := ⟨"SS_IND_DATA_LO", 0x40060108, [],
  [⟨0, 32, .rw, 0x0, (some 0), none⟩], fun _ => 0⟩
/-- spec/02. -/
def SS_IND_DATA_HI : Reg := ⟨"SS_IND_DATA_HI", 0x4006010C, [],
  [⟨0, 32, .rw, 0x0, (some 0), none⟩], fun _ => 0⟩
/-- spec/02. -/
def SS_HWR_HANDLE : Reg := ⟨"SS_HWR_HANDLE", 0x40060200, [],
  [⟨0, 18, .rw, 0x0, (some 0), none⟩], fun _ => 0⟩
/-- spec/02. -/
def SS_AWR_HANDLE : Reg := ⟨"SS_AWR_HANDLE", 0x40060300, [],
  [⟨0, 18, .rw, 0x0, (some 0), none⟩], fun _ => 0⟩
/-- spec/02. -/
def SS_HWR_CTL : Reg := ⟨"SS_HWR_CTL", 0x40060204, [],
  [⟨0, 2, .wo, 0x0, (some 0), none⟩], fun _ => 0⟩
/-- spec/02. -/
def SS_AWR_CTL : Reg := ⟨"SS_AWR_CTL", 0x40060304, [],
  [⟨0, 2, .wo, 0x0, (some 0), none⟩], fun _ => 0⟩
/-- spec/02. -/
def SS_HWR_STAT : Reg := ⟨"SS_HWR_STAT", 0x40060208, [],
  [⟨0, 1, .ro, 0x0, (some 0), none⟩, ⟨1, 1, .ro, 0x0, (some 0), none⟩], fun _ => 0⟩
/-- spec/02. -/
def SS_AWR_STAT : Reg := ⟨"SS_AWR_STAT", 0x40060308, [],
  [⟨0, 1, .ro, 0x0, (some 0), none⟩, ⟨1, 1, .ro, 0x0, (some 0), none⟩], fun _ => 0⟩
/-- spec/02. -/
def SS_HWR_DATA : Reg := ⟨"SS_HWR_DATA", 0x40060280, [(32, 0x4)],
  [⟨0, 32, .rw, 0x0, (some 0), none⟩], fun _ => 0⟩
/-- spec/02. -/
def SS_AWR_DATA : Reg := ⟨"SS_AWR_DATA", 0x40060380, [(32, 0x4)],
  [⟨0, 32, .rw, 0x0, (some 0), none⟩], fun _ => 0⟩
/-- spec/02. -/
def SS_CG_CTL : Reg := ⟨"SS_CG_CTL", 0x40061000, [(256, 0x40)],
  [⟨0, 1, .rw, 0x0, (some 0), none⟩, ⟨1, 1, .rw, 0x0, (some 0), none⟩, ⟨2, 5, .rw, 0x0, (some 0), none⟩, ⟨7, 4, .rw, 0x0, (some 0), none⟩, ⟨16, 8, .rw, 0xff, (some 255), none⟩], fun _ => 0⟩
/-- spec/02. -/
def SS_CG_STAT : Reg := ⟨"SS_CG_STAT", 0x40061004, [(256, 0x40)],
  [⟨0, 2, .ro, 0x0, (some 0), none⟩, ⟨2, 2, .ro, 0x1, (some 1), none⟩, ⟨4, 2, .ro, 0x2, (some 2), none⟩, ⟨6, 1, .ro, 0x0, (some 0), none⟩, ⟨7, 1, .ro, 0x0, (some 0), none⟩], fun _ => 0⟩
/-- spec/02. -/
def SS_CG_SEQ : Reg := ⟨"SS_CG_SEQ", 0x40061008, [(256, 0x40)],
  [⟨0, 32, .ro, 0x0, (some 0), none⟩], fun _ => 0⟩
/-- spec/02. -/
def SS_CG_PSEQ : Reg := ⟨"SS_CG_PSEQ", 0x4006100C, [(256, 0x40)],
  [⟨0, 32, .ro, 0x0, (some 0), none⟩], fun _ => 0⟩
/-- spec/02. -/
def SS_CG_LATE : Reg := ⟨"SS_CG_LATE", 0x40061010, [(256, 0x40)],
  [⟨0, 32, .cnt, 0x0, (some 0), none⟩], fun _ => 0⟩
/-- spec/02. -/
def SS_CG_COLLIDE : Reg := ⟨"SS_CG_COLLIDE", 0x40061014, [(256, 0x40)],
  [⟨0, 32, .cnt, 0x0, (some 0), none⟩], fun _ => 0⟩
/-- spec/02. -/
def SS_CG_LASTCOL : Reg := ⟨"SS_CG_LASTCOL", 0x40061018, [(256, 0x40)],
  [⟨0, 18, .ro, 0x0, (some 0), none⟩], fun _ => 0⟩
/-- spec/02. -/
def SS_CG_OVR : Reg := ⟨"SS_CG_OVR", 0x4006101C, [(256, 0x40)],
  [⟨0, 32, .cnt, 0x0, (some 0), none⟩], fun _ => 0⟩
/-- spec/02. -/
def SS_CG_STALE : Reg := ⟨"SS_CG_STALE", 0x40061020, [(256, 0x40)],
  [⟨0, 19, .ro, 0x0, (some 0), none⟩], fun _ => 0⟩
/-- spec/02. -/
def SS_CG_TIME : Reg := ⟨"SS_CG_TIME", 0x40061024, [(256, 0x40)],
  [⟨0, 32, .ro, 0x0, (some 0), none⟩], fun _ => 0⟩
/-- spec/02. -/
def SS_CG_PTIME : Reg := ⟨"SS_CG_PTIME", 0x40061028, [(256, 0x40)],
  [⟨0, 32, .ro, 0x0, (some 0), none⟩], fun _ => 0⟩
/-- spec/02. -/
def SS_CG_NITEMS : Reg := ⟨"SS_CG_NITEMS", 0x4006102C, [(256, 0x40)],
  [⟨0, 19, .ro, 0x0, (some 0), none⟩], fun _ => 0⟩
/-- spec/02. -/
def SS_CG_CMT : Reg := ⟨"SS_CG_CMT", 0x40061030, [(256, 0x40)],
  [⟨0, 1, .wo, 0x0, (some 0), none⟩], fun _ => 0⟩
/-- spec/02. -/
def SS_CG_DONE : Reg := ⟨"SS_CG_DONE", 0x40061034, [(256, 0x40)],
  [⟨0, 8, .wo, 0x0, (some 0), none⟩], fun _ => 0⟩
/-- spec/03. -/
def CE_CTL : Reg := ⟨"CE_CTL", 0x40080000, [(48, 0x800)],
  [⟨0, 1, .w1s, 0x0, (some 0), none⟩, ⟨1, 1, .w1s, 0x0, (some 0), none⟩, ⟨2, 1, .rw, 0x0, (some 0), none⟩, ⟨3, 5, .rw, 0x0, (some 0), none⟩], fun _ => 0⟩
/-- spec/03. -/
def CE_STAT : Reg := ⟨"CE_STAT", 0x40080004, [(48, 0x800)],
  [⟨0, 3, .ro, 0x0, (some 0), none⟩, ⟨3, 1, .ro, 0x0, (some 0), none⟩, ⟨4, 1, .ro, 0x0, (some 0), none⟩], fun _ => 0⟩
/-- spec/03. -/
def CE_PC : Reg := ⟨"CE_PC", 0x40080008, [(48, 0x800)],
  [⟨0, 12, .ro, 0x0, (some 0), none⟩], fun _ => 0⟩
/-- spec/03. -/
def CE_BIND : Reg := ⟨"CE_BIND", 0x4008000C, [(48, 0x800)],
  [⟨0, 5, .rw, 0x0, (some 0), none⟩, ⟨7, 1, .rw, 0x0, (some 0), none⟩, ⟨8, 5, .rw, 0x0, (some 0), none⟩, ⟨15, 1, .rw, 0x0, (some 0), none⟩], fun _ => 0⟩
/-- spec/03. -/
def CE_CYC : Reg := ⟨"CE_CYC", 0x40080010, [(48, 0x800)],
  [⟨0, 5, .rw, 0x0, (some 0), none⟩, ⟨8, 1, .rw, 0x0, (some 0), none⟩], fun _ => 0⟩
/-- spec/03. -/
def CE_GAP_OFF : Reg := ⟨"CE_GAP_OFF", 0x40080014, [(48, 0x800)],
  [⟨0, 32, .rw, 0x0, (some 0), none⟩], fun _ => 0⟩
/-- spec/03. -/
def CE_GAP_LEN : Reg := ⟨"CE_GAP_LEN", 0x40080018, [(48, 0x800)],
  [⟨0, 24, .rw, 0x0, (some 0), none⟩], fun _ => 0⟩
/-- spec/03. -/
def CE_SLACK_CUR : Reg := ⟨"CE_SLACK_CUR", 0x4008001C, [(48, 0x800)],
  [⟨0, 32, .ro, 0x7fffffff, (some 2147483647), none⟩], fun _ => 0⟩
/-- spec/03. -/
def CE_SLACK_LAST : Reg := ⟨"CE_SLACK_LAST", 0x40080020, [(48, 0x800)],
  [⟨0, 32, .ro, 0x7fffffff, (some 2147483647), none⟩], fun _ => 0⟩
/-- spec/03. -/
def CE_SLACK_MIN : Reg := ⟨"CE_SLACK_MIN", 0x40080024, [(48, 0x800)],
  [⟨0, 32, .ro, 0x7fffffff, (some 2147483647), none⟩], fun _ => 0⟩
/-- spec/03. -/
def CE_SLACK_CLR : Reg := ⟨"CE_SLACK_CLR", 0x40080028, [(48, 0x800)],
  [⟨0, 1, .wo, 0x0, (some 0), none⟩], fun _ => 0⟩
/-- spec/03. -/
def CE_LATE_CNT : Reg := ⟨"CE_LATE_CNT", 0x4008002C, [(48, 0x800)],
  [⟨0, 32, .cnt, 0x0, (some 0), none⟩], fun _ => 0⟩
/-- spec/03. -/
def CE_CYC_CNT : Reg := ⟨"CE_CYC_CNT", 0x40080030, [(48, 0x800)],
  [⟨0, 32, .ro, 0x0, (some 0), none⟩], fun _ => 0⟩
/-- spec/03. -/
def CE_PACE : Reg := ⟨"CE_PACE", 0x40080034, [(48, 0x800)],
  [⟨0, 16, .ro, 0x0, (some 0), none⟩], fun _ => 0⟩
/-- spec/03. -/
def CE_DIRTY_HW : Reg := ⟨"CE_DIRTY_HW", 0x40080038, [(48, 0x800)],
  [⟨0, 12, .ro, 0x0, (some 0), none⟩], fun _ => 0⟩
/-- spec/03. -/
def CE_FREEZE_EST : Reg := ⟨"CE_FREEZE_EST", 0x4008003C, [(48, 0x800)],
  [⟨0, 32, .ro, 0x0, (some 0), none⟩], fun _ => 0⟩
/-- spec/03. -/
def CE_ERR : Reg := ⟨"CE_ERR", 0x40080040, [(48, 0x800)],
  [⟨0, 1, .w1c, 0x0, (some 0), none⟩, ⟨1, 1, .w1c, 0x0, (some 0), none⟩, ⟨2, 1, .w1c, 0x0, (some 0), none⟩, ⟨3, 1, .w1c, 0x0, (some 0), none⟩, ⟨4, 1, .w1c, 0x0, (some 0), none⟩, ⟨5, 1, .w1c, 0x0, (some 0), none⟩], fun _ => 0⟩
/-- spec/03. -/
def CE_ERR_EN : Reg := ⟨"CE_ERR_EN", 0x40080044, [(48, 0x800)],
  [⟨0, 6, .rw, 0x0, (some 0), none⟩], fun _ => 0⟩
/-- spec/03. -/
def CE_SPL_MISS_A : Reg := ⟨"CE_SPL_MISS_A", 0x40080048, [(48, 0x800)],
  [⟨0, 32, .ro, 0x0, (some 0), none⟩], fun _ => 0⟩
/-- spec/03. -/
def CE_SPL_MISS_B : Reg := ⟨"CE_SPL_MISS_B", 0x4008004C, [(48, 0x800)],
  [⟨0, 32, .ro, 0x0, (some 0), none⟩], fun _ => 0⟩
/-- spec/03. -/
def CE_LAST_FREEZE : Reg := ⟨"CE_LAST_FREEZE", 0x40080050, [(48, 0x800)],
  [⟨0, 32, .ro, 0x0, (some 0), none⟩], fun _ => 0⟩
/-- spec/03. -/
def CE_WAITMASK : Reg := ⟨"CE_WAITMASK", 0x40080054, [(48, 0x800)],
  [⟨0, 32, .ro, 0x0, (some 0), none⟩], fun _ => 0⟩
/-- spec/03. -/
def CE_ECC_CNT : Reg := ⟨"CE_ECC_CNT", 0x40080058, [(48, 0x800)],
  [⟨0, 32, .ro, 0x0, (some 0), none⟩], fun _ => 0⟩
/-- spec/03. -/
def CE_GSTAT : Reg := ⟨"CE_GSTAT", 0x4009A000, [],
  [⟨0, 1, .ro, 0x0, (some 0), none⟩], fun _ => 0⟩
/-- spec/03. -/
def CE_MAP : Reg := ⟨"CE_MAP", 0x4009A100, [(48, 0x4)],
  [⟨0, 6, .ro, 0x0, (some 0), none⟩], fun i => i⟩
/-- spec/03. -/
def CE_SPARES : Reg := ⟨"CE_SPARES", 0x4009A200, [],
  [⟨0, 3, .ro, 0x4, (some 4), none⟩, ⟨4, 3, .ro, 0x0, (some 0), none⟩], fun _ => 0⟩
/-- spec/03. -/
def CE_MIG_CTL : Reg := ⟨"CE_MIG_CTL", 0x4009A210, [],
  [⟨0, 6, .rw, 0x0, (some 0), none⟩, ⟨12, 1, .w1s, 0x0, (some 0), none⟩, ⟨13, 1, .w1s, 0x0, (some 0), none⟩], fun _ => 0⟩
/-- spec/03. -/
def CE_MIG_STAT : Reg := ⟨"CE_MIG_STAT", 0x4009A214, [],
  [⟨0, 3, .ro, 0x0, (some 0), none⟩, ⟨8, 8, .ro, 0x0, (some 0), none⟩], fun _ => 0⟩
/-- spec/03. -/
def CE_MIG_LIMIT : Reg := ⟨"CE_MIG_LIMIT", 0x4009A218, [],
  [⟨0, 8, .rw, 0x40, (some 64), none⟩], fun _ => 0⟩
/-- spec/03. -/
def CE_LD_SEL : Reg := ⟨"CE_LD_SEL", 0x4009A300, [],
  [⟨0, 6, .rw, 0x0, (some 0), none⟩, ⟨8, 1, .rw, 0x0, (some 0), none⟩, ⟨9, 1, .w1s, 0x0, (some 0), none⟩], fun _ => 0⟩
/-- spec/03. -/
def CE_LD_ADDR : Reg := ⟨"CE_LD_ADDR", 0x4009A304, [],
  [⟨0, 12, .rw, 0x0, (some 0), none⟩], fun _ => 0⟩
/-- spec/03. -/
def CE_LD_DATA : Reg := ⟨"CE_LD_DATA", 0x4009A308, [],
  [⟨0, 32, .rw, 0x0, (some 0), none⟩], fun _ => 0⟩
/-- spec/03. -/
def CE_LD_STAT : Reg := ⟨"CE_LD_STAT", 0x4009A30C, [],
  [⟨0, 1, .ro, 0x0, (some 0), none⟩, ⟨1, 1, .w1c, 0x0, (some 0), none⟩], fun _ => 0⟩
/-- spec/03. -/
def CE_MQ_PORT : Reg := ⟨"CE_MQ_PORT", 0x4009A400, [(24, 0x4)],
  [⟨0, 2, .rw, 0x0, (some 0), none⟩, ⟨8, 5, .rw, 0x0, (some 0), none⟩, ⟨16, 1, .rw, 0x0, (some 0), none⟩, ⟨17, 1, .rw, 0x0, (some 0), none⟩], fun _ => 0⟩
/-- spec/03. -/
def CE_MQ_REF_BASE : Reg := ⟨"CE_MQ_REF_BASE", 0x4009A480, [],
  [⟨0, 32, .rw, 0x0, (some 0), none⟩], fun _ => 0⟩
/-- spec/03. -/
def CE_MQ_REF_LEN : Reg := ⟨"CE_MQ_REF_LEN", 0x4009A484, [],
  [⟨0, 22, .rw, 0x0, (some 0), none⟩], fun _ => 0⟩
/-- spec/03. -/
def CE_MQ_CAP_BASE : Reg := ⟨"CE_MQ_CAP_BASE", 0x4009A488, [],
  [⟨0, 32, .rw, 0x0, (some 0), none⟩], fun _ => 0⟩
/-- spec/03. -/
def CE_MQ_CAP_LEN : Reg := ⟨"CE_MQ_CAP_LEN", 0x4009A48C, [],
  [⟨0, 22, .rw, 0x0, (some 0), none⟩], fun _ => 0⟩
/-- spec/03. -/
def CE_MQ_START_IG : Reg := ⟨"CE_MQ_START_IG", 0x4009A490, [],
  [⟨0, 5, .rw, 0x0, (some 0), none⟩], fun _ => 0⟩
/-- spec/06. -/
def TB_CTL : Reg := ⟨"TB_CTL", 0x40050000, [],
  [⟨0, 1, .rw, 0x0, (some 0), none⟩, ⟨1, 1, .rw, 0x0, (some 0), none⟩, ⟨2, 1, .rw, 0x1, (some 1), none⟩], fun _ => 0⟩
/-- spec/06. -/
def TB_STAT : Reg := ⟨"TB_STAT", 0x40050004, [],
  [⟨0, 1, .ro, 0x0, (some 0), none⟩, ⟨1, 1, .ro, 0x0, (some 0), none⟩, ⟨2, 1, .ro, 0x0, (some 0), none⟩, ⟨3, 1, .ro, 0x0, (some 0), none⟩, ⟨4, 1, .ro, 0x0, (some 0), none⟩], fun _ => 0⟩
/-- spec/06. -/
def TB_EVT : Reg := ⟨"TB_EVT", 0x40050008, [],
  [⟨0, 1, .w1c, 0x0, (some 0), none⟩, ⟨1, 1, .w1c, 0x0, (some 0), none⟩, ⟨2, 1, .w1c, 0x0, (some 0), none⟩, ⟨3, 1, .w1c, 0x0, (some 0), none⟩, ⟨4, 1, .w1c, 0x0, (some 0), none⟩, ⟨5, 1, .w1c, 0x0, (some 0), none⟩, ⟨6, 1, .w1c, 0x0, (some 0), none⟩], fun _ => 0⟩
/-- spec/06. -/
def TB_EVT_EN : Reg := ⟨"TB_EVT_EN", 0x4005000C, [],
  [⟨0, 7, .rw, 0x0, (some 0), none⟩], fun _ => 0⟩
/-- spec/06. -/
def TB_SNAP : Reg := ⟨"TB_SNAP", 0x40050010, [],
  [⟨0, 1, .wo, 0x0, (some 0), none⟩], fun _ => 0⟩
/-- spec/06. -/
def TB_SNAP_SEQ : Reg := ⟨"TB_SNAP_SEQ", 0x40050014, [],
  [⟨0, 32, .ro, 0x0, (some 0), none⟩], fun _ => 0⟩
/-- spec/06. -/
def TB_SNAP_FRC_LO : Reg := ⟨"TB_SNAP_FRC_LO", 0x40050018, [],
  [⟨0, 32, .ro, 0x0, (some 0), none⟩], fun _ => 0⟩
/-- spec/06. -/
def TB_SNAP_FRC_HI : Reg := ⟨"TB_SNAP_FRC_HI", 0x4005001C, [],
  [⟨0, 32, .ro, 0x0, (some 0), none⟩], fun _ => 0⟩
/-- spec/06. -/
def TB_SNAP_D0_LO : Reg := ⟨"TB_SNAP_D0_LO", 0x40050020, [],
  [⟨0, 32, .ro, 0x0, (some 0), none⟩], fun _ => 0⟩
/-- spec/06. -/
def TB_SNAP_D0_HI : Reg := ⟨"TB_SNAP_D0_HI", 0x40050024, [],
  [⟨0, 32, .ro, 0x0, (some 0), none⟩], fun _ => 0⟩
/-- spec/06. -/
def TB_SNAP_D0_FRAC : Reg := ⟨"TB_SNAP_D0_FRAC", 0x40050028, [],
  [⟨0, 32, .ro, 0x0, (some 0), none⟩], fun _ => 0⟩
/-- spec/06. -/
def TB_SNAP_D1_LO : Reg := ⟨"TB_SNAP_D1_LO", 0x4005002C, [],
  [⟨0, 32, .ro, 0x0, (some 0), none⟩], fun _ => 0⟩
/-- spec/06. -/
def TB_SNAP_D1_HI : Reg := ⟨"TB_SNAP_D1_HI", 0x40050030, [],
  [⟨0, 32, .ro, 0x0, (some 0), none⟩], fun _ => 0⟩
/-- spec/06. -/
def TB_SNAP_D1_FRAC : Reg := ⟨"TB_SNAP_D1_FRAC", 0x40050034, [],
  [⟨0, 32, .ro, 0x0, (some 0), none⟩], fun _ => 0⟩
/-- spec/06. -/
def TB_FRC_LO : Reg := ⟨"TB_FRC_LO", 0x40050040, [],
  [⟨0, 32, .ro, 0x0, (some 0), none⟩], fun _ => 0⟩
/-- spec/06. -/
def TB_FRC_HI : Reg := ⟨"TB_FRC_HI", 0x40050044, [],
  [⟨0, 32, .ro, 0x0, (some 0), none⟩], fun _ => 0⟩
/-- spec/06. -/
def TB_ALT_DRIFT : Reg := ⟨"TB_ALT_DRIFT", 0x40050048, [],
  [⟨0, 32, .ro, 0x0, (some 0), none⟩], fun _ => 0⟩
/-- spec/06. -/
def TB_D_CTL : Reg := ⟨"TB_D_CTL", 0x40050100, [(2, 0x80)],
  [⟨0, 2, .rw, 0x0, (some 0), none⟩, ⟨4, 1, .w1s, 0x0, (some 0), none⟩], fun _ => 0⟩
/-- spec/06. -/
def TB_D_OFFS_LO : Reg := ⟨"TB_D_OFFS_LO", 0x40050104, [(2, 0x80)],
  [⟨0, 32, .rw, 0x0, (some 0), none⟩], fun _ => 0⟩
/-- spec/06. -/
def TB_D_OFFS_HI : Reg := ⟨"TB_D_OFFS_HI", 0x40050108, [(2, 0x80)],
  [⟨0, 32, .rw, 0x0, (some 0), none⟩], fun _ => 0⟩
/-- spec/06. -/
def TB_D_OFFS_FRAC : Reg := ⟨"TB_D_OFFS_FRAC", 0x4005010C, [(2, 0x80)],
  [⟨0, 32, .rw, 0x0, (some 0), none⟩], fun _ => 0⟩
/-- spec/06. -/
def TB_D_LOAD : Reg := ⟨"TB_D_LOAD", 0x40050110, [(2, 0x80)],
  [⟨0, 1, .wo, 0x0, (some 0), none⟩], fun _ => 0⟩
/-- spec/06. -/
def TB_D_ADJ : Reg := ⟨"TB_D_ADJ", 0x40050114, [(2, 0x80)],
  [⟨0, 32, .wo, 0x0, (some 0), none⟩], fun _ => 0⟩
/-- spec/06. -/
def TB_D_RATE : Reg := ⟨"TB_D_RATE", 0x40050118, [(2, 0x80)],
  [⟨0, 32, .rw, 0x0, (some 0), none⟩], fun _ => 0⟩
/-- spec/06. -/
def TB_D_MEAS : Reg := ⟨"TB_D_MEAS", 0x4005011C, [(2, 0x80)],
  [⟨0, 32, .wo, 0x0, (some 0), none⟩], fun _ => 0⟩
/-- spec/06. -/
def TB_D_KP : Reg := ⟨"TB_D_KP", 0x40050120, [(2, 0x80)],
  [⟨0, 16, .rw, 0x226, (some 550), none⟩, ⟨16, 5, .rw, 0x8, (some 8), none⟩], fun _ => 0⟩
/-- spec/06. -/
def TB_D_KI : Reg := ⟨"TB_D_KI", 0x40050124, [(2, 0x80)],
  [⟨0, 16, .rw, 0x37, (some 55), none⟩, ⟨16, 5, .rw, 0xb, (some 11), none⟩], fun _ => 0⟩
/-- spec/06. -/
def TB_D_STEP_THR : Reg := ⟨"TB_D_STEP_THR", 0x40050128, [(2, 0x80)],
  [⟨0, 24, .rw, 0x4e20, (some 20000), none⟩], fun _ => 0⟩
/-- spec/06. -/
def TB_D_RATE_MAX : Reg := ⟨"TB_D_RATE_MAX", 0x4005012C, [(2, 0x80)],
  [⟨0, 32, .rw, 0xd1b7176, (some 219902326), none⟩], fun _ => 0⟩
/-- spec/06. -/
def TB_D_INTEG : Reg := ⟨"TB_D_INTEG", 0x40050130, [(2, 0x80)],
  [⟨0, 32, .rw, 0x0, (some 0), none⟩], fun _ => 0⟩
/-- spec/06. -/
def TB_D_STAT : Reg := ⟨"TB_D_STAT", 0x40050134, [(2, 0x80)],
  [⟨0, 1, .ro, 0x0, (some 0), none⟩, ⟨1, 1, .ro, 0x0, (some 0), none⟩, ⟨2, 1, .w1c, 0x0, (some 0), none⟩, ⟨3, 1, .w1c, 0x0, (some 0), none⟩, ⟨4, 1, .w1c, 0x0, (some 0), none⟩, ⟨8, 8, .ro, 0x0, (some 0), none⟩], fun _ => 0⟩
/-- spec/06. -/
def TB_D_LASTE : Reg := ⟨"TB_D_LASTE", 0x40050138, [(2, 0x80)],
  [⟨0, 32, .ro, 0x0, (some 0), none⟩], fun _ => 0⟩
/-- spec/06. -/
def TB_D_LOCK_THR : Reg := ⟨"TB_D_LOCK_THR", 0x4005013C, [(2, 0x80)],
  [⟨0, 24, .rw, 0x64, (some 100), none⟩], fun _ => 0⟩
/-- spec/06. -/
def TB_WALK_CTL : Reg := ⟨"TB_WALK_CTL", 0x40050200, [],
  [⟨0, 1, .w1s, 0x0, (some 0), none⟩, ⟨1, 1, .rw, 0x0, (some 0), none⟩, ⟨8, 8, .rw, 0x64, (some 100), none⟩], fun _ => 0⟩
/-- spec/06. -/
def TB_WALK_STAT : Reg := ⟨"TB_WALK_STAT", 0x40050204, [],
  [⟨0, 1, .ro, 0x0, (some 0), none⟩, ⟨1, 1, .w1c, 0x0, (some 0), none⟩], fun _ => 0⟩
/-- spec/06. -/
def TB_WALK_REM : Reg := ⟨"TB_WALK_REM", 0x40050208, [],
  [⟨0, 32, .ro, 0x0, (some 0), none⟩], fun _ => 0⟩
/-- spec/06. -/
def TB_TSF_STAT : Reg := ⟨"TB_TSF_STAT", 0x40050300, [],
  [⟨0, 9, .ro, 0x0, (some 0), none⟩], fun _ => 0⟩
/-- spec/06. -/
def TB_TSF_W0 : Reg := ⟨"TB_TSF_W0", 0x40050304, [],
  [⟨0, 32, .ro, 0x0, (some 0), none⟩], fun _ => 0⟩
/-- spec/06. -/
def TB_TSF_W1 : Reg := ⟨"TB_TSF_W1", 0x40050308, [],
  [⟨0, 32, .ro, 0x0, (some 0), none⟩], fun _ => 0⟩
/-- spec/06. -/
def TB_TSF_W2 : Reg := ⟨"TB_TSF_W2", 0x4005030C, [],
  [⟨0, 32, .ro, 0x0, (some 0), none⟩], fun _ => 0⟩
/-- spec/06. -/
def TB_TSF_POP : Reg := ⟨"TB_TSF_POP", 0x40050310, [],
  [⟨0, 1, .wo, 0x0, (some 0), none⟩], fun _ => 0⟩
/-- spec/06. -/
def TB_TSF_OVF : Reg := ⟨"TB_TSF_OVF", 0x40050314, [],
  [⟨0, 32, .cnt, 0x0, (some 0), none⟩], fun _ => 0⟩
/-- spec/06. -/
def TB_PORT_CFG : Reg := ⟨"TB_PORT_CFG", 0x40050400, [(24, 0x4)],
  [⟨0, 1, .rw, 0x0, (some 0), none⟩, ⟨1, 1, .rw, 0x0, (some 0), none⟩, ⟨2, 1, .rw, 0x0, (some 0), none⟩, ⟨3, 1, .rw, 0x0, (some 0), none⟩], fun _ => 0⟩
/-- spec/06. -/
def TB_PORT_RXADJ : Reg := ⟨"TB_PORT_RXADJ", 0x40050480, [(24, 0x8)],
  [⟨0, 16, .rw, 0x0, (some 0), none⟩], fun _ => 0⟩
/-- spec/06. -/
def TB_PORT_TXADJ : Reg := ⟨"TB_PORT_TXADJ", 0x40050484, [(24, 0x8)],
  [⟨0, 16, .rw, 0x0, (some 0), none⟩], fun _ => 0⟩
/-- spec/06. -/
def TB_IG_CTL : Reg := ⟨"TB_IG_CTL", 0x40051000, [(32, 0x40)],
  [⟨0, 1, .rw, 0x0, (some 0), none⟩, ⟨1, 1, .rw, 0x0, (some 0), none⟩, ⟨2, 1, .rw, 0x0, (some 0), none⟩, ⟨3, 1, .rw, 0x0, (some 0), none⟩, ⟨4, 1, .rw, 0x0, (some 0), none⟩, ⟨5, 1, .w1s, 0x0, (some 0), none⟩], fun _ => 0⟩
/-- spec/06. -/
def TB_IG_START_LO : Reg := ⟨"TB_IG_START_LO", 0x40051004, [(32, 0x40)],
  [⟨0, 32, .rw, 0x0, (some 0), none⟩], fun _ => 0⟩
/-- spec/06. -/
def TB_IG_START_HI : Reg := ⟨"TB_IG_START_HI", 0x40051008, [(32, 0x40)],
  [⟨0, 32, .rw, 0x0, (some 0), none⟩], fun _ => 0⟩
/-- spec/06. -/
def TB_IG_PERIOD : Reg := ⟨"TB_IG_PERIOD", 0x4005100C, [(32, 0x40)],
  [⟨0, 32, .rw, 0x0, (some 0), none⟩], fun _ => 0⟩
/-- spec/06. -/
def TB_IG_PFRAC : Reg := ⟨"TB_IG_PFRAC", 0x40051010, [(32, 0x40)],
  [⟨0, 16, .rw, 0x0, (some 0), none⟩], fun _ => 0⟩
/-- spec/06. -/
def TB_IG_WIDTH : Reg := ⟨"TB_IG_WIDTH", 0x40051014, [(32, 0x40)],
  [⟨0, 24, .rw, 0x8, (some 8), none⟩], fun _ => 0⟩
/-- spec/06. -/
def TB_IG_NEXT_LO : Reg := ⟨"TB_IG_NEXT_LO", 0x40051018, [(32, 0x40)],
  [⟨0, 32, .ro, 0x0, (some 0), none⟩], fun _ => 0⟩
/-- spec/06. -/
def TB_IG_NEXT_HI : Reg := ⟨"TB_IG_NEXT_HI", 0x4005101C, [(32, 0x40)],
  [⟨0, 32, .ro, 0x0, (some 0), none⟩], fun _ => 0⟩
/-- spec/06. -/
def TB_IG_CNT : Reg := ⟨"TB_IG_CNT", 0x40051020, [(32, 0x40)],
  [⟨0, 32, .ro, 0x0, (some 0), none⟩], fun _ => 0⟩
/-- spec/06. -/
def TB_IG_SKIP : Reg := ⟨"TB_IG_SKIP", 0x40051024, [(32, 0x40)],
  [⟨0, 32, .cnt, 0x0, (some 0), none⟩], fun _ => 0⟩
/-- spec/06. -/
def TB_IG_STAT : Reg := ⟨"TB_IG_STAT", 0x40051028, [(32, 0x40)],
  [⟨0, 1, .ro, 0x0, (some 0), none⟩, ⟨1, 1, .w1c, 0x0, (some 0), none⟩], fun _ => 0⟩
/-- spec/08. -/
def MAC_CTL : Reg := ⟨"MAC_CTL", 0x40100000, [(24, 0x1000)],
  [⟨0, 2, .rw, 0x0, (some 0), none⟩, ⟨4, 3, .rw, 0x0, (some 0), none⟩, ⟨8, 1, .rw, 0x1, (some 1), none⟩, ⟨9, 1, .rw, 0x0, (some 0), none⟩, ⟨10, 1, .rw, 0x0, (some 0), none⟩, ⟨11, 2, .rw, 0x0, (some 0), none⟩, ⟨13, 1, .rw, 0x1, (some 1), none⟩, ⟨14, 1, .rw, 0x0, (some 0), none⟩, ⟨15, 1, .rw, 0x0, (some 0), none⟩, ⟨16, 1, .rw, 0x0, (some 0), none⟩], fun _ => 0⟩
/-- spec/08. -/
def MAC_STAT : Reg := ⟨"MAC_STAT", 0x40100004, [(24, 0x1000)],
  [⟨0, 1, .ro, 0x0, (some 0), none⟩, ⟨1, 3, .ro, 0x0, (some 0), none⟩, ⟨4, 1, .ro, 0x0, (some 0), none⟩, ⟨5, 1, .ro, 0x0, (some 0), none⟩, ⟨6, 1, .ro, 0x0, (some 0), none⟩], fun _ => 0⟩
/-- spec/08. -/
def MAC_MAXLEN : Reg := ⟨"MAC_MAXLEN", 0x40100008, [(24, 0x1000)],
  [⟨0, 14, .rw, 0x5f2, (some 1522), none⟩], fun _ => 0⟩
/-- spec/08. -/
def MAC_ADDR_LO : Reg := ⟨"MAC_ADDR_LO", 0x4010000C, [(24, 0x1000)],
  [⟨0, 32, .rw, 0x0, (some 0), none⟩], fun _ => 0⟩
/-- spec/08. -/
def MAC_ADDR_HI : Reg := ⟨"MAC_ADDR_HI", 0x40100010, [(24, 0x1000)],
  [⟨0, 16, .rw, 0x0, (some 0), none⟩], fun _ => 0⟩
/-- spec/08. -/
def MAC_PW : Reg := ⟨"MAC_PW", 0x40100014, [(24, 0x1000)],
  [⟨0, 10, .rw, 0x64, (some 100), none⟩, ⟨15, 1, .rw, 0x1, (some 1), none⟩, ⟨16, 10, .rw, 0x64, (some 100), none⟩], fun _ => 0⟩
/-- spec/08. -/
def MAC_EVT : Reg := ⟨"MAC_EVT", 0x40100018, [(24, 0x1000)],
  [⟨0, 1, .w1c, 0x0, (some 0), none⟩, ⟨1, 1, .w1c, 0x0, (some 0), none⟩, ⟨2, 1, .w1c, 0x0, (some 0), none⟩, ⟨3, 1, .w1c, 0x0, (some 0), none⟩, ⟨4, 1, .w1c, 0x0, (some 0), none⟩, ⟨5, 1, .w1c, 0x0, (some 0), none⟩], fun _ => 0⟩
/-- spec/08. -/
def MAC_EVT_EN : Reg := ⟨"MAC_EVT_EN", 0x4010001C, [(24, 0x1000)],
  [⟨0, 6, .rw, 0x0, (some 0), none⟩], fun _ => 0⟩
/-- spec/08. -/
def MAC_PFC : Reg := ⟨"MAC_PFC", 0x40100020, [(24, 0x1000)],
  [⟨0, 8, .rw, 0x0, (some 0), none⟩], fun _ => 0⟩
/-- spec/08. -/
def MAC_WAKE_CTL : Reg := ⟨"MAC_WAKE_CTL", 0x40100030, [(24, 0x1000)],
  [⟨0, 1, .rw, 0x0, (some 0), none⟩, ⟨8, 8, .rw, 0x0, (some 0), none⟩, ⟨16, 1, .rw, 0x0, (some 0), none⟩], fun _ => 0⟩
/-- spec/08. -/
def MAC_CNT : Reg := ⟨"MAC_CNT", 0x40100200, [(24, 0x1000), (15, 0x4)],
  [⟨0, 32, .cnt, 0x0, (some 0), none⟩], fun _ => 0⟩
/-- spec/08. -/
def MAC_WP_DATA : Reg := ⟨"MAC_WP_DATA", 0x40100400, [(24, 0x1000), (8, 0x100), (32, 0x4)],
  [⟨0, 32, .rw, 0x0, (some 0), none⟩], fun _ => 0⟩
/-- spec/08. -/
def MAC_WP_MASK : Reg := ⟨"MAC_WP_MASK", 0x40100480, [(24, 0x1000), (8, 0x100), (4, 0x4)],
  [⟨0, 32, .rw, 0x0, (some 0), none⟩], fun _ => 0⟩
/-- spec/08. -/
def MAC_WP_LEN : Reg := ⟨"MAC_WP_LEN", 0x40100490, [(24, 0x1000), (8, 0x100)],
  [⟨0, 8, .rw, 0x0, (some 0), none⟩], fun _ => 0⟩
/-- spec/08. -/
def SW_CTL : Reg := ⟨"SW_CTL", 0x400B0000, [],
  [⟨0, 1, .rw, 0x0, (some 0), none⟩, ⟨1, 1, .rw, 0x0, (some 0), none⟩], fun _ => 0⟩
/-- spec/08. -/
def SW_AGE : Reg := ⟨"SW_AGE", 0x400B0004, [],
  [⟨0, 20, .rw, 0x12c, (some 300), none⟩], fun _ => 0⟩
/-- spec/08. -/
def SW_RES_LIMIT : Reg := ⟨"SW_RES_LIMIT", 0x400B0008, [],
  [⟨0, 14, .rw, 0x3e8, (some 1000), none⟩], fun _ => 0⟩
/-- spec/08. -/
def SW_POOL_FREE : Reg := ⟨"SW_POOL_FREE", 0x400B000C, [],
  [⟨0, 16, .ro, 0x7a00, (some 31232), none⟩], fun _ => 0⟩
/-- spec/08. -/
def SW_LEARN_FAIL : Reg := ⟨"SW_LEARN_FAIL", 0x400B0010, [],
  [⟨0, 32, .cnt, 0x0, (some 0), none⟩], fun _ => 0⟩
/-- spec/08. -/
def SW_P_CFG : Reg := ⟨"SW_P_CFG", 0x400B1000, [(30, 0x200)],
  [⟨0, 12, .rw, 0x1, (some 1), none⟩, ⟨12, 3, .rw, 0x0, (some 0), none⟩, ⟨15, 1, .rw, 0x1, (some 1), none⟩, ⟨16, 1, .rw, 0x0, (some 0), none⟩, ⟨17, 1, .rw, 0x0, (some 0), none⟩, ⟨24, 8, .rw, 0x0, (some 0), none⟩], fun _ => 0⟩
/-- spec/08. -/
def SW_P_PCPMAP : Reg := ⟨"SW_P_PCPMAP", 0x400B1004, [(30, 0x200)],
  [⟨0, 24, .rw, 0xfac688, (some 16434824), none⟩], fun _ => 0⟩
/-- spec/08. -/
def SW_P_CT_OUT : Reg := ⟨"SW_P_CT_OUT", 0x400B1008, [(30, 0x200)],
  [⟨0, 8, .rw, 0x0, (some 0), none⟩], fun _ => 0⟩
/-- spec/08. -/
def SW_P_LIM : Reg := ⟨"SW_P_LIM", 0x400B1010, [(30, 0x200), (8, 0x4)],
  [⟨0, 15, .rw, 0x400, (some 1024), none⟩], fun _ => 0⟩
/-- spec/08. -/
def SW_P_RSV : Reg := ⟨"SW_P_RSV", 0x400B1030, [(30, 0x200)],
  [⟨0, 12, .rw, 0x0, (some 0), none⟩], fun i => if 24 ≤ i then 256 else 0⟩
/-- spec/08. -/
def SW_P_PFC : Reg := ⟨"SW_P_PFC", 0x400B1034, [(30, 0x200)],
  [⟨0, 15, .rw, 0x200, (some 512), none⟩, ⟨16, 15, .rw, 0x180, (some 384), none⟩], fun _ => 0⟩
/-- spec/08. -/
def SW_P_QCNT : Reg := ⟨"SW_P_QCNT", 0x400B1040, [(30, 0x200), (8, 0x4)],
  [⟨0, 15, .ro, 0x0, (some 0), none⟩], fun _ => 0⟩
/-- spec/08. -/
def SW_P_OWN : Reg := ⟨"SW_P_OWN", 0x400B1060, [(30, 0x200), (4, 0x4)],
  [⟨0, 6, .rw, 0x0, (some 0), none⟩, ⟨7, 1, .rw, 0x0, (some 0), none⟩], fun _ => 0⟩
/-- spec/08. -/
def SW_P_DROP : Reg := ⟨"SW_P_DROP", 0x400B1080, [(30, 0x200), (11, 0x20), (8, 0x4)],
  [⟨0, 32, .cnt, 0x0, (some 0), none⟩], fun _ => 0⟩
/-- spec/08. -/
def SW_WRED_MIN : Reg := ⟨"SW_WRED_MIN", 0x400B6000, [(240, 0x20), (3, 0x4)],
  [⟨0, 15, .rw, 0x7fff, (some 32767), none⟩], fun _ => 0⟩
/-- spec/08. -/
def SW_WRED_MAX : Reg := ⟨"SW_WRED_MAX", 0x400B600C, [(240, 0x20), (3, 0x4)],
  [⟨0, 15, .rw, 0x7fff, (some 32767), none⟩], fun _ => 0⟩
/-- spec/08. -/
def SW_WRED_MAXP : Reg := ⟨"SW_WRED_MAXP", 0x400B6018, [(240, 0x20)],
  [⟨0, 24, .rw, 0x0, (some 0), none⟩], fun _ => 0⟩
/-- spec/08. -/
def SW_WRED : Reg := ⟨"SW_WRED", 0x400B601C, [(240, 0x20)],
  [⟨0, 4, .rw, 0x4, (some 4), none⟩], fun _ => 0⟩
/-- spec/08. -/
def SW_CBS : Reg := ⟨"SW_CBS", 0x400B8000, [(192, 0x8)],
  [⟨0, 24, .rw, 0x0, (some 0), none⟩, ⟨31, 1, .rw, 0x0, (some 0), none⟩], fun _ => 0⟩
/-- spec/08. -/
def SW_GCL_CTL : Reg := ⟨"SW_GCL_CTL", 0x400C0000, [(24, 0x2000)],
  [⟨0, 1, .rw, 0x0, (some 0), none⟩, ⟨1, 1, .rw, 0x0, (some 0), none⟩, ⟨2, 1, .w1s, 0x0, (some 0), none⟩], fun _ => 0⟩
/-- spec/08. -/
def SW_GCL_BASE_LO : Reg := ⟨"SW_GCL_BASE_LO", 0x400C0004, [(24, 0x2000)],
  [⟨0, 32, .rw, 0x0, (some 0), none⟩], fun _ => 0⟩
/-- spec/08. -/
def SW_GCL_BASE_HI : Reg := ⟨"SW_GCL_BASE_HI", 0x400C0008, [(24, 0x2000)],
  [⟨0, 32, .rw, 0x0, (some 0), none⟩], fun _ => 0⟩
/-- spec/08. -/
def SW_GCL_CYCLE : Reg := ⟨"SW_GCL_CYCLE", 0x400C000C, [(24, 0x2000)],
  [⟨0, 32, .rw, 0x0, (some 0), none⟩], fun _ => 0⟩
/-- spec/08. -/
def SW_GCL_LEN : Reg := ⟨"SW_GCL_LEN", 0x400C0010, [(24, 0x2000)],
  [⟨0, 9, .rw, 0x0, (some 0), none⟩], fun _ => 0⟩
/-- spec/08. -/
def SW_GCL_CHG_LO : Reg := ⟨"SW_GCL_CHG_LO", 0x400C0014, [(24, 0x2000)],
  [⟨0, 32, .rw, 0x0, (some 0), none⟩], fun _ => 0⟩
/-- spec/08. -/
def SW_GCL_CHG_HI : Reg := ⟨"SW_GCL_CHG_HI", 0x400C0018, [(24, 0x2000)],
  [⟨0, 32, .rw, 0x0, (some 0), none⟩], fun _ => 0⟩
/-- spec/08. -/
def SW_GCL_STAT : Reg := ⟨"SW_GCL_STAT", 0x400C001C, [(24, 0x2000)],
  [⟨0, 1, .ro, 0x0, (some 0), none⟩, ⟨1, 1, .ro, 0x0, (some 0), none⟩, ⟨8, 8, .ro, 0x0, (some 0), none⟩], fun _ => 0⟩
/-- spec/08. -/
def SW_GCL_A : Reg := ⟨"SW_GCL_A", 0x400C1000, [(24, 0x2000), (256, 0x8), (2, 0x4)],
  [⟨0, 32, .rw, 0x0, (some 0), none⟩], fun _ => 0⟩
/-- spec/08. -/
def SW_GCL_B : Reg := ⟨"SW_GCL_B", 0x400C1800, [(24, 0x2000), (256, 0x8), (2, 0x4)],
  [⟨0, 32, .rw, 0x0, (some 0), none⟩], fun _ => 0⟩
/-- spec/08. -/
def SW_IND_SEL : Reg := ⟨"SW_IND_SEL", 0x400F0000, [],
  [⟨0, 16, .rw, 0x0, (some 0), none⟩, ⟨16, 3, .rw, 0x0, (some 0), none⟩], fun _ => 0⟩
/-- spec/08. -/
def SW_IND_CMD : Reg := ⟨"SW_IND_CMD", 0x400F0004, [],
  [⟨0, 3, .wo, 0x0, (some 0), none⟩], fun _ => 0⟩
/-- spec/08. -/
def SW_IND_STAT : Reg := ⟨"SW_IND_STAT", 0x400F0008, [],
  [⟨0, 1, .ro, 0x0, (some 0), none⟩], fun _ => 0⟩
/-- spec/08. -/
def SW_IND_DATA : Reg := ⟨"SW_IND_DATA", 0x400F0010, [(8, 0x4)],
  [⟨0, 32, .rw, 0x0, (some 0), none⟩], fun _ => 0⟩
/-- spec/09. -/
def CAN_CTL : Reg := ⟨"CAN_CTL", 0x40120000, [(4, 0x4000)],
  [⟨0, 1, .rw, 0x0, (some 0), none⟩, ⟨1, 2, .rw, 0x0, (some 0), none⟩, ⟨3, 1, .rw, 0x0, (some 0), none⟩, ⟨4, 1, .rw, 0x0, (some 0), none⟩, ⟨5, 1, .rw, 0x0, (some 0), none⟩, ⟨6, 1, .rw, 0x0, (some 0), none⟩, ⟨7, 1, .rw, 0x0, (some 0), none⟩, ⟨8, 1, .w1s, 0x0, (some 0), none⟩, ⟨9, 1, .rw, 0x0, (some 0), none⟩, ⟨10, 1, .rw, 0x0, (some 0), none⟩, ⟨11, 1, .rw, 0x0, (some 0), none⟩, ⟨12, 6, .rw, 0x0, (some 0), none⟩], fun _ => 0⟩
/-- spec/09. -/
def CAN_STAT : Reg := ⟨"CAN_STAT", 0x40120004, [(4, 0x4000)],
  [⟨0, 2, .ro, 0x0, (some 0), none⟩, ⟨2, 1, .ro, 0x1, (some 1), none⟩, ⟨3, 1, .ro, 0x0, (some 0), none⟩], fun _ => 0⟩
/-- spec/09. -/
def CAN_ERRC : Reg := ⟨"CAN_ERRC", 0x40120008, [(4, 0x4000)],
  [⟨0, 8, .ro, 0x0, (some 0), none⟩, ⟨8, 8, .ro, 0x0, (some 0), none⟩], fun _ => 0⟩
/-- spec/09. -/
def CAN_NBT : Reg := ⟨"CAN_NBT", 0x4012000C, [(4, 0x4000)],
  [⟨0, 31, .rw, 0xf0f3e00, (some 252657152), none⟩], fun _ => 0⟩
/-- spec/09. -/
def CAN_DBT : Reg := ⟨"CAN_DBT", 0x40120010, [(4, 0x4000)],
  [⟨0, 28, .rw, 0x100, (some 256), none⟩], fun _ => 0⟩
/-- spec/09. -/
def CAN_TDC : Reg := ⟨"CAN_TDC", 0x40120014, [(4, 0x4000)],
  [⟨0, 1, .rw, 0x0, (some 0), none⟩, ⟨8, 7, .rw, 0x0, (some 0), none⟩], fun _ => 0⟩
/-- spec/09. -/
def CAN_PWM : Reg := ⟨"CAN_PWM", 0x40120018, [(4, 0x4000)],
  [⟨0, 22, .rw, 0x0, (some 0), none⟩], fun _ => 0⟩
/-- spec/09. -/
def CAN_EVT : Reg := ⟨"CAN_EVT", 0x40120020, [(4, 0x4000)],
  [⟨0, 8, .w1c, 0x0, (some 0), none⟩], fun _ => 0⟩
/-- spec/09. -/
def CAN_EVT_EN : Reg := ⟨"CAN_EVT_EN", 0x40120024, [(4, 0x4000)],
  [⟨0, 8, .rw, 0x0, (some 0), none⟩], fun _ => 0⟩
/-- spec/09. -/
def CAN_RXF_STAT : Reg := ⟨"CAN_RXF_STAT", 0x40120030, [(4, 0x4000)],
  [⟨0, 7, .ro, 0x0, (some 0), none⟩, ⟨16, 15, .ro, 0x4000, (some 16384), none⟩], fun _ => 0⟩
/-- spec/09. -/
def CAN_RX_OVF : Reg := ⟨"CAN_RX_OVF", 0x40120034, [(4, 0x4000)],
  [⟨0, 32, .cnt, 0x0, (some 0), none⟩], fun _ => 0⟩
/-- spec/09. -/
def CAN_RX_ID : Reg := ⟨"CAN_RX_ID", 0x40120040, [(4, 0x4000)],
  [⟨0, 32, .ro, 0x0, (some 0), none⟩], fun _ => 0⟩
/-- spec/09. -/
def CAN_RX_FMT : Reg := ⟨"CAN_RX_FMT", 0x40120044, [(4, 0x4000)],
  [⟨0, 32, .ro, 0x0, (some 0), none⟩], fun _ => 0⟩
/-- spec/09. -/
def CAN_RX_AF : Reg := ⟨"CAN_RX_AF", 0x40120048, [(4, 0x4000)],
  [⟨0, 32, .ro, 0x0, (some 0), none⟩], fun _ => 0⟩
/-- spec/09. -/
def CAN_RX_TS : Reg := ⟨"CAN_RX_TS", 0x4012004C, [(4, 0x4000)],
  [⟨0, 32, .ro, 0x0, (some 0), none⟩], fun _ => 0⟩
/-- spec/09. -/
def CAN_RX_INFO : Reg := ⟨"CAN_RX_INFO", 0x40120050, [(4, 0x4000)],
  [⟨0, 9, .ro, 0x0, (some 0), none⟩], fun _ => 0⟩
/-- spec/09. -/
def CAN_RX_POP : Reg := ⟨"CAN_RX_POP", 0x40120054, [(4, 0x4000)],
  [⟨0, 1, .wo, 0x0, (some 0), none⟩], fun _ => 0⟩
/-- spec/09. -/
def TXB_ID : Reg := ⟨"TXB_ID", 0x40120100, [(4, 0x4000), (3, 0x40)],
  [⟨0, 32, .rw, 0x0, (some 0), none⟩], fun _ => 0⟩
/-- spec/09. -/
def TXB_FMT : Reg := ⟨"TXB_FMT", 0x40120104, [(4, 0x4000), (3, 0x40)],
  [⟨0, 32, .rw, 0x0, (some 0), none⟩], fun _ => 0⟩
/-- spec/09. -/
def TXB_AF : Reg := ⟨"TXB_AF", 0x40120108, [(4, 0x4000), (3, 0x40)],
  [⟨0, 32, .rw, 0x0, (some 0), none⟩], fun _ => 0⟩
/-- spec/09. -/
def TXB_CTL : Reg := ⟨"TXB_CTL", 0x4012010C, [(4, 0x4000), (3, 0x40)],
  [⟨0, 1, .w1s, 0x0, (some 0), none⟩, ⟨1, 1, .w1s, 0x0, (some 0), none⟩, ⟨8, 8, .rw, 0x0, (some 0), none⟩, ⟨16, 1, .rw, 0x0, (some 0), none⟩, ⟨17, 1, .rw, 0x0, (some 0), none⟩, ⟨18, 5, .rw, 0x0, (some 0), none⟩], fun _ => 0⟩
/-- spec/09. -/
def TXB_STAT : Reg := ⟨"TXB_STAT", 0x40120110, [(4, 0x4000), (3, 0x40)],
  [⟨0, 3, .ro, 0x0, (some 0), none⟩, ⟨8, 8, .ro, 0x0, (some 0), none⟩, ⟨16, 1, .w1c, 0x0, (some 0), none⟩], fun _ => 0⟩
/-- spec/09. -/
def TXB_TS : Reg := ⟨"TXB_TS", 0x40120114, [(4, 0x4000), (3, 0x40)],
  [⟨0, 32, .ro, 0x0, (some 0), none⟩], fun _ => 0⟩
/-- spec/09. -/
def CAN_FLT : Reg := ⟨"CAN_FLT", 0x40120400, [(4, 0x4000), (128, 0x10), (3, 0x4)],
  [⟨0, 32, .rw, 0x0, (some 0), none⟩], fun _ => 0⟩
/-- spec/09. -/
def CAN_TT_CTL : Reg := ⟨"CAN_TT_CTL", 0x40120C00, [(4, 0x4000)],
  [⟨0, 10, .rw, 0x0, (some 0), none⟩], fun _ => 0⟩
/-- spec/09. -/
def CAN_TT_NTU : Reg := ⟨"CAN_TT_NTU", 0x40120C04, [(4, 0x4000)],
  [⟨0, 17, .rw, 0x3e8, (some 1000), none⟩], fun _ => 0⟩
/-- spec/09. -/
def CAN_TT_REF_ID : Reg := ⟨"CAN_TT_REF_ID", 0x40120C08, [(4, 0x4000)],
  [⟨0, 11, .rw, 0x0, (some 0), none⟩], fun _ => 0⟩
/-- spec/09. -/
def CAN_TT_RX_MARK : Reg := ⟨"CAN_TT_RX_MARK", 0x40120C0C, [(4, 0x4000)],
  [⟨0, 19, .ro, 0x0, (some 0), none⟩], fun _ => 0⟩
/-- spec/09. -/
def CAN_TT_RX_TS : Reg := ⟨"CAN_TT_RX_TS", 0x40120C10, [(4, 0x4000)],
  [⟨0, 32, .ro, 0x0, (some 0), none⟩], fun _ => 0⟩
/-- spec/09. -/
def CAN_TT_MISS : Reg := ⟨"CAN_TT_MISS", 0x40120C14, [(4, 0x4000)],
  [⟨0, 32, .cnt, 0x0, (some 0), none⟩], fun _ => 0⟩
/-- spec/09. -/
def CAN_RX_DATA : Reg := ⟨"CAN_RX_DATA", 0x40121000, [(4, 0x4000), (512, 0x4)],
  [⟨0, 32, .ro, 0x0, (some 0), none⟩], fun _ => 0⟩
/-- spec/09. -/
def CAN_TX_DATA : Reg := ⟨"CAN_TX_DATA", 0x40122000, [(4, 0x4000), (3, 0x800), (512, 0x4)],
  [⟨0, 32, .rw, 0x0, (some 0), none⟩], fun _ => 0⟩
/-- spec/10. -/
def FX_CTL : Reg := ⟨"FX_CTL", 0x40130000, [],
  [⟨0, 1, .rw, 0x0, none, none⟩, ⟨1, 1, .rw, 0x0, none, none⟩], fun _ => 0⟩
/-- spec/10. -/
def FX_STAT : Reg := ⟨"FX_STAT", 0x40130004, [],
  [⟨0, 1, .ro, 0x0, (some 0), none⟩, ⟨1, 1, .ro, 0x0, (some 0), none⟩, ⟨2, 1, .ro, 0x0, none, none⟩], fun _ => 0⟩
/-- spec/10. -/
def FX_HOLD_RELEASE : Reg := ⟨"FX_HOLD_RELEASE", 0x40130008, [],
  [⟨0, 1, .wo, 0x0, (some 0), none⟩], fun _ => 0⟩
/-- spec/10. -/
def FX_EVT : Reg := ⟨"FX_EVT", 0x40130010, [],
  [⟨0, 11, .w1c, 0x0, (some 0), none⟩], fun _ => 0⟩
/-- spec/10. -/
def FX_EVT_EN : Reg := ⟨"FX_EVT_EN", 0x40130014, [],
  [⟨0, 11, .rw, 0x0, (some 0), none⟩], fun _ => 0⟩
/-- spec/10. -/
def FX_EDGE_STAT : Reg := ⟨"FX_EDGE_STAT", 0x40130020, [],
  [⟨0, 9, .ro, 0x0, (some 0), none⟩], fun _ => 0⟩
/-- spec/10. -/
def FX_EDGE_W0 : Reg := ⟨"FX_EDGE_W0", 0x40130024, [],
  [⟨0, 7, .ro, 0x0, (some 0), none⟩], fun _ => 0⟩
/-- spec/10. -/
def FX_EDGE_W1 : Reg := ⟨"FX_EDGE_W1", 0x40130028, [],
  [⟨0, 32, .ro, 0x0, (some 0), none⟩], fun _ => 0⟩
/-- spec/10. -/
def FX_EDGE_POP : Reg := ⟨"FX_EDGE_POP", 0x4013002C, [],
  [⟨0, 1, .wo, 0x0, (some 0), none⟩], fun _ => 0⟩
/-- spec/10. -/
def FX_EDGE_OVF : Reg := ⟨"FX_EDGE_OVF", 0x40130030, [],
  [⟨0, 32, .cnt, 0x0, (some 0), none⟩], fun _ => 0⟩
/-- spec/10. -/
def FX_GRP_CTL : Reg := ⟨"FX_GRP_CTL", 0x40130100, [(2, 0x40)],
  [⟨0, 1, .rw, 0x0, none, none⟩, ⟨1, 1, .w1s, 0x0, (some 0), none⟩], fun _ => 0⟩
/-- spec/10. -/
def FX_GRP_STAT : Reg := ⟨"FX_GRP_STAT", 0x40130104, [(2, 0x40)],
  [⟨0, 1, .ro, 0x0, (some 0), none⟩, ⟨1, 1, .w1c, 0x0, (some 0), none⟩, ⟨2, 1, .ro, 0x0, (some 0), none⟩, ⟨3, 1, .w1c, 0x0, (some 0), none⟩, ⟨4, 1, .ro, 0x0, (some 0), none⟩], fun _ => 0⟩
/-- spec/10. -/
def FX_GRP_VLP : Reg := ⟨"FX_GRP_VLP", 0x40130108, [(2, 0x40)],
  [⟨0, 16, .ro, 0x0, (some 0), none⟩], fun _ => 0⟩
/-- spec/10. -/
def FX_GRP_ILP : Reg := ⟨"FX_GRP_ILP", 0x4013010C, [(2, 0x40)],
  [⟨0, 16, .ro, 0x0, (some 0), none⟩], fun _ => 0⟩
/-- spec/10. -/
def FX_GRP_LOCKS : Reg := ⟨"FX_GRP_LOCKS", 0x40130110, [(2, 0x40)],
  [⟨0, 32, .cnt, 0x0, (some 0), none⟩], fun _ => 0⟩
/-- spec/10. -/
def FX_CH_CFG : Reg := ⟨"FX_CH_CFG", 0x40131000, [(32, 0x80)],
  [⟨0, 3, .rw, 0x0, none, none⟩, ⟨3, 1, .rw, 0x0, none, none⟩, ⟨4, 1, .rw, 0x0, none, none⟩, ⟨5, 3, .rw, 0x0, none, none⟩, ⟨8, 1, .rw, 0x0, none, none⟩, ⟨9, 1, .rw, 0x0, none, none⟩, ⟨10, 1, .rw, 0x0, none, none⟩, ⟨11, 1, .rw, 0x0, none, none⟩, ⟨12, 1, .rw, 0x0, none, none⟩, ⟨13, 1, .rw, 0x0, none, none⟩, ⟨14, 5, .rw, 0x0, none, none⟩, ⟨19, 2, .rw, 0x0, none, none⟩, ⟨21, 1, .rw, 0x0, none, none⟩], fun _ => 0⟩
/-- spec/10. -/
def FX_CH_CMD : Reg := ⟨"FX_CH_CMD", 0x40131004, [(32, 0x80)],
  [⟨0, 1, .rw, 0x0, none, none⟩, ⟨1, 1, .w1s, 0x0, (some 0), none⟩], fun _ => 0⟩
/-- spec/10. -/
def FX_CH_STAT : Reg := ⟨"FX_CH_STAT", 0x40131008, [(32, 0x80)],
  [⟨0, 5, .ro, 0x0, (some 0), none⟩], fun _ => 0⟩
/-- spec/10. -/
def FX_CH_DIAG : Reg := ⟨"FX_CH_DIAG", 0x4013100C, [(32, 0x80)],
  [⟨0, 7, .w1c, 0x0, (some 0), none⟩, ⟨8, 5, .ro, 0x0, (some 0), none⟩], fun _ => 0⟩
/-- spec/10. -/
def FX_CH_DIAG_EN : Reg := ⟨"FX_CH_DIAG_EN", 0x40131010, [(32, 0x80)],
  [⟨0, 7, .rw, 0x0, none, none⟩], fun _ => 0⟩
/-- spec/10. -/
def FX_CH_TS : Reg := ⟨"FX_CH_TS", 0x40131014, [(32, 0x80)],
  [⟨0, 32, .ro, 0x0, (some 0), none⟩], fun _ => 0⟩
/-- spec/10. -/
def FX_CH_CUR : Reg := ⟨"FX_CH_CUR", 0x40131018, [(32, 0x80)],
  [⟨0, 16, .ro, 0x0, (some 0), none⟩], fun _ => 0⟩
/-- spec/10. -/
def FX_CH_SEG : Reg := ⟨"FX_CH_SEG", 0x4013101C, [(32, 0x80)],
  [⟨0, 9, .ro, 0xff, none, none⟩], fun _ => 0⟩
/-- spec/10. -/
def FX_CH_RSEG : Reg := ⟨"FX_CH_RSEG", 0x40131020, [(32, 0x80), (9, 0x4)],
  [⟨0, 16, .ro, 0x0, (some 0), none⟩], fun _ => 0⟩
/-- spec/10. -/
def FX_CH_SCH_CTL : Reg := ⟨"FX_CH_SCH_CTL", 0x40131050, [(32, 0x80), (4, 0x8)],
  [⟨0, 9, .rw, 0x0, (some 0), none⟩, ⟨9, 3, .ro, 0x0, (some 0), none⟩], fun _ => 0⟩
/-- spec/10. -/
def FX_CH_SCH_TIME : Reg := ⟨"FX_CH_SCH_TIME", 0x40131054, [(32, 0x80), (4, 0x8)],
  [⟨0, 32, .rw, 0x0, (some 0), none⟩], fun _ => 0⟩
/-- spec/10. -/
def FX_CH_EDGES : Reg := ⟨"FX_CH_EDGES", 0x40131070, [(32, 0x80)],
  [⟨0, 32, .cnt, 0x0, (some 0), none⟩], fun _ => 0⟩
/-- spec/10. -/
def FX_CH_OVLCNT : Reg := ⟨"FX_CH_OVLCNT", 0x40131074, [(32, 0x80)],
  [⟨0, 32, .cnt, 0x0, (some 0), none⟩], fun _ => 0⟩
/-- spec/10. -/
def PWR_PD_CTL : Reg := ⟨"PWR_PD_CTL", 0x40170800, [],
  [⟨0, 1, .rw, 0x0, none, none⟩], fun _ => 0⟩
/-- spec/10. -/
def PWR_PD_STAT : Reg := ⟨"PWR_PD_STAT", 0x40170804, [],
  [⟨0, 4, .ro, 0x4, none, none⟩, ⟨4, 4, .ro, 0x0, none, none⟩, ⟨8, 3, .ro, 0x0, none, none⟩, ⟨11, 1, .ro, 0x0, none, none⟩, ⟨12, 1, .ro, 0x0, none, none⟩], fun _ => 0⟩
/-- spec/10. -/
def PWR_PD_VIN : Reg := ⟨"PWR_PD_VIN", 0x40170808, [],
  [⟨0, 16, .ro, 0x0, (some 0), none⟩], fun _ => 0⟩
/-- spec/11. -/
def RASP_START : Reg := ⟨"RASP_START", 0x400A0000, [],
  [⟨0, 16, .rw, 0x0, (some 0), none⟩, ⟨16, 5, .rw, 0x0, (some 0), none⟩, ⟨21, 1, .rw, 0x0, (some 0), none⟩, ⟨24, 1, .w1s, 0x0, (some 0), none⟩], fun _ => 0⟩
/-- spec/11. -/
def RASP_START_STAT : Reg := ⟨"RASP_START_STAT", 0x400A0004, [],
  [⟨0, 1, .ro, 0x0, (some 0), none⟩, ⟨1, 1, .w1c, 0x0, (some 0), none⟩], fun _ => 0⟩
/-- spec/11. -/
def RASP_EVT : Reg := ⟨"RASP_EVT", 0x400A0010, [],
  [⟨0, 16, .ro, 0x0, (some 0), none⟩], fun _ => 0⟩
/-- spec/11. -/
def RASP_TW_SEL : Reg := ⟨"RASP_TW_SEL", 0x400A0020, [],
  [⟨0, 4, .rw, 0x0, (some 0), none⟩, ⟨4, 1, .rw, 0x0, (some 0), none⟩, ⟨8, 9, .rw, 0x0, (some 0), none⟩], fun _ => 0⟩
/-- spec/11. -/
def RASP_TW_DATA : Reg := ⟨"RASP_TW_DATA", 0x400A0024, [],
  [⟨0, 32, .rw, 0x0, (some 0), none⟩], fun _ => 0⟩
/-- spec/11. -/
def RASP_U_CTL : Reg := ⟨"RASP_U_CTL", 0x400A0100, [(16, 0x40)],
  [⟨0, 1, .rw, 0x0, (some 0), none⟩, ⟨1, 1, .ro, 0x0, (some 0), none⟩, ⟨2, 1, .w1s, 0x0, (some 0), none⟩, ⟨3, 5, .rw, 0x0, (some 0), none⟩, ⟨8, 6, .rw, 0x0, (some 0), none⟩, ⟨14, 1, .rw, 0x0, (some 0), none⟩], fun _ => 0⟩
/-- spec/11. -/
def RASP_U_DIV : Reg := ⟨"RASP_U_DIV", 0x400A0104, [(16, 0x40)],
  [⟨0, 24, .rw, 0x100, (some 256), none⟩], fun _ => 0⟩
/-- spec/11. -/
def RASP_U_ISEL : Reg := ⟨"RASP_U_ISEL", 0x400A0108, [(16, 0x40)],
  [⟨0, 31, .rw, 0x46464646, (some 1179010630), none⟩], fun _ => 0⟩
/-- spec/11. -/
def RASP_U_OMAP : Reg := ⟨"RASP_U_OMAP", 0x400A010C, [(16, 0x40)],
  [⟨0, 30, .rw, 0x0, (some 0), none⟩], fun _ => 0⟩
/-- spec/11. -/
def RASP_U_CFG : Reg := ⟨"RASP_U_CFG", 0x400A0110, [(16, 0x40)],
  [⟨0, 6, .rw, 0x20, (some 32), none⟩, ⟨8, 5, .rw, 0x0, (some 0), none⟩, ⟨13, 1, .rw, 0x0, (some 0), none⟩, ⟨16, 4, .rw, 0x0, (some 0), none⟩], fun _ => 0⟩
/-- spec/11. -/
def RASP_U_STAT : Reg := ⟨"RASP_U_STAT", 0x400A0114, [(16, 0x40)],
  [⟨0, 24, .ro, 0x0, (some 0), none⟩], fun _ => 0⟩
/-- spec/11. -/
def RASP_U_SR : Reg := ⟨"RASP_U_SR", 0x400A0118, [(16, 0x40)],
  [⟨0, 32, .ro, 0x0, (some 0), none⟩], fun _ => 0⟩
/-- spec/11. -/
def RASP_U_CNT : Reg := ⟨"RASP_U_CNT", 0x400A011C, [(16, 0x40)],
  [⟨0, 16, .ro, 0x0, (some 0), none⟩], fun _ => 0⟩
/-- spec/11. -/
def RASP_U_INJ : Reg := ⟨"RASP_U_INJ", 0x400A0120, [(16, 0x40)],
  [⟨0, 32, .wo, 0x0, (some 0), none⟩], fun _ => 0⟩
/-- spec/11. -/
def RASP_U_PULL : Reg := ⟨"RASP_U_PULL", 0x400A0124, [(16, 0x40)],
  [⟨0, 32, .wo, 0x0, (some 0), none⟩], fun _ => 0⟩
/-- spec/11. -/
def RASP_U_PUSH : Reg := ⟨"RASP_U_PUSH", 0x400A0128, [(16, 0x40)],
  [⟨0, 32, .ro, 0x0, (some 0), none⟩], fun _ => 0⟩
/-- spec/11. -/
def RASP_U_EVT : Reg := ⟨"RASP_U_EVT", 0x400A012C, [(16, 0x40)],
  [⟨0, 3, .w1c, 0x0, (some 0), none⟩], fun _ => 0⟩
/-- spec/11. -/
def RASP_U_EVT_EN : Reg := ⟨"RASP_U_EVT_EN", 0x400A0130, [(16, 0x40)],
  [⟨0, 3, .rw, 0x0, (some 0), none⟩], fun _ => 0⟩
/-- spec/11. -/
def RASP_U_STEPS : Reg := ⟨"RASP_U_STEPS", 0x400A0134, [(16, 0x40)],
  [⟨0, 32, .ro, 0x0, (some 0), none⟩], fun _ => 0⟩
/-- spec/11. -/
def GPIO_PIN : Reg := ⟨"GPIO_PIN", 0x400A1000, [(64, 0x4)],
  [⟨0, 1, .rw, 0x0, none, none⟩, ⟨1, 1, .rw, 0x0, none, none⟩, ⟨2, 2, .rw, 0x1, none, none⟩, ⟨4, 5, .rw, 0x0, (some 0), none⟩, ⟨16, 1, .ro, 0x0, (some 0), none⟩], fun _ => 0⟩
/-- spec/12. -/
def HMB_DATA : Reg := ⟨"HMB_DATA", 0x40020000, [(16, 0x10)],
  [⟨0, 32, .rw, 0x0, (some 0), none⟩], fun _ => 0⟩
/-- spec/12. -/
def HMB_ACK : Reg := ⟨"HMB_ACK", 0x40020004, [(16, 0x10)],
  [⟨0, 32, .rw, 0x0, (some 0), none⟩], fun _ => 0⟩
/-- spec/12. -/
def HMB_STAT : Reg := ⟨"HMB_STAT", 0x40020008, [(16, 0x10)],
  [⟨0, 1, .ro, 0x0, (some 0), none⟩, ⟨1, 1, .ro, 0x0, (some 0), none⟩, ⟨2, 1, .w1c, 0x0, (some 0), none⟩, ⟨8, 8, .ro, 0x0, (some 0), none⟩], fun _ => 0⟩
/-- spec/12. -/
def HMB_REJ : Reg := ⟨"HMB_REJ", 0x4002000C, [(16, 0x10)],
  [⟨0, 32, .cnt, 0x0, (some 0), none⟩], fun _ => 0⟩
/-- spec/12. -/
def AMB_DATA : Reg := ⟨"AMB_DATA", 0x40020100, [(16, 0x10)],
  [⟨0, 32, .rw, 0x0, (some 0), none⟩], fun _ => 0⟩
/-- spec/12. -/
def AMB_ACK : Reg := ⟨"AMB_ACK", 0x40020104, [(16, 0x10)],
  [⟨0, 32, .rw, 0x0, (some 0), none⟩], fun _ => 0⟩
/-- spec/12. -/
def AMB_STAT : Reg := ⟨"AMB_STAT", 0x40020108, [(16, 0x10)],
  [⟨0, 1, .ro, 0x0, (some 0), none⟩, ⟨1, 1, .ro, 0x0, (some 0), none⟩, ⟨8, 8, .ro, 0x0, (some 0), none⟩], fun _ => 0⟩
/-- spec/12. -/
def HDB_SET : Reg := ⟨"HDB_SET", 0x40020200, [],
  [⟨0, 32, .w1s, 0x0, (some 0), none⟩], fun _ => 0⟩
/-- spec/12. -/
def HDB_CLR : Reg := ⟨"HDB_CLR", 0x40020204, [],
  [⟨0, 32, .w1c, 0x0, (some 0), none⟩], fun _ => 0⟩
/-- spec/12. -/
def HDB_MASK : Reg := ⟨"HDB_MASK", 0x40020208, [],
  [⟨0, 32, .rw, 0x0, (some 0), (some 0)⟩], fun _ => 0⟩
/-- spec/12. -/
def ADB_SET : Reg := ⟨"ADB_SET", 0x40020210, [],
  [⟨0, 32, .w1s, 0x0, (some 0), none⟩], fun _ => 0⟩
/-- spec/12. -/
def ADB_CLR : Reg := ⟨"ADB_CLR", 0x40020214, [],
  [⟨0, 32, .w1c, 0x0, (some 0), none⟩], fun _ => 0⟩
/-- spec/12. -/
def ADB_MASK : Reg := ⟨"ADB_MASK", 0x40020218, [],
  [⟨0, 32, .rw, 0x0, (some 0), none⟩], fun _ => 0⟩
/-- spec/12. -/
def MBX_HEVT_EN : Reg := ⟨"MBX_HEVT_EN", 0x40020220, [],
  [⟨0, 32, .rw, 0x0, (some 0), none⟩], fun _ => 0⟩
/-- spec/12. -/
def MBX_REJ_EN : Reg := ⟨"MBX_REJ_EN", 0x40020224, [],
  [⟨0, 16, .rw, 0x0, (some 0), none⟩], fun _ => 0⟩
/-- spec/12. -/
def MBX_AEVT_EN : Reg := ⟨"MBX_AEVT_EN", 0x40020228, [],
  [⟨0, 32, .rw, 0x0, (some 0), (some 0)⟩], fun _ => 0⟩
/-- spec/12. -/
def HIF_STAT : Reg := ⟨"HIF_STAT", 0x40160000, [],
  [⟨0, 1, .ro, 0x0, (some 0), none⟩, ⟨1, 1, .ro, 0x0, (some 0), none⟩, ⟨2, 2, .ro, 0x0, (some 0), none⟩, ⟨4, 3, .ro, 0x0, (some 0), none⟩, ⟨7, 1, .ro, 0x0, (some 0), none⟩, ⟨8, 1, .ro, 0x1, (some 1), none⟩], fun _ => 0⟩
/-- spec/12. -/
def HIF_ERR : Reg := ⟨"HIF_ERR", 0x40160004, [],
  [⟨0, 5, .w1c, 0x0, (some 0), none⟩], fun _ => 0⟩
/-- spec/12. -/
def HIF_EVT : Reg := ⟨"HIF_EVT", 0x40160008, [],
  [⟨0, 1, .w1c, 0x0, (some 0), none⟩], fun _ => 0⟩
/-- spec/12. -/
def HIF_ERR_EN : Reg := ⟨"HIF_ERR_EN", 0x4016000C, [],
  [⟨0, 6, .rw, 0x0, (some 0), none⟩], fun _ => 0⟩
/-- spec/12. -/
def HIF_CPL_TO : Reg := ⟨"HIF_CPL_TO", 0x40160010, [],
  [⟨0, 10, .rw, 0x32, (some 50), none⟩], fun _ => 0⟩
/-- spec/12. -/
def HIF_TAGS : Reg := ⟨"HIF_TAGS", 0x40160014, [],
  [⟨0, 9, .ro, 0x0, (some 0), none⟩], fun _ => 0⟩
/-- spec/12. -/
def HIF_SPI_LAST : Reg := ⟨"HIF_SPI_LAST", 0x40160018, [],
  [⟨0, 8, .ro, 0x0, (some 0), none⟩, ⟨8, 6, .ro, 0x0, (some 0), none⟩], fun _ => 0⟩
/-- spec/12. -/
def HIF_PCI_ID : Reg := ⟨"HIF_PCI_ID", 0x4016001C, [],
  [⟨0, 24, .ro, 0xb00960, (some 11536736), none⟩], fun _ => 0⟩
/-- spec/12. -/
def HIF_PCI_SUBID : Reg := ⟨"HIF_PCI_SUBID", 0x40160020, [],
  [⟨0, 32, .ro, 0x9601eb4, (some 157294260), none⟩], fun _ => 0⟩
/-- spec/12. -/
def HIF_CHT_CTL : Reg := ⟨"HIF_CHT_CTL", 0x40160100, [],
  [⟨0, 1, .rw, 0x0, (some 0), none⟩, ⟨1, 1, .rw, 0x0, (some 0), none⟩, ⟨2, 1, .rw, 0x1, (some 1), none⟩], fun _ => 0⟩
/-- spec/12. -/
def HIF_CHT_BASE_LO : Reg := ⟨"HIF_CHT_BASE_LO", 0x40160104, [],
  [⟨0, 32, .rw, 0x0, (some 0), none⟩], fun _ => 0⟩
/-- spec/12. -/
def HIF_CHT_BASE_HI : Reg := ⟨"HIF_CHT_BASE_HI", 0x40160108, [],
  [⟨0, 32, .rw, 0x0, (some 0), none⟩], fun _ => 0⟩
/-- spec/12. -/
def HIF_CHT_N : Reg := ⟨"HIF_CHT_N", 0x4016010C, [],
  [⟨0, 13, .rw, 0x1000, (some 4096), none⟩], fun _ => 0⟩
/-- spec/12. -/
def HIF_CHC_STAT : Reg := ⟨"HIF_CHC_STAT", 0x40160110, [],
  [⟨0, 9, .ro, 0x0, (some 0), (some 0)⟩, ⟨16, 9, .ro, 0x0, (some 0), (some 0)⟩], fun _ => 0⟩
/-- spec/12. -/
def HIF_CHC_HIT : Reg := ⟨"HIF_CHC_HIT", 0x40160114, [],
  [⟨0, 32, .cnt, 0x0, (some 0), (some 0)⟩], fun _ => 0⟩
/-- spec/12. -/
def HIF_CHC_MISS : Reg := ⟨"HIF_CHC_MISS", 0x40160118, [],
  [⟨0, 32, .cnt, 0x0, (some 0), (some 0)⟩], fun _ => 0⟩
/-- spec/12. -/
def HIF_CHC_STALE : Reg := ⟨"HIF_CHC_STALE", 0x4016011C, [],
  [⟨0, 32, .cnt, 0x0, (some 0), none⟩], fun _ => 0⟩
/-- spec/14. -/
def DMA_CTL : Reg := ⟨"DMA_CTL", 0x40030000, [],
  [⟨0, 1, .rw, 0x0, (some 0), none⟩], fun _ => 0⟩
/-- spec/14. -/
def DMA_STAT : Reg := ⟨"DMA_STAT", 0x40030004, [],
  [⟨0, 9, .ro, 0x0, (some 0), none⟩], fun _ => 0⟩
/-- spec/14. -/
def DMA_EVT_SUM0 : Reg := ⟨"DMA_EVT_SUM0", 0x40030010, [],
  [⟨0, 32, .ro, 0x0, (some 0), none⟩], fun _ => 0⟩
/-- spec/14. -/
def DMA_EVT_SUM1 : Reg := ⟨"DMA_EVT_SUM1", 0x40030014, [],
  [⟨0, 32, .ro, 0x0, (some 0), none⟩], fun _ => 0⟩
/-- spec/14. -/
def DQ_CTL : Reg := ⟨"DQ_CTL", 0x40031000, [(64, 0x80)],
  [⟨0, 1, .rw, 0x0, (some 0), none⟩, ⟨1, 1, .rw, 0x0, (some 0), none⟩, ⟨2, 2, .rw, 0x0, (some 0), none⟩, ⟨4, 2, .rw, 0x0, (some 0), none⟩, ⟨6, 1, .rw, 0x0, (some 0), none⟩, ⟨7, 1, .w1s, 0x0, (some 0), none⟩, ⟨8, 4, .rw, 0x0, (some 0), none⟩, ⟨12, 1, .rw, 0x0, (some 0), none⟩, ⟨13, 1, .rw, 0x0, (some 0), none⟩, ⟨14, 1, .rw, 0x0, (some 0), none⟩], fun _ => 0⟩
/-- spec/14. -/
def DQ_RING_LO : Reg := ⟨"DQ_RING_LO", 0x40031004, [(64, 0x80)],
  [⟨0, 32, .rw, 0x0, (some 0), none⟩], fun _ => 0⟩
/-- spec/14. -/
def DQ_RING_HI : Reg := ⟨"DQ_RING_HI", 0x40031008, [(64, 0x80)],
  [⟨0, 32, .rw, 0x0, (some 0), none⟩], fun _ => 0⟩
/-- spec/14. -/
def DQ_SIZE : Reg := ⟨"DQ_SIZE", 0x4003100C, [(64, 0x80)],
  [⟨0, 13, .rw, 0x1, (some 1), none⟩], fun _ => 0⟩
/-- spec/14. -/
def DQ_HEAD : Reg := ⟨"DQ_HEAD", 0x40031010, [(64, 0x80)],
  [⟨0, 12, .rw, 0x0, (some 0), none⟩], fun _ => 0⟩
/-- spec/14. -/
def DQ_DB : Reg := ⟨"DQ_DB", 0x40031014, [(64, 0x80)],
  [⟨0, 1, .wo, 0x0, (some 0), none⟩], fun _ => 0⟩
/-- spec/14. -/
def DQ_TRIG : Reg := ⟨"DQ_TRIG", 0x40031018, [(64, 0x80)],
  [⟨0, 2, .rw, 0x0, (some 0), none⟩, ⟨2, 8, .rw, 0x0, (some 0), none⟩], fun _ => 0⟩
/-- spec/14. -/
def DQ_PULSE : Reg := ⟨"DQ_PULSE", 0x4003101C, [(64, 0x80)],
  [⟨0, 2, .rw, 0x0, (some 0), none⟩, ⟨4, 6, .rw, 0x0, (some 0), none⟩], fun _ => 0⟩
/-- spec/14. -/
def DQ_OWN : Reg := ⟨"DQ_OWN", 0x40031020, [(64, 0x80)],
  [⟨0, 6, .rw, 0x0, (some 0), none⟩, ⟨6, 1, .rw, 0x0, (some 0), none⟩], fun _ => 0⟩
/-- spec/14. -/
def DQ_STAT : Reg := ⟨"DQ_STAT", 0x40031024, [(64, 0x80)],
  [⟨0, 3, .ro, 0x0, (some 0), none⟩, ⟨3, 1, .ro, 0x1, (some 1), none⟩, ⟨4, 1, .ro, 0x0, (some 0), none⟩, ⟨8, 4, .ro, 0x0, (some 0), none⟩, ⟨12, 1, .w1c, 0x0, (some 0), none⟩], fun _ => 0⟩
/-- spec/14. -/
def DQ_EVT : Reg := ⟨"DQ_EVT", 0x40031028, [(64, 0x80)],
  [⟨0, 5, .w1c, 0x0, (some 0), none⟩], fun _ => 0⟩
/-- spec/14. -/
def DQ_EVT_EN : Reg := ⟨"DQ_EVT_EN", 0x4003102C, [(64, 0x80)],
  [⟨0, 5, .rw, 0x0, (some 0), none⟩], fun _ => 0⟩
/-- spec/14. -/
def DQ_DONE_CNT : Reg := ⟨"DQ_DONE_CNT", 0x40031030, [(64, 0x80)],
  [⟨0, 32, .cnt, 0x0, (some 0), none⟩], fun _ => 0⟩
/-- spec/14. -/
def DQ_TRIG_MISS : Reg := ⟨"DQ_TRIG_MISS", 0x40031034, [(64, 0x80)],
  [⟨0, 32, .cnt, 0x0, (some 0), none⟩], fun _ => 0⟩
/-- spec/14. -/
def DQ_RQ_LO : Reg := ⟨"DQ_RQ_LO", 0x40031038, [(64, 0x80)],
  [⟨0, 32, .rw, 0x0, (some 0), none⟩], fun _ => 0⟩
/-- spec/14. -/
def DQ_RQ_HI : Reg := ⟨"DQ_RQ_HI", 0x4003103C, [(64, 0x80)],
  [⟨0, 32, .rw, 0x0, (some 0), none⟩], fun _ => 0⟩
/-- spec/14. -/
def DQ_RQ_SIZE : Reg := ⟨"DQ_RQ_SIZE", 0x40031040, [(64, 0x80)],
  [⟨0, 13, .rw, 0x1, (some 1), none⟩], fun _ => 0⟩
/-- spec/14. -/
def DQ_RQ_HEAD : Reg := ⟨"DQ_RQ_HEAD", 0x40031044, [(64, 0x80)],
  [⟨0, 12, .ro, 0x0, (some 0), none⟩], fun _ => 0⟩
/-- spec/14. -/
def DQ_RQ_TAIL : Reg := ⟨"DQ_RQ_TAIL", 0x40031048, [(64, 0x80)],
  [⟨0, 12, .rw, 0x0, (some 0), none⟩], fun _ => 0⟩
/-- spec/14. -/
def DQ_RQ_LOST : Reg := ⟨"DQ_RQ_LOST", 0x4003104C, [(64, 0x80)],
  [⟨0, 32, .cnt, 0x0, (some 0), none⟩], fun _ => 0⟩
/-- spec/15. -/
def EVH_SRC_CFG : Reg := ⟨"EVH_SRC_CFG", 0x40010000, [(512, 0x4)],
  [⟨0, 3, .rw, 0x0, (some 0), none⟩, ⟨3, 1, .ro, 0x0, (some 0), none⟩, ⟨4, 6, .rw, 0x0, (some 0), none⟩, ⟨16, 1, .ro, 0x0, (some 0), none⟩, ⟨17, 2, .ro, 0x0, (some 0), none⟩, ⟨19, 1, .ro, 0x0, (some 0), none⟩], fun i => defaultTarget i + 8 * (if isLevelSource i then 1 else 0)⟩
/-- spec/15. -/
def EVH_MASK : Reg := ⟨"EVH_MASK", 0x40010800, [(16, 0x4)],
  [⟨0, 32, .rw, 0xffffffff, (some 4294967295), none⟩], fun _ => 0⟩
/-- spec/15. -/
def EVH_MASK_FENCE : Reg := ⟨"EVH_MASK_FENCE", 0x40010840, [],
  [⟨0, 32, .ro, 0x0, (some 0), none⟩], fun _ => 0⟩
/-- spec/15. -/
def EVH_SWSET : Reg := ⟨"EVH_SWSET", 0x40010850, [],
  [⟨0, 6, .wo, 0x0, (some 0), none⟩], fun _ => 0⟩
/-- spec/15. -/
def EVH_REMOTE : Reg := ⟨"EVH_REMOTE", 0x40010860, [],
  [⟨0, 3, .rw, 0x0, (some 0), none⟩], fun _ => 0⟩
/-- spec/15. -/
def EVH_T_PEND : Reg := ⟨"EVH_T_PEND", 0x40011000, [(8, 0x100), (16, 0x4)],
  [⟨0, 32, .ro, 0x0, (some 0), none⟩], fun _ => 0⟩
/-- spec/15. -/
def EVH_T_SUMMARY : Reg := ⟨"EVH_T_SUMMARY", 0x40011040, [(8, 0x100)],
  [⟨0, 16, .ro, 0x0, (some 0), none⟩], fun _ => 0⟩
/-- spec/15. -/
def EVH_T_CLAIM : Reg := ⟨"EVH_T_CLAIM", 0x40011044, [(8, 0x100)],
  [⟨0, 9, .rw, 0x0, (some 0), none⟩, ⟨16, 1, .ro, 0x0, (some 0), none⟩, ⟨17, 1, .ro, 0x0, (some 0), none⟩], fun _ => 0⟩
/-- spec/15. -/
def EVH_T_EOI : Reg := ⟨"EVH_T_EOI", 0x40011048, [(8, 0x100)],
  [⟨0, 9, .wo, 0x0, (some 0), none⟩], fun _ => 0⟩
/-- spec/15. -/
def EVH_T_CTL : Reg := ⟨"EVH_T_CTL", 0x4001104C, [(8, 0x100)],
  [⟨0, 1, .rw, 0x1, (some 1), none⟩, ⟨1, 1, .rw, 0x0, (some 0), none⟩, ⟨2, 3, .rw, 0x0, (some 0), none⟩, ⟨16, 16, .rw, 0x64, (some 100), none⟩], fun _ => 0⟩
/-- spec/15. -/
def EVH_T_STAT : Reg := ⟨"EVH_T_STAT", 0x40011050, [(8, 0x100)],
  [⟨0, 1, .ro, 0x0, (some 0), none⟩, ⟨1, 1, .w1c, 0x0, (some 0), none⟩], fun _ => 0⟩
/-- spec/15. -/
def EVH_T_FBCNT : Reg := ⟨"EVH_T_FBCNT", 0x40011054, [(8, 0x100)],
  [⟨0, 32, .cnt, 0x0, (some 0), none⟩], fun _ => 0⟩
/-- spec/16. -/
def MEM_CTL : Reg := ⟨"MEM_CTL", 0x40040000, [],
  [⟨0, 1, .rw, 0x1, (some 1), none⟩, ⟨1, 1, .rw, 0x1, (some 1), none⟩], fun _ => 0⟩
/-- spec/16. -/
def MEM_STAT : Reg := ⟨"MEM_STAT", 0x40040004, [],
  [⟨0, 1, .ro, 0x0, (some 0), none⟩, ⟨1, 1, .ro, 0x0, (some 0), none⟩], fun _ => 0⟩
/-- spec/16. -/
def MEM_SCRUB_PASS : Reg := ⟨"MEM_SCRUB_PASS", 0x40040008, [],
  [⟨0, 32, .ro, 0x0, (some 0), none⟩], fun _ => 0⟩
/-- spec/16. -/
def MEM_EVT : Reg := ⟨"MEM_EVT", 0x40040010, [],
  [⟨0, 6, .w1c, 0x0, (some 0), none⟩], fun _ => 0⟩
/-- spec/16. -/
def MEM_EVT_EN : Reg := ⟨"MEM_EVT_EN", 0x40040014, [],
  [⟨0, 6, .rw, 0x0, (some 0), none⟩], fun _ => 0⟩
/-- spec/16. -/
def MEM_UE_ADDR : Reg := ⟨"MEM_UE_ADDR", 0x40040018, [],
  [⟨0, 23, .ro, 0x0, (some 0), none⟩], fun _ => 0⟩
/-- spec/16. -/
def MEM_SPARES : Reg := ⟨"MEM_SPARES", 0x40040020, [],
  [⟨0, 4, .ro, 0x8, (some 8), none⟩, ⟨8, 4, .ro, 0x0, (some 0), none⟩], fun _ => 0⟩
/-- spec/16. -/
def MEM_REMAP_CTL : Reg := ⟨"MEM_REMAP_CTL", 0x40040030, [],
  [⟨0, 7, .rw, 0x0, (some 0), none⟩, ⟨8, 1, .w1s, 0x0, (some 0), none⟩], fun _ => 0⟩
/-- spec/16. -/
def MEM_REMAP_STAT : Reg := ⟨"MEM_REMAP_STAT", 0x40040034, [],
  [⟨0, 2, .ro, 0x0, (some 0), none⟩, ⟨16, 15, .ro, 0x0, (some 0), none⟩], fun _ => 0⟩
/-- spec/16. -/
def MEM_SEC_STAT : Reg := ⟨"MEM_SEC_STAT", 0x40040040, [],
  [⟨0, 1, .ro, 0x0, (some 0), none⟩, ⟨1, 1, .ro, 0x0, (some 0), none⟩, ⟨16, 16, .ro, 0x0, none, none⟩], fun _ => 0⟩
/-- spec/16. -/
def MEM_MAP : Reg := ⟨"MEM_MAP", 0x40040100, [(96, 0x4)],
  [⟨0, 7, .ro, 0x0, (some 0), none⟩, ⟨8, 3, .ro, 0x0, (some 0), none⟩], fun i => i + 256 * slotUse i⟩
/-- spec/16. -/
def MEM_BK_PWR : Reg := ⟨"MEM_BK_PWR", 0x40041000, [(96, 0x20)],
  [⟨0, 2, .rw, 0x0, (some 0), none⟩], fun i => if 88 ≤ i then 1 else 0⟩
/-- spec/16. -/
def MEM_BK_STAT : Reg := ⟨"MEM_BK_STAT", 0x40041004, [(96, 0x20)],
  [⟨0, 2, .ro, 0x0, (some 0), none⟩, ⟨2, 1, .ro, 0x0, (some 0), none⟩, ⟨3, 1, .ro, 0x0, (some 0), none⟩, ⟨4, 1, .ro, 0x0, (some 0), none⟩, ⟨5, 1, .ro, 0x0, (some 0), none⟩], fun i => if 88 ≤ i then 1 else 0⟩
/-- spec/16. -/
def MEM_BK_CE : Reg := ⟨"MEM_BK_CE", 0x40041008, [(96, 0x20)],
  [⟨0, 32, .cnt, 0x0, (some 0), none⟩], fun _ => 0⟩
/-- spec/16. -/
def MEM_BK_UE : Reg := ⟨"MEM_BK_UE", 0x4004100C, [(96, 0x20)],
  [⟨0, 32, .cnt, 0x0, (some 0), none⟩], fun _ => 0⟩
/-- spec/16. -/
def MEM_BK_TEST : Reg := ⟨"MEM_BK_TEST", 0x40041010, [(96, 0x20)],
  [⟨0, 9, .ro, 0x0, (some 0), none⟩, ⟨16, 1, .w1c, 0x0, (some 0), none⟩, ⟨24, 8, .ro, 0x0, (some 0), none⟩], fun _ => 0⟩
/-- spec/16. -/
def MEM_BK_SCRUB : Reg := ⟨"MEM_BK_SCRUB", 0x40041014, [(96, 0x20)],
  [⟨0, 15, .ro, 0x0, (some 0), none⟩], fun _ => 0⟩
/-- spec/17. -/
def RST_CAUSE : Reg := ⟨"RST_CAUSE", 0x40000000, [],
  [⟨0, 10, .w1c, 0x1, none, none⟩], fun _ => 0⟩
/-- spec/17. -/
def RST_STAT : Reg := ⟨"RST_STAT", 0x40000004, [],
  [⟨0, 2, .ro, 0x0, none, none⟩, ⟨2, 1, .ro, 0x0, none, none⟩, ⟨3, 1, .ro, 0x1, none, none⟩, ⟨4, 1, .ro, 0x0, none, none⟩, ⟨5, 1, .ro, 0x0, (some 0), none⟩, ⟨6, 1, .ro, 0x0, (some 0), none⟩, ⟨7, 1, .ro, 0x0, (some 0), none⟩, ⟨8, 1, .ro, 0x0, (some 0), none⟩, ⟨9, 1, .ro, 0x0, (some 0), none⟩], fun _ => 0⟩
/-- spec/17. -/
def RST_CTL : Reg := ⟨"RST_CTL", 0x40000008, [],
  [⟨0, 1, .rw, 0x0, (some 0), none⟩], fun _ => 0⟩
/-- spec/17. -/
def RST_AWD_CTL : Reg := ⟨"RST_AWD_CTL", 0x40000010, [],
  [⟨0, 1, .rwl, 0x0, (some 0), (some 0)⟩, ⟨16, 10, .rwl, 0x0, (some 0), (some 0)⟩], fun _ => 0⟩
/-- spec/17. -/
def RST_AWD_KICK : Reg := ⟨"RST_AWD_KICK", 0x40000014, [],
  [⟨0, 1, .wo, 0x0, (some 0), (some 0)⟩], fun _ => 0⟩
/-- spec/17. -/
def RST_AWD_LEFT : Reg := ⟨"RST_AWD_LEFT", 0x40000018, [],
  [⟨0, 10, .ro, 0x0, (some 0), (some 0)⟩], fun _ => 0⟩
/-- spec/17. -/
def RST_BLK_CTL : Reg := ⟨"RST_BLK_CTL", 0x40000020, [],
  [⟨0, 8, .rw, 0x0, (some 0), none⟩, ⟨8, 4, .rw, 0x0, (some 0), none⟩, ⟨16, 1, .w1s, 0x0, (some 0), none⟩], fun _ => 0⟩
/-- spec/17. -/
def RST_BLK_STAT : Reg := ⟨"RST_BLK_STAT", 0x40000024, [],
  [⟨0, 1, .ro, 0x0, (some 0), none⟩, ⟨1, 1, .w1c, 0x0, (some 0), none⟩], fun _ => 0⟩
/-- spec/17. -/
def RST_IDLE_CE_LO : Reg := ⟨"RST_IDLE_CE_LO", 0x40000030, [],
  [⟨0, 32, .ro, 0xffffffff, (some 4294967295), none⟩], fun _ => 0⟩
/-- spec/17. -/
def RST_IDLE_CE_HI : Reg := ⟨"RST_IDLE_CE_HI", 0x40000034, [],
  [⟨0, 32, .ro, 0xffff, (some 65535), none⟩], fun _ => 0⟩
/-- spec/17. -/
def RST_IDLE_MAC : Reg := ⟨"RST_IDLE_MAC", 0x40000038, [],
  [⟨0, 24, .ro, 0xffffff, (some 16777215), none⟩], fun _ => 0⟩
/-- spec/17. -/
def RST_IDLE_MISC : Reg := ⟨"RST_IDLE_MISC", 0x4000003C, [],
  [⟨0, 4, .ro, 0xf, (some 15), none⟩, ⟨16, 16, .ro, 0xffff, (some 65535), none⟩], fun _ => 0⟩
/-- spec/17. -/
def RST_IDLE_DQ_LO : Reg := ⟨"RST_IDLE_DQ_LO", 0x40000040, [],
  [⟨0, 32, .ro, 0xffffffff, (some 4294967295), none⟩], fun _ => 0⟩
/-- spec/17. -/
def RST_IDLE_DQ_HI : Reg := ⟨"RST_IDLE_DQ_HI", 0x40000044, [],
  [⟨0, 32, .ro, 0xffffffff, (some 4294967295), none⟩], fun _ => 0⟩
/-- spec/17. -/
def RST_CNT_SYS : Reg := ⟨"RST_CNT_SYS", 0x40000060, [],
  [⟨0, 16, .ro, 0x0, none, none⟩], fun _ => 0⟩
/-- spec/17. -/
def RST_CNT_CORE : Reg := ⟨"RST_CNT_CORE", 0x40000064, [],
  [⟨0, 16, .ro, 0x0, (some 0), none⟩], fun _ => 0⟩
/-- spec/17. -/
def RST_BOOT_TIME : Reg := ⟨"RST_BOOT_TIME", 0x40000068, [],
  [⟨0, 32, .ro, 0x0, (some 0), (some 0)⟩], fun _ => 0⟩
/-- spec/17. -/
def RST_HBOOT_LEN : Reg := ⟨"RST_HBOOT_LEN", 0x40000070, [],
  [⟨0, 24, .rw, 0x0, (some 0), (some 0)⟩], fun _ => 0⟩
/-- spec/17. -/
def RST_OPT : Reg := ⟨"RST_OPT", 0x40000100, [(16, 0x4)],
  [⟨0, 32, .ro, 0x0, (some 0), none⟩], fun _ => 0⟩
/-- spec/18. -/
def SEC_STAT : Reg := ⟨"SEC_STAT", 0x40180000, [],
  [⟨0, 3, .ro, 0x0, (some 0), none⟩, ⟨3, 1, .ro, 0x0, none, none⟩, ⟨4, 1, .ro, 0x0, none, none⟩, ⟨5, 1, .ro, 0x0, none, none⟩, ⟨6, 1, .ro, 0x0, (some 0), none⟩, ⟨7, 1, .ro, 0x0, (some 0), none⟩, ⟨8, 1, .ro, 0x0, (some 0), none⟩, ⟨9, 1, .ro, 0x0, (some 0), none⟩, ⟨10, 1, .ro, 0x0, (some 0), none⟩], fun _ => 0⟩
/-- spec/18. -/
def SEC_LC_CTR : Reg := ⟨"SEC_LC_CTR", 0x40180004, [],
  [⟨0, 9, .ro, 0x0, (some 0), none⟩], fun _ => 0⟩
/-- spec/18. -/
def SEC_KEYS : Reg := ⟨"SEC_KEYS", 0x40180008, [],
  [⟨0, 1, .ro, 0x0, (some 0), none⟩, ⟨1, 4, .ro, 0x0, (some 0), none⟩, ⟨5, 4, .ro, 0x0, (some 0), none⟩], fun _ => 0⟩
/-- spec/18. -/
def SEC_TAMPER : Reg := ⟨"SEC_TAMPER", 0x4018000C, [],
  [⟨0, 4, .ro, 0x0, none, none⟩], fun _ => 0⟩
/-- spec/18. -/
def SEC_TAMPER_CNT : Reg := ⟨"SEC_TAMPER_CNT", 0x40180010, [],
  [⟨0, 8, .ro, 0x0, none, none⟩], fun _ => 0⟩
/-- spec/18. -/
def SEC_FW_STAT : Reg := ⟨"SEC_FW_STAT", 0x40180014, [],
  [⟨0, 1, .ro, 0x0, (some 0), none⟩, ⟨1, 2, .ro, 0x0, (some 0), none⟩], fun _ => 0⟩
/-- spec/18. -/
def SEC_FW_ADDR : Reg := ⟨"SEC_FW_ADDR", 0x40180018, [],
  [⟨0, 32, .ro, 0x0, (some 0), none⟩], fun _ => 0⟩
/-- spec/18. -/
def SEC_DEVID : Reg := ⟨"SEC_DEVID", 0x40180020, [(4, 0x4)],
  [⟨0, 32, .ro, 0x0, (some 0), none⟩], fun _ => 0⟩
/-- spec/18. -/
def SEC_DIK_PUB : Reg := ⟨"SEC_DIK_PUB", 0x40180040, [(16, 0x4)],
  [⟨0, 32, .ro, 0x0, (some 0), none⟩], fun _ => 0⟩
/-- spec/18. -/
def SEC_CHAIN : Reg := ⟨"SEC_CHAIN", 0x40180080, [(16, 0x4)],
  [⟨0, 32, .ro, 0x0, (some 0), none⟩], fun _ => 0⟩
/-- spec/18. -/
def SEC_LOG_N : Reg := ⟨"SEC_LOG_N", 0x401800C0, [],
  [⟨0, 8, .ro, 0x0, (some 0), none⟩], fun _ => 0⟩
/-- spec/18. -/
def SEC_FW_R_BASE : Reg := ⟨"SEC_FW_R_BASE", 0x40180100, [(16, 0x10)],
  [⟨0, 32, .ro, 0x0, (some 0), none⟩], fun _ => 0⟩
/-- spec/18. -/
def SEC_FW_R_LIMIT : Reg := ⟨"SEC_FW_R_LIMIT", 0x40180104, [(16, 0x10)],
  [⟨0, 32, .ro, 0x0, (some 0), none⟩], fun _ => 0⟩
/-- spec/18. -/
def SEC_FW_R_PERM : Reg := ⟨"SEC_FW_R_PERM", 0x40180108, [(16, 0x10)],
  [⟨0, 8, .ro, 0x0, (some 0), none⟩, ⟨31, 1, .ro, 0x0, (some 0), none⟩], fun _ => 0⟩
/-- spec/18. -/
def SEC_FW_DEFAULT : Reg := ⟨"SEC_FW_DEFAULT", 0x40180200, [],
  [⟨0, 8, .ro, 0x55, (some 85), none⟩], fun _ => 0⟩
/-- spec/19. -/
def PAT_CTL : Reg := ⟨"PAT_CTL", 0x40150000, [],
  [⟨0, 1, .rw, 0x1, (some 1), none⟩, ⟨1, 1, .ro, 0x0, (some 0), none⟩], fun _ => 0⟩
/-- spec/19. -/
def PAT_STAT : Reg := ⟨"PAT_STAT", 0x40150004, [],
  [⟨0, 1, .ro, 0x0, (some 0), none⟩, ⟨1, 1, .ro, 0x1, (some 1), none⟩, ⟨2, 1, .ro, 0x0, (some 0), none⟩, ⟨3, 1, .ro, 0x0, (some 0), (some 0)⟩], fun _ => 0⟩
/-- spec/19. -/
def PAT_EVT : Reg := ⟨"PAT_EVT", 0x40150008, [],
  [⟨0, 7, .w1c, 0x0, (some 0), none⟩], fun _ => 0⟩
/-- spec/19. -/
def PAT_EVT_EN : Reg := ⟨"PAT_EVT_EN", 0x4015000C, [],
  [⟨0, 7, .rw, 0x0, (some 0), none⟩], fun _ => 0⟩
/-- spec/19. -/
def PAT_SHARE : Reg := ⟨"PAT_SHARE", 0x40150010, [],
  [⟨0, 5, .rw, 0x4, (some 4), none⟩, ⟨8, 4, .rw, 0x2, (some 2), none⟩, ⟨16, 3, .rw, 0x1, (some 1), none⟩, ⟨24, 3, .rw, 0x1, (some 1), none⟩], fun _ => 0⟩
/-- spec/19. -/
def PAT_WEAR_FLOOR : Reg := ⟨"PAT_WEAR_FLOOR", 0x40150014, [],
  [⟨0, 32, .rw, 0x3ccd3ae1, (some 1020082913), none⟩], fun _ => 0⟩
/-- spec/19. -/
def PAT_LANE_FLOOR : Reg := ⟨"PAT_LANE_FLOOR", 0x40150018, [],
  [⟨0, 32, .rw, 0x33332ccd, (some 858991821), none⟩], fun _ => 0⟩
/-- spec/19. -/
def PAT_SEG_LIMIT : Reg := ⟨"PAT_SEG_LIMIT", 0x4015001C, [],
  [⟨0, 32, .rw, 0x499a5000, (some 1234849792), none⟩], fun _ => 0⟩
/-- spec/19. -/
def PAT_EPOCH : Reg := ⟨"PAT_EPOCH", 0x40150020, [],
  [⟨0, 11, .rw, 0x3c, (some 60), none⟩], fun _ => 0⟩
/-- spec/19. -/
def PAT_REQ_INT : Reg := ⟨"PAT_REQ_INT", 0x40150024, [],
  [⟨0, 16, .rw, 0x3c, (some 60), none⟩], fun _ => 0⟩
/-- spec/19. -/
def PAT_RETRY : Reg := ⟨"PAT_RETRY", 0x40150028, [],
  [⟨0, 16, .rw, 0xa, (some 10), none⟩], fun _ => 0⟩
/-- spec/19. -/
def PAT_TEL_BASE : Reg := ⟨"PAT_TEL_BASE", 0x40150030, [],
  [⟨0, 32, .rw, 0x21f0000, (some 35586048), none⟩], fun _ => 0⟩
/-- spec/19. -/
def PAT_TEL_N : Reg := ⟨"PAT_TEL_N", 0x40150034, [],
  [⟨0, 11, .rw, 0x40, (some 64), none⟩], fun _ => 0⟩
/-- spec/19. -/
def PAT_TEL_HEAD : Reg := ⟨"PAT_TEL_HEAD", 0x40150038, [],
  [⟨0, 10, .ro, 0x0, (some 0), none⟩], fun _ => 0⟩
/-- spec/19. -/
def PAT_TEL_SEQ : Reg := ⟨"PAT_TEL_SEQ", 0x4015003C, [],
  [⟨0, 32, .ro, 0x0, (some 0), none⟩], fun _ => 0⟩
/-- spec/19. -/
def PAT_TEL_CTL : Reg := ⟨"PAT_TEL_CTL", 0x40150040, [],
  [⟨0, 1, .rw, 0x1, (some 1), none⟩], fun _ => 0⟩
/-- spec/19. -/
def PAT_CE : Reg := ⟨"PAT_CE", 0x40150100, [(52, 0x4)],
  [⟨0, 16, .ro, 0x4000, (some 16384), none⟩, ⟨16, 2, .ro, 0x0, (some 0), none⟩, ⟨18, 2, .ro, 0x0, (some 0), none⟩, ⟨20, 1, .ro, 0x0, (some 0), none⟩], fun i => if 48 ≤ i then 0x100000 else 0⟩
/-- spec/19. -/
def PAT_AC : Reg := ⟨"PAT_AC", 0x40150200, [(5, 0x4)],
  [⟨0, 16, .ro, 0x4000, (some 16384), none⟩, ⟨16, 2, .ro, 0x0, (some 0), none⟩, ⟨18, 2, .ro, 0x0, (some 0), none⟩, ⟨20, 1, .ro, 0x0, (some 0), none⟩], fun i => if i = 4 then 0x100000 else 0⟩
/-- spec/19. -/
def PAT_BK : Reg := ⟨"PAT_BK", 0x40150300, [(96, 0x4)],
  [⟨0, 16, .ro, 0x4000, (some 16384), none⟩, ⟨16, 2, .ro, 0x0, (some 0), none⟩, ⟨18, 2, .ro, 0x0, (some 0), none⟩, ⟨20, 1, .ro, 0x0, (some 0), none⟩], fun i => if 88 ≤ i then 0x100000 else 0⟩
/-- spec/19. -/
def PAT_LK : Reg := ⟨"PAT_LK", 0x40150500, [(12, 0x4)],
  [⟨0, 16, .ro, 0x4000, (some 16384), none⟩, ⟨16, 2, .ro, 0x0, (some 0), none⟩, ⟨18, 2, .ro, 0x0, (some 0), none⟩, ⟨20, 1, .ro, 0x0, (some 0), none⟩], fun i => if i % 3 = 2 then 0x100000 else 0⟩
/-- spec/19. -/
def PAT_SG : Reg := ⟨"PAT_SG", 0x40150600, [(288, 0x4)],
  [⟨0, 16, .ro, 0x4000, (some 16384), none⟩, ⟨16, 2, .ro, 0x0, (some 0), none⟩, ⟨18, 2, .ro, 0x0, (some 0), none⟩, ⟨20, 1, .ro, 0x0, (some 0), none⟩], fun i => if i % 9 = 8 then 0x100000 else 0⟩
/-- spec/20. -/
def PK_CTL : Reg := ⟨"PK_CTL", 0x40140000, [],
  [⟨0, 1, .rw, 0x0, (some 0), none⟩, ⟨1, 1, .rw, 0x0, (some 0), none⟩, ⟨4, 4, .rw, 0x8, (some 8), none⟩], fun _ => 0⟩
/-- spec/20. -/
def PK_STAT : Reg := ⟨"PK_STAT", 0x40140004, [],
  [⟨0, 3, .ro, 0x0, (some 0), none⟩, ⟨3, 1, .ro, 0x0, (some 0), none⟩, ⟨8, 8, .ro, 0x0, (some 0), none⟩], fun _ => 0⟩
/-- spec/20. -/
def PK_EVT : Reg := ⟨"PK_EVT", 0x40140008, [],
  [⟨0, 6, .w1c, 0x0, (some 0), none⟩], fun _ => 0⟩
/-- spec/20. -/
def PK_EVT_EN : Reg := ⟨"PK_EVT_EN", 0x4014000C, [],
  [⟨0, 6, .rw, 0x0, (some 0), none⟩], fun _ => 0⟩
/-- spec/20. -/
def PK_DISCARD : Reg := ⟨"PK_DISCARD", 0x40140010, [],
  [⟨0, 32, .cnt, 0x0, (some 0), none⟩], fun _ => 0⟩
/-- spec/20. -/
def PK_LINKMAP : Reg := ⟨"PK_LINKMAP", 0x40140014, [],
  [⟨0, 32, .ro, 0x0, (some 0), none⟩], fun _ => 0⟩
/-- spec/20. -/
def PK_RA_ADDR : Reg := ⟨"PK_RA_ADDR", 0x40140400, [(2, 0x20)],
  [⟨0, 32, .rw, 0x0, (some 0), none⟩], fun _ => 0⟩
/-- spec/20. -/
def PK_RA_DATA : Reg := ⟨"PK_RA_DATA", 0x40140404, [(2, 0x20)],
  [⟨0, 32, .rw, 0x0, (some 0), none⟩], fun _ => 0⟩
/-- spec/20. -/
def PK_RA_CMD : Reg := ⟨"PK_RA_CMD", 0x40140408, [(2, 0x20)],
  [⟨0, 3, .rw, 0x0, (some 0), none⟩, ⟨4, 1, .rw, 0x0, (some 0), none⟩, ⟨8, 1, .w1s, 0x0, (some 0), none⟩], fun _ => 0⟩
/-- spec/20. -/
def PK_RA_STAT : Reg := ⟨"PK_RA_STAT", 0x4014040C, [(2, 0x20)],
  [⟨0, 1, .ro, 0x0, (some 0), none⟩, ⟨1, 3, .ro, 0x0, (some 0), none⟩], fun _ => 0⟩
/-- spec/20. -/
def PK_RD_LOCAL : Reg := ⟨"PK_RD_LOCAL", 0x40140500, [(4, 0x20)],
  [⟨0, 32, .rw, 0x0, (some 0), none⟩], fun _ => 0⟩
/-- spec/20. -/
def PK_RD_REMOTE : Reg := ⟨"PK_RD_REMOTE", 0x40140504, [(4, 0x20)],
  [⟨0, 32, .rw, 0x0, (some 0), none⟩], fun _ => 0⟩
/-- spec/20. -/
def PK_RD_LEN : Reg := ⟨"PK_RD_LEN", 0x40140508, [(4, 0x20)],
  [⟨0, 24, .rw, 0x0, (some 0), none⟩], fun _ => 0⟩
/-- spec/20. -/
def PK_RD_CTL : Reg := ⟨"PK_RD_CTL", 0x4014050C, [(4, 0x20)],
  [⟨0, 3, .rw, 0x0, (some 0), none⟩, ⟨4, 1, .rw, 0x0, (some 0), none⟩, ⟨8, 1, .w1s, 0x0, (some 0), none⟩, ⟨16, 6, .rw, 0x0, (some 0), none⟩, ⟨22, 1, .rw, 0x0, (some 0), none⟩], fun _ => 0⟩
/-- spec/20. -/
def PK_RD_STAT : Reg := ⟨"PK_RD_STAT", 0x40140510, [(4, 0x20)],
  [⟨0, 1, .ro, 0x0, (some 0), none⟩, ⟨1, 3, .ro, 0x0, (some 0), none⟩], fun _ => 0⟩
/-- spec/20. -/
def PK_RD_DONE : Reg := ⟨"PK_RD_DONE", 0x40140514, [(4, 0x20)],
  [⟨0, 24, .ro, 0x0, (some 0), none⟩], fun _ => 0⟩
/-- spec/20. -/
def PK_RRST : Reg := ⟨"PK_RRST", 0x40140600, [],
  [⟨0, 3, .rw, 0x0, (some 0), none⟩, ⟨4, 1, .rw, 0x0, (some 0), none⟩, ⟨8, 1, .w1s, 0x0, (some 0), none⟩], fun _ => 0⟩
/-- spec/20. -/
def PK_RRST_STAT : Reg := ⟨"PK_RRST_STAT", 0x40140604, [],
  [⟨0, 2, .ro, 0x0, (some 0), none⟩], fun _ => 0⟩
/-- spec/20. -/
def PK_TIME_CTL : Reg := ⟨"PK_TIME_CTL", 0x40140700, [],
  [⟨0, 1, .rw, 0x0, (some 0), none⟩, ⟨1, 1, .rw, 0x0, (some 0), none⟩, ⟨4, 3, .rw, 0x0, (some 0), none⟩], fun _ => 0⟩
/-- spec/20. -/
def PK_TIME_STAT : Reg := ⟨"PK_TIME_STAT", 0x40140704, [],
  [⟨0, 1, .w1c, 0x0, (some 0), none⟩], fun _ => 0⟩
/-- spec/20. -/
def PK_TIME_LASTE : Reg := ⟨"PK_TIME_LASTE", 0x40140708, [],
  [⟨0, 32, .ro, 0x0, (some 0), none⟩], fun _ => 0⟩
/-- spec/20. -/
def PK_L_CTL : Reg := ⟨"PK_L_CTL", 0x40140100, [(4, 0x40)],
  [⟨0, 1, .rw, 0x0, (some 0), none⟩, ⟨1, 1, .w1s, 0x0, (some 0), none⟩, ⟨2, 1, .rw, 0x0, (some 0), none⟩], fun _ => 0⟩
/-- spec/20. -/
def PK_L_STAT : Reg := ⟨"PK_L_STAT", 0x40140104, [(4, 0x40)],
  [⟨0, 1, .ro, 0x0, (some 0), none⟩, ⟨1, 1, .ro, 0x0, (some 0), none⟩, ⟨2, 1, .ro, 0x0, (some 0), none⟩, ⟨3, 1, .w1c, 0x0, (some 0), none⟩, ⟨4, 1, .ro, 0x0, (some 0), none⟩, ⟨8, 3, .ro, 0x0, (some 0), none⟩, ⟨12, 2, .ro, 0x0, (some 0), none⟩], fun _ => 0⟩
/-- spec/20. -/
def PK_L_RETRY : Reg := ⟨"PK_L_RETRY", 0x40140108, [(4, 0x40)],
  [⟨0, 32, .cnt, 0x0, (some 0), none⟩], fun _ => 0⟩
/-- spec/20. -/
def PK_L_DOWNS : Reg := ⟨"PK_L_DOWNS", 0x4014010C, [(4, 0x40)],
  [⟨0, 32, .cnt, 0x0, (some 0), none⟩], fun _ => 0⟩
/-- spec/20. -/
def PK_L_DELAY : Reg := ⟨"PK_L_DELAY", 0x40140110, [(4, 0x40)],
  [⟨0, 24, .ro, 0x0, (some 0), none⟩], fun _ => 0⟩
/-- spec/20. -/
def PK_L_ASYM : Reg := ⟨"PK_L_ASYM", 0x40140114, [(4, 0x40)],
  [⟨0, 16, .rw, 0x0, (some 0), none⟩], fun _ => 0⟩
/-- spec/21. -/
def PWR_CTL : Reg := ⟨"PWR_CTL", 0x40170000, [],
  [⟨0, 2, .rw, 0x0, (some 0), none⟩], fun _ => 0⟩
/-- spec/21. -/
def PWR_STAT : Reg := ⟨"PWR_STAT", 0x40170004, [],
  [⟨0, 2, .ro, 0x0, (some 0), none⟩, ⟨2, 1, .ro, 0x0, (some 0), none⟩, ⟨3, 1, .ro, 0x0, (some 0), none⟩, ⟨4, 1, .ro, 0x0, (some 0), none⟩], fun _ => 0⟩
/-- spec/21. -/
def PWR_VREQ : Reg := ⟨"PWR_VREQ", 0x40170008, [],
  [⟨0, 16, .ro, 0x320, (some 800), none⟩, ⟨16, 16, .ro, 0x0, (some 0), none⟩], fun _ => 0⟩
/-- spec/21. -/
def PWR_POWER : Reg := ⟨"PWR_POWER", 0x4017000C, [],
  [⟨0, 20, .ro, 0x0, (some 0), none⟩], fun _ => 0⟩
/-- spec/21. -/
def PWR_ECO : Reg := ⟨"PWR_ECO", 0x40170010, [],
  [⟨0, 24, .rw, 0x4e20, (some 20000), none⟩], fun _ => 0⟩
/-- spec/21. -/
def PWR_BUDGET : Reg := ⟨"PWR_BUDGET", 0x40170014, [],
  [⟨0, 8, .rw, 0xe1, (some 225), none⟩, ⟨16, 16, .rw, 0x0, (some 0), none⟩], fun _ => 0⟩
/-- spec/21. -/
def PWR_CAP : Reg := ⟨"PWR_CAP", 0x40170018, [],
  [⟨0, 20, .ro, 0x0, (some 0), none⟩], fun _ => 0⟩
/-- spec/21. -/
def PWR_EVT : Reg := ⟨"PWR_EVT", 0x40170020, [],
  [⟨0, 3, .w1c, 0x0, (some 0), none⟩], fun _ => 0⟩
/-- spec/21. -/
def PWR_EVT_EN : Reg := ⟨"PWR_EVT_EN", 0x40170024, [],
  [⟨0, 3, .rw, 0x0, (some 0), none⟩], fun _ => 0⟩
/-- spec/21. -/
def PWR_AVS_ERRS : Reg := ⟨"PWR_AVS_ERRS", 0x40170028, [],
  [⟨0, 32, .cnt, 0x0, (some 0), none⟩], fun _ => 0⟩
/-- spec/12 R304 (PCIe MSI-X layout). -/
def MSIX_ADDR_LO : Reg := ⟨"MSIX_ADDR_LO", 0x40168000, [(64, 0x10)],
  [⟨0, 32, .rw, 0x0, (some 0), none⟩], fun _ => 0⟩
/-- spec/12 R304 (PCIe MSI-X layout). -/
def MSIX_ADDR_HI : Reg := ⟨"MSIX_ADDR_HI", 0x40168004, [(64, 0x10)],
  [⟨0, 32, .rw, 0x0, (some 0), none⟩], fun _ => 0⟩
/-- spec/12 R304 (PCIe MSI-X layout). -/
def MSIX_DATA : Reg := ⟨"MSIX_DATA", 0x40168008, [(64, 0x10)],
  [⟨0, 32, .rw, 0x0, (some 0), none⟩], fun _ => 0⟩
/-- spec/12 R304 (PCIe MSI-X layout). -/
def MSIX_CTL : Reg := ⟨"MSIX_CTL", 0x4016800C, [(64, 0x10)],
  [⟨0, 1, .rw, 0x1, (some 1), none⟩], fun _ => 0⟩
/-- spec/12 R304 (PCIe MSI-X layout). -/
def MSIX_PBA : Reg := ⟨"MSIX_PBA", 0x40169000, [(2, 0x4)],
  [⟨0, 32, .ro, 0x0, (some 0), none⟩], fun _ => 0⟩

end Sys2Proof.Machine.R
end

