-- ==== Sys2Proof/Machine/RegFields.lean ====
section
/-! DEFINITION. A name for every field of the register map (spec/02 to spec/21, "Registers"): register, lowest bit, width.
The register's own table row is cited where the register is defined. -/
namespace Sys2Proof.Machine.R
open Sys2Proof.Machine

def SS_CTL_EN : Fld := ⟨SS_CTL, 0, 1⟩
def SS_CTL_THRU_EN : Fld := ⟨SS_CTL, 1, 1⟩
def SS_STAT_READY : Fld := ⟨SS_STAT, 0, 1⟩
def SS_STAT_CU_BUSY : Fld := ⟨SS_STAT, 1, 1⟩
def SS_NITEMS_COUNT : Fld := ⟨SS_NITEMS, 0, 19⟩
def SS_NCASTS_COUNT : Fld := ⟨SS_NCASTS, 0, 19⟩
def SS_EVT_LATE : Fld := ⟨SS_EVT, 0, 1⟩
def SS_EVT_COLLIDE : Fld := ⟨SS_EVT, 1, 1⟩
def SS_EVT_OVR : Fld := ⟨SS_EVT, 2, 1⟩
def SS_EVT_THRU_DEPTH : Fld := ⟨SS_EVT, 3, 1⟩
def SS_EVT_REMOTE_FAIL : Fld := ⟨SS_EVT, 4, 1⟩
def SS_EVT_ECC_UNCORR : Fld := ⟨SS_EVT, 5, 1⟩
def SS_EVT_PORT_ERR : Fld := ⟨SS_EVT, 6, 1⟩
def SS_EVT_EN_LATE : Fld := ⟨SS_EVT_EN, 0, 1⟩
def SS_EVT_EN_COLLIDE : Fld := ⟨SS_EVT_EN, 1, 1⟩
def SS_EVT_EN_OVR : Fld := ⟨SS_EVT_EN, 2, 1⟩
def SS_EVT_EN_THRU_DEPTH : Fld := ⟨SS_EVT_EN, 3, 1⟩
def SS_EVT_EN_REMOTE_FAIL : Fld := ⟨SS_EVT_EN, 4, 1⟩
def SS_EVT_EN_ECC_UNCORR : Fld := ⟨SS_EVT_EN, 5, 1⟩
def SS_EVT_EN_PORT_ERR : Fld := ⟨SS_EVT_EN, 6, 1⟩
def SS_WR_CNT_V : Fld := ⟨SS_WR_CNT, 0, 32⟩
def SS_THRU_CNT_V : Fld := ⟨SS_THRU_CNT, 0, 32⟩
def SS_THRU_DEPTH_V : Fld := ⟨SS_THRU_DEPTH, 0, 32⟩
def SS_REMOTE_CNT_V : Fld := ⟨SS_REMOTE_CNT, 0, 32⟩
def SS_ECC_HANDLE_V : Fld := ⟨SS_ECC_HANDLE, 0, 32⟩
def SS_IND_SEL_INDEX : Fld := ⟨SS_IND_SEL, 0, 19⟩
def SS_IND_SEL_TABLE : Fld := ⟨SS_IND_SEL, 24, 2⟩
def SS_IND_CMD_V : Fld := ⟨SS_IND_CMD, 0, 2⟩
def SS_IND_DATA_LO_V : Fld := ⟨SS_IND_DATA_LO, 0, 32⟩
def SS_IND_DATA_HI_V : Fld := ⟨SS_IND_DATA_HI, 0, 32⟩
def SS_HWR_HANDLE_HANDLE : Fld := ⟨SS_HWR_HANDLE, 0, 18⟩
def SS_AWR_HANDLE_HANDLE : Fld := ⟨SS_AWR_HANDLE, 0, 18⟩
def SS_HWR_CTL_CTL : Fld := ⟨SS_HWR_CTL, 0, 2⟩
def SS_AWR_CTL_CTL : Fld := ⟨SS_AWR_CTL, 0, 2⟩
def SS_HWR_STAT_BUSY : Fld := ⟨SS_HWR_STAT, 0, 1⟩
def SS_HWR_STAT_ERR : Fld := ⟨SS_HWR_STAT, 1, 1⟩
def SS_AWR_STAT_BUSY : Fld := ⟨SS_AWR_STAT, 0, 1⟩
def SS_AWR_STAT_ERR : Fld := ⟨SS_AWR_STAT, 1, 1⟩
def SS_HWR_DATA_DATA : Fld := ⟨SS_HWR_DATA, 0, 32⟩
def SS_AWR_DATA_DATA : Fld := ⟨SS_AWR_DATA, 0, 32⟩
def SS_CG_CTL_EN : Fld := ⟨SS_CG_CTL, 0, 1⟩
def SS_CG_CTL_TRIG : Fld := ⟨SS_CG_CTL, 1, 1⟩
def SS_CG_CTL_IG : Fld := ⟨SS_CG_CTL, 2, 5⟩
def SS_CG_CTL_WRITERS : Fld := ⟨SS_CG_CTL, 7, 4⟩
def SS_CG_CTL_AGE_LIMIT : Fld := ⟨SS_CG_CTL, 16, 8⟩
def SS_CG_STAT_BACK : Fld := ⟨SS_CG_STAT, 0, 2⟩
def SS_CG_STAT_FRONT : Fld := ⟨SS_CG_STAT, 2, 2⟩
def SS_CG_STAT_READY : Fld := ⟨SS_CG_STAT, 4, 2⟩
def SS_CG_STAT_PROC : Fld := ⟨SS_CG_STAT, 6, 1⟩
def SS_CG_STAT_DEFERRED : Fld := ⟨SS_CG_STAT, 7, 1⟩
def SS_CG_SEQ_V : Fld := ⟨SS_CG_SEQ, 0, 32⟩
def SS_CG_PSEQ_V : Fld := ⟨SS_CG_PSEQ, 0, 32⟩
def SS_CG_LATE_V : Fld := ⟨SS_CG_LATE, 0, 32⟩
def SS_CG_COLLIDE_V : Fld := ⟨SS_CG_COLLIDE, 0, 32⟩
def SS_CG_LASTCOL_V : Fld := ⟨SS_CG_LASTCOL, 0, 18⟩
def SS_CG_OVR_V : Fld := ⟨SS_CG_OVR, 0, 32⟩
def SS_CG_STALE_V : Fld := ⟨SS_CG_STALE, 0, 19⟩
def SS_CG_TIME_V : Fld := ⟨SS_CG_TIME, 0, 32⟩
def SS_CG_PTIME_V : Fld := ⟨SS_CG_PTIME, 0, 32⟩
def SS_CG_NITEMS_V : Fld := ⟨SS_CG_NITEMS, 0, 19⟩
def SS_CG_CMT_V : Fld := ⟨SS_CG_CMT, 0, 1⟩
def SS_CG_DONE_V : Fld := ⟨SS_CG_DONE, 0, 8⟩
def CE_CTL_RUN : Fld := ⟨CE_CTL, 0, 1⟩
def CE_CTL_STOP : Fld := ⟨CE_CTL, 1, 1⟩
def CE_CTL_START_AT_IG : Fld := ⟨CE_CTL, 2, 1⟩
def CE_CTL_START_IG : Fld := ⟨CE_CTL, 3, 5⟩
def CE_STAT_STATE : Fld := ⟨CE_STAT, 0, 3⟩
def CE_STAT_MQ : Fld := ⟨CE_STAT, 3, 1⟩
def CE_STAT_STOP_FORCED : Fld := ⟨CE_STAT, 4, 1⟩
def CE_PC_V : Fld := ⟨CE_PC, 0, 12⟩
def CE_BIND_PORT_A : Fld := ⟨CE_BIND, 0, 5⟩
def CE_BIND_A_EN : Fld := ⟨CE_BIND, 7, 1⟩
def CE_BIND_PORT_B : Fld := ⟨CE_BIND, 8, 5⟩
def CE_BIND_B_EN : Fld := ⟨CE_BIND, 15, 1⟩
def CE_CYC_IG : Fld := ⟨CE_CYC, 0, 5⟩
def CE_CYC_EN : Fld := ⟨CE_CYC, 8, 1⟩
def CE_GAP_OFF_V : Fld := ⟨CE_GAP_OFF, 0, 32⟩
def CE_GAP_LEN_V : Fld := ⟨CE_GAP_LEN, 0, 24⟩
def CE_SLACK_CUR_V : Fld := ⟨CE_SLACK_CUR, 0, 32⟩
def CE_SLACK_LAST_V : Fld := ⟨CE_SLACK_LAST, 0, 32⟩
def CE_SLACK_MIN_V : Fld := ⟨CE_SLACK_MIN, 0, 32⟩
def CE_SLACK_CLR_V : Fld := ⟨CE_SLACK_CLR, 0, 1⟩
def CE_LATE_CNT_V : Fld := ⟨CE_LATE_CNT, 0, 32⟩
def CE_CYC_CNT_V : Fld := ⟨CE_CYC_CNT, 0, 32⟩
def CE_PACE_V : Fld := ⟨CE_PACE, 0, 16⟩
def CE_DIRTY_HW_V : Fld := ⟨CE_DIRTY_HW, 0, 12⟩
def CE_FREEZE_EST_V : Fld := ⟨CE_FREEZE_EST, 0, 32⟩
def CE_ERR_ILL_OP : Fld := ⟨CE_ERR, 0, 1⟩
def CE_ERR_IMEM_ECC : Fld := ⟨CE_ERR, 1, 1⟩
def CE_ERR_DMEM_ECC : Fld := ⟨CE_ERR, 2, 1⟩
def CE_ERR_IO_RSVD : Fld := ⟨CE_ERR, 3, 1⟩
def CE_ERR_SPL_MISS : Fld := ⟨CE_ERR, 4, 1⟩
def CE_ERR_HALT : Fld := ⟨CE_ERR, 5, 1⟩
def CE_ERR_EN_V : Fld := ⟨CE_ERR_EN, 0, 6⟩
def CE_SPL_MISS_A_V : Fld := ⟨CE_SPL_MISS_A, 0, 32⟩
def CE_SPL_MISS_B_V : Fld := ⟨CE_SPL_MISS_B, 0, 32⟩
def CE_LAST_FREEZE_V : Fld := ⟨CE_LAST_FREEZE, 0, 32⟩
def CE_WAITMASK_V : Fld := ⟨CE_WAITMASK, 0, 32⟩
def CE_ECC_CNT_V : Fld := ⟨CE_ECC_CNT, 0, 32⟩
def CE_GSTAT_READY : Fld := ⟨CE_GSTAT, 0, 1⟩
def CE_MAP_PHYS : Fld := ⟨CE_MAP, 0, 6⟩
def CE_SPARES_FREE : Fld := ⟨CE_SPARES, 0, 3⟩
def CE_SPARES_RETIRED : Fld := ⟨CE_SPARES, 4, 3⟩
def CE_MIG_CTL_LE : Fld := ⟨CE_MIG_CTL, 0, 6⟩
def CE_MIG_CTL_GO : Fld := ⟨CE_MIG_CTL, 12, 1⟩
def CE_MIG_CTL_CANCEL : Fld := ⟨CE_MIG_CTL, 13, 1⟩
def CE_MIG_STAT_STATE : Fld := ⟨CE_MIG_STAT, 0, 3⟩
def CE_MIG_STAT_REFUSALS : Fld := ⟨CE_MIG_STAT, 8, 8⟩
def CE_MIG_LIMIT_V : Fld := ⟨CE_MIG_LIMIT, 0, 8⟩
def CE_LD_SEL_LE : Fld := ⟨CE_LD_SEL, 0, 6⟩
def CE_LD_SEL_SPACE : Fld := ⟨CE_LD_SEL, 8, 1⟩
def CE_LD_SEL_ZERO : Fld := ⟨CE_LD_SEL, 9, 1⟩
def CE_LD_ADDR_V : Fld := ⟨CE_LD_ADDR, 0, 12⟩
def CE_LD_DATA_V : Fld := ⟨CE_LD_DATA, 0, 32⟩
def CE_LD_STAT_BUSY : Fld := ⟨CE_LD_STAT, 0, 1⟩
def CE_LD_STAT_DENIED : Fld := ⟨CE_LD_STAT, 1, 1⟩
def CE_MQ_PORT_MODE : Fld := ⟨CE_MQ_PORT, 0, 2⟩
def CE_MQ_PORT_PARTNER : Fld := ⟨CE_MQ_PORT, 8, 5⟩
def CE_MQ_PORT_CAPTURE : Fld := ⟨CE_MQ_PORT, 16, 1⟩
def CE_MQ_PORT_RECORD : Fld := ⟨CE_MQ_PORT, 17, 1⟩
def CE_MQ_REF_BASE_V : Fld := ⟨CE_MQ_REF_BASE, 0, 32⟩
def CE_MQ_REF_LEN_V : Fld := ⟨CE_MQ_REF_LEN, 0, 22⟩
def CE_MQ_CAP_BASE_V : Fld := ⟨CE_MQ_CAP_BASE, 0, 32⟩
def CE_MQ_CAP_LEN_V : Fld := ⟨CE_MQ_CAP_LEN, 0, 22⟩
def CE_MQ_START_IG_V : Fld := ⟨CE_MQ_START_IG, 0, 5⟩
def TB_CTL_ALTREF_EN : Fld := ⟨TB_CTL, 0, 1⟩
def TB_CTL_ALTREF_FREQ : Fld := ⟨TB_CTL, 1, 1⟩
def TB_CTL_REVERT : Fld := ⟨TB_CTL, 2, 1⟩
def TB_STAT_LOCK : Fld := ⟨TB_STAT, 0, 1⟩
def TB_STAT_REF_ACTIVE : Fld := ⟨TB_STAT, 1, 1⟩
def TB_STAT_HOLDOVER : Fld := ⟨TB_STAT, 2, 1⟩
def TB_STAT_XREF_OK : Fld := ⟨TB_STAT, 3, 1⟩
def TB_STAT_ALTREF_OK : Fld := ⟨TB_STAT, 4, 1⟩
def TB_EVT_REF_LOSS : Fld := ⟨TB_EVT, 0, 1⟩
def TB_EVT_STEP0 : Fld := ⟨TB_EVT, 1, 1⟩
def TB_EVT_STEP1 : Fld := ⟨TB_EVT, 2, 1⟩
def TB_EVT_WALK_DONE : Fld := ⟨TB_EVT, 3, 1⟩
def TB_EVT_TSF_OVF : Fld := ⟨TB_EVT, 4, 1⟩
def TB_EVT_PHASE_ERR : Fld := ⟨TB_EVT, 5, 1⟩
def TB_EVT_IG_SKIP : Fld := ⟨TB_EVT, 6, 1⟩
def TB_EVT_EN_V : Fld := ⟨TB_EVT_EN, 0, 7⟩
def TB_SNAP_V : Fld := ⟨TB_SNAP, 0, 1⟩
def TB_SNAP_SEQ_V : Fld := ⟨TB_SNAP_SEQ, 0, 32⟩
def TB_SNAP_FRC_LO_V : Fld := ⟨TB_SNAP_FRC_LO, 0, 32⟩
def TB_SNAP_FRC_HI_V : Fld := ⟨TB_SNAP_FRC_HI, 0, 32⟩
def TB_SNAP_D0_LO_V : Fld := ⟨TB_SNAP_D0_LO, 0, 32⟩
def TB_SNAP_D0_HI_V : Fld := ⟨TB_SNAP_D0_HI, 0, 32⟩
def TB_SNAP_D0_FRAC_V : Fld := ⟨TB_SNAP_D0_FRAC, 0, 32⟩
def TB_SNAP_D1_LO_V : Fld := ⟨TB_SNAP_D1_LO, 0, 32⟩
def TB_SNAP_D1_HI_V : Fld := ⟨TB_SNAP_D1_HI, 0, 32⟩
def TB_SNAP_D1_FRAC_V : Fld := ⟨TB_SNAP_D1_FRAC, 0, 32⟩
def TB_FRC_LO_V : Fld := ⟨TB_FRC_LO, 0, 32⟩
def TB_FRC_HI_V : Fld := ⟨TB_FRC_HI, 0, 32⟩
def TB_ALT_DRIFT_V : Fld := ⟨TB_ALT_DRIFT, 0, 32⟩
def TB_D_CTL_MODE : Fld := ⟨TB_D_CTL, 0, 2⟩
def TB_D_CTL_ACQ : Fld := ⟨TB_D_CTL, 4, 1⟩
def TB_D_OFFS_LO_V : Fld := ⟨TB_D_OFFS_LO, 0, 32⟩
def TB_D_OFFS_HI_V : Fld := ⟨TB_D_OFFS_HI, 0, 32⟩
def TB_D_OFFS_FRAC_V : Fld := ⟨TB_D_OFFS_FRAC, 0, 32⟩
def TB_D_LOAD_V : Fld := ⟨TB_D_LOAD, 0, 1⟩
def TB_D_ADJ_V : Fld := ⟨TB_D_ADJ, 0, 32⟩
def TB_D_RATE_V : Fld := ⟨TB_D_RATE, 0, 32⟩
def TB_D_MEAS_V : Fld := ⟨TB_D_MEAS, 0, 32⟩
def TB_D_KP_KP : Fld := ⟨TB_D_KP, 0, 16⟩
def TB_D_KP_KP_SH : Fld := ⟨TB_D_KP, 16, 5⟩
def TB_D_KI_KI : Fld := ⟨TB_D_KI, 0, 16⟩
def TB_D_KI_KI_SH : Fld := ⟨TB_D_KI, 16, 5⟩
def TB_D_STEP_THR_V : Fld := ⟨TB_D_STEP_THR, 0, 24⟩
def TB_D_RATE_MAX_V : Fld := ⟨TB_D_RATE_MAX, 0, 32⟩
def TB_D_INTEG_V : Fld := ⟨TB_D_INTEG, 0, 32⟩
def TB_D_STAT_ACQUIRED : Fld := ⟨TB_D_STAT, 0, 1⟩
def TB_D_STAT_LOCKED : Fld := ⟨TB_D_STAT, 1, 1⟩
def TB_D_STAT_PHASE_ERR : Fld := ⟨TB_D_STAT, 2, 1⟩
def TB_D_STAT_MEAS_IGN : Fld := ⟨TB_D_STAT, 3, 1⟩
def TB_D_STAT_STEP_REF : Fld := ⟨TB_D_STAT, 4, 1⟩
def TB_D_STAT_STEPS : Fld := ⟨TB_D_STAT, 8, 8⟩
def TB_D_LASTE_V : Fld := ⟨TB_D_LASTE, 0, 32⟩
def TB_D_LOCK_THR_V : Fld := ⟨TB_D_LOCK_THR, 0, 24⟩
def TB_WALK_CTL_GO : Fld := ⟨TB_WALK_CTL, 0, 1⟩
def TB_WALK_CTL_DIR : Fld := ⟨TB_WALK_CTL, 1, 1⟩
def TB_WALK_CTL_WALK_PPM : Fld := ⟨TB_WALK_CTL, 8, 8⟩
def TB_WALK_STAT_BUSY : Fld := ⟨TB_WALK_STAT, 0, 1⟩
def TB_WALK_STAT_ABORTED : Fld := ⟨TB_WALK_STAT, 1, 1⟩
def TB_WALK_REM_V : Fld := ⟨TB_WALK_REM, 0, 32⟩
def TB_TSF_STAT_COUNT : Fld := ⟨TB_TSF_STAT, 0, 9⟩
def TB_TSF_W0_V : Fld := ⟨TB_TSF_W0, 0, 32⟩
def TB_TSF_W1_V : Fld := ⟨TB_TSF_W1, 0, 32⟩
def TB_TSF_W2_V : Fld := ⟨TB_TSF_W2, 0, 32⟩
def TB_TSF_POP_V : Fld := ⟨TB_TSF_POP, 0, 1⟩
def TB_TSF_OVF_V : Fld := ⟨TB_TSF_OVF, 0, 32⟩
def TB_PORT_CFG_TS_EN : Fld := ⟨TB_PORT_CFG, 0, 1⟩
def TB_PORT_CFG_ONESTEP : Fld := ⟨TB_PORT_CFG, 1, 1⟩
def TB_PORT_CFG_TC : Fld := ⟨TB_PORT_CFG, 2, 1⟩
def TB_PORT_CFG_DOM : Fld := ⟨TB_PORT_CFG, 3, 1⟩
def TB_PORT_RXADJ_V : Fld := ⟨TB_PORT_RXADJ, 0, 16⟩
def TB_PORT_TXADJ_V : Fld := ⟨TB_PORT_TXADJ, 0, 16⟩
def TB_IG_CTL_EN : Fld := ⟨TB_IG_CTL, 0, 1⟩
def TB_IG_CTL_MODE : Fld := ⟨TB_IG_CTL, 1, 1⟩
def TB_IG_CTL_DOM : Fld := ⟨TB_IG_CTL, 2, 1⟩
def TB_IG_CTL_PIN_EN : Fld := ⟨TB_IG_CTL, 3, 1⟩
def TB_IG_CTL_POL : Fld := ⟨TB_IG_CTL, 4, 1⟩
def TB_IG_CTL_UPD : Fld := ⟨TB_IG_CTL, 5, 1⟩
def TB_IG_START_LO_V : Fld := ⟨TB_IG_START_LO, 0, 32⟩
def TB_IG_START_HI_V : Fld := ⟨TB_IG_START_HI, 0, 32⟩
def TB_IG_PERIOD_V : Fld := ⟨TB_IG_PERIOD, 0, 32⟩
def TB_IG_PFRAC_V : Fld := ⟨TB_IG_PFRAC, 0, 16⟩
def TB_IG_WIDTH_V : Fld := ⟨TB_IG_WIDTH, 0, 24⟩
def TB_IG_NEXT_LO_V : Fld := ⟨TB_IG_NEXT_LO, 0, 32⟩
def TB_IG_NEXT_HI_V : Fld := ⟨TB_IG_NEXT_HI, 0, 32⟩
def TB_IG_CNT_V : Fld := ⟨TB_IG_CNT, 0, 32⟩
def TB_IG_SKIP_V : Fld := ⟨TB_IG_SKIP, 0, 32⟩
def TB_IG_STAT_RUN : Fld := ⟨TB_IG_STAT, 0, 1⟩
def TB_IG_STAT_PAST_START : Fld := ⟨TB_IG_STAT, 1, 1⟩
def MAC_CTL_STATE : Fld := ⟨MAC_CTL, 0, 2⟩
def MAC_CTL_MODE : Fld := ⟨MAC_CTL, 4, 3⟩
def MAC_CTL_AN_EN : Fld := ⟨MAC_CTL, 8, 1⟩
def MAC_CTL_PREEMPT : Fld := ⟨MAC_CTL, 9, 1⟩
def MAC_CTL_VERIFY_DIS : Fld := ⟨MAC_CTL, 10, 1⟩
def MAC_CTL_FRAG : Fld := ⟨MAC_CTL, 11, 2⟩
def MAC_CTL_PAUSE_RX : Fld := ⟨MAC_CTL, 13, 1⟩
def MAC_CTL_PFC : Fld := ⟨MAC_CTL, 14, 1⟩
def MAC_CTL_PAUSE_TX : Fld := ⟨MAC_CTL, 15, 1⟩
def MAC_CTL_T8_RATE : Fld := ⟨MAC_CTL, 16, 1⟩
def MAC_STAT_LINK : Fld := ⟨MAC_STAT, 0, 1⟩
def MAC_STAT_SPEED : Fld := ⟨MAC_STAT, 1, 3⟩
def MAC_STAT_HDX : Fld := ⟨MAC_STAT, 4, 1⟩
def MAC_STAT_PREEMPT_ACT : Fld := ⟨MAC_STAT, 5, 1⟩
def MAC_STAT_PW_ACTIVE : Fld := ⟨MAC_STAT, 6, 1⟩
def MAC_MAXLEN_V : Fld := ⟨MAC_MAXLEN, 0, 14⟩
def MAC_ADDR_LO_V : Fld := ⟨MAC_ADDR_LO, 0, 32⟩
def MAC_ADDR_HI_V : Fld := ⟨MAC_ADDR_HI, 0, 16⟩
def MAC_PW_LIMIT : Fld := ⟨MAC_PW, 0, 10⟩
def MAC_PW_EN : Fld := ⟨MAC_PW, 15, 1⟩
def MAC_PW_RECOVER : Fld := ⟨MAC_PW, 16, 10⟩
def MAC_EVT_LINK_CHG : Fld := ⟨MAC_EVT, 0, 1⟩
def MAC_EVT_PW_TRIP : Fld := ⟨MAC_EVT, 1, 1⟩
def MAC_EVT_WAKE : Fld := ⟨MAC_EVT, 2, 1⟩
def MAC_EVT_VERIFY_FAIL : Fld := ⟨MAC_EVT, 3, 1⟩
def MAC_EVT_OVF : Fld := ⟨MAC_EVT, 4, 1⟩
def MAC_EVT_UNDERRUN : Fld := ⟨MAC_EVT, 5, 1⟩
def MAC_EVT_EN_V : Fld := ⟨MAC_EVT_EN, 0, 6⟩
def MAC_PFC_EN : Fld := ⟨MAC_PFC, 0, 8⟩
def MAC_WAKE_CTL_MAGIC : Fld := ⟨MAC_WAKE_CTL, 0, 1⟩
def MAC_WAKE_CTL_PAT_EN : Fld := ⟨MAC_WAKE_CTL, 8, 8⟩
def MAC_WAKE_CTL_AUTO : Fld := ⟨MAC_WAKE_CTL, 16, 1⟩
def MAC_CNT_V : Fld := ⟨MAC_CNT, 0, 32⟩
def MAC_WP_DATA_V : Fld := ⟨MAC_WP_DATA, 0, 32⟩
def MAC_WP_MASK_V : Fld := ⟨MAC_WP_MASK, 0, 32⟩
def MAC_WP_LEN_V : Fld := ⟨MAC_WP_LEN, 0, 8⟩
def SW_CTL_EN : Fld := ⟨SW_CTL, 0, 1⟩
def SW_CTL_PUSHOUT : Fld := ⟨SW_CTL, 1, 1⟩
def SW_AGE_V : Fld := ⟨SW_AGE, 0, 20⟩
def SW_RES_LIMIT_V : Fld := ⟨SW_RES_LIMIT, 0, 14⟩
def SW_POOL_FREE_V : Fld := ⟨SW_POOL_FREE, 0, 16⟩
def SW_LEARN_FAIL_V : Fld := ⟨SW_LEARN_FAIL, 0, 32⟩
def SW_P_CFG_PVID : Fld := ⟨SW_P_CFG, 0, 12⟩
def SW_P_CFG_DEF_PCP : Fld := ⟨SW_P_CFG, 12, 3⟩
def SW_P_CFG_LEARN : Fld := ⟨SW_P_CFG, 15, 1⟩
def SW_P_CFG_INGRESS_FILT : Fld := ⟨SW_P_CFG, 16, 1⟩
def SW_P_CFG_CT_IN : Fld := ⟨SW_P_CFG, 17, 1⟩
def SW_P_CFG_PMASK : Fld := ⟨SW_P_CFG, 24, 8⟩
def SW_P_PCPMAP_V : Fld := ⟨SW_P_PCPMAP, 0, 24⟩
def SW_P_CT_OUT_V : Fld := ⟨SW_P_CT_OUT, 0, 8⟩
def SW_P_LIM_V : Fld := ⟨SW_P_LIM, 0, 15⟩
def SW_P_RSV_V : Fld := ⟨SW_P_RSV, 0, 12⟩
def SW_P_PFC_XOFF : Fld := ⟨SW_P_PFC, 0, 15⟩
def SW_P_PFC_XON : Fld := ⟨SW_P_PFC, 16, 15⟩
def SW_P_QCNT_V : Fld := ⟨SW_P_QCNT, 0, 15⟩
def SW_P_OWN_LE : Fld := ⟨SW_P_OWN, 0, 6⟩
def SW_P_OWN_VALID : Fld := ⟨SW_P_OWN, 7, 1⟩
def SW_P_DROP_V : Fld := ⟨SW_P_DROP, 0, 32⟩
def SW_WRED_MIN_V : Fld := ⟨SW_WRED_MIN, 0, 15⟩
def SW_WRED_MAX_V : Fld := ⟨SW_WRED_MAX, 0, 15⟩
def SW_WRED_MAXP_V : Fld := ⟨SW_WRED_MAXP, 0, 24⟩
def SW_WRED_W : Fld := ⟨SW_WRED, 0, 4⟩
def SW_CBS_IDLE_SLOPE : Fld := ⟨SW_CBS, 0, 24⟩
def SW_CBS_EN : Fld := ⟨SW_CBS, 31, 1⟩
def SW_GCL_CTL_EN : Fld := ⟨SW_GCL_CTL, 0, 1⟩
def SW_GCL_CTL_DOM : Fld := ⟨SW_GCL_CTL, 1, 1⟩
def SW_GCL_CTL_CHG : Fld := ⟨SW_GCL_CTL, 2, 1⟩
def SW_GCL_BASE_LO_V : Fld := ⟨SW_GCL_BASE_LO, 0, 32⟩
def SW_GCL_BASE_HI_V : Fld := ⟨SW_GCL_BASE_HI, 0, 32⟩
def SW_GCL_CYCLE_V : Fld := ⟨SW_GCL_CYCLE, 0, 32⟩
def SW_GCL_LEN_V : Fld := ⟨SW_GCL_LEN, 0, 9⟩
def SW_GCL_CHG_LO_V : Fld := ⟨SW_GCL_CHG_LO, 0, 32⟩
def SW_GCL_CHG_HI_V : Fld := ⟨SW_GCL_CHG_HI, 0, 32⟩
def SW_GCL_STAT_OPER : Fld := ⟨SW_GCL_STAT, 0, 1⟩
def SW_GCL_STAT_PEND : Fld := ⟨SW_GCL_STAT, 1, 1⟩
def SW_GCL_STAT_IDX : Fld := ⟨SW_GCL_STAT, 8, 8⟩
def SW_GCL_A_V : Fld := ⟨SW_GCL_A, 0, 32⟩
def SW_GCL_B_V : Fld := ⟨SW_GCL_B, 0, 32⟩
def SW_IND_SEL_INDEX : Fld := ⟨SW_IND_SEL, 0, 16⟩
def SW_IND_SEL_TABLE : Fld := ⟨SW_IND_SEL, 16, 3⟩
def SW_IND_CMD_V : Fld := ⟨SW_IND_CMD, 0, 3⟩
def SW_IND_STAT_ERR : Fld := ⟨SW_IND_STAT, 0, 1⟩
def SW_IND_DATA_V : Fld := ⟨SW_IND_DATA, 0, 32⟩
def CAN_CTL_RUN : Fld := ⟨CAN_CTL, 0, 1⟩
def CAN_CTL_FMT : Fld := ⟨CAN_CTL, 1, 2⟩
def CAN_CTL_MON : Fld := ⟨CAN_CTL, 3, 1⟩
def CAN_CTL_LOOP : Fld := ⟨CAN_CTL, 4, 1⟩
def CAN_CTL_TXORD : Fld := ⟨CAN_CTL, 5, 1⟩
def CAN_CTL_TMS : Fld := ⟨CAN_CTL, 6, 1⟩
def CAN_CTL_AUTO_REC : Fld := ⟨CAN_CTL, 7, 1⟩
def CAN_CTL_RECOVER : Fld := ⟨CAN_CTL, 8, 1⟩
def CAN_CTL_NOMATCH_ACC : Fld := ⟨CAN_CTL, 9, 1⟩
def CAN_CTL_TS_DOM : Fld := ⟨CAN_CTL, 10, 1⟩
def CAN_CTL_OWNER_EN : Fld := ⟨CAN_CTL, 11, 1⟩
def CAN_CTL_OWNER_LE : Fld := ⟨CAN_CTL, 12, 6⟩
def CAN_STAT_BUS : Fld := ⟨CAN_STAT, 0, 2⟩
def CAN_STAT_INIT : Fld := ⟨CAN_STAT, 2, 1⟩
def CAN_STAT_RECOVERING : Fld := ⟨CAN_STAT, 3, 1⟩
def CAN_ERRC_TEC : Fld := ⟨CAN_ERRC, 0, 8⟩
def CAN_ERRC_REC : Fld := ⟨CAN_ERRC, 8, 8⟩
def CAN_NBT_V : Fld := ⟨CAN_NBT, 0, 31⟩
def CAN_DBT_V : Fld := ⟨CAN_DBT, 0, 28⟩
def CAN_TDC_EN : Fld := ⟨CAN_TDC, 0, 1⟩
def CAN_TDC_SSPOFF : Fld := ⟨CAN_TDC, 8, 7⟩
def CAN_PWM_V : Fld := ⟨CAN_PWM, 0, 22⟩
def CAN_EVT_V : Fld := ⟨CAN_EVT, 0, 8⟩
def CAN_EVT_RX : Fld := ⟨CAN_EVT, 0, 1⟩
def CAN_EVT_RX_OVF : Fld := ⟨CAN_EVT, 1, 1⟩
def CAN_EVT_TX_DONE : Fld := ⟨CAN_EVT, 2, 1⟩
def CAN_EVT_TX_FAIL : Fld := ⟨CAN_EVT, 3, 1⟩
def CAN_EVT_BUS_CHG : Fld := ⟨CAN_EVT, 4, 1⟩
def CAN_EVT_TRIG_MISS : Fld := ⟨CAN_EVT, 5, 1⟩
def CAN_EVT_TT_REF : Fld := ⟨CAN_EVT, 6, 1⟩
def CAN_EVT_TT_MISS : Fld := ⟨CAN_EVT, 7, 1⟩
def CAN_EVT_EN_V : Fld := ⟨CAN_EVT_EN, 0, 8⟩
def CAN_RXF_STAT_COUNT : Fld := ⟨CAN_RXF_STAT, 0, 7⟩
def CAN_RXF_STAT_FREE : Fld := ⟨CAN_RXF_STAT, 16, 15⟩
def CAN_RX_OVF_V : Fld := ⟨CAN_RX_OVF, 0, 32⟩
def CAN_RX_ID_V : Fld := ⟨CAN_RX_ID, 0, 32⟩
def CAN_RX_ID_IDE : Fld := ⟨CAN_RX_ID, 29, 1⟩
def CAN_RX_ID_RTR : Fld := ⟨CAN_RX_ID, 30, 1⟩
def CAN_RX_FMT_V : Fld := ⟨CAN_RX_FMT, 0, 32⟩
def CAN_RX_FMT_BRS : Fld := ⟨CAN_RX_FMT, 2, 1⟩
def CAN_RX_FMT_ESI : Fld := ⟨CAN_RX_FMT, 3, 1⟩
def CAN_RX_FMT_SDT : Fld := ⟨CAN_RX_FMT, 16, 8⟩
def CAN_RX_FMT_VCID : Fld := ⟨CAN_RX_FMT, 24, 8⟩
def CAN_RX_AF_V : Fld := ⟨CAN_RX_AF, 0, 32⟩
def CAN_RX_TS_V : Fld := ⟨CAN_RX_TS, 0, 32⟩
def CAN_RX_INFO_V : Fld := ⟨CAN_RX_INFO, 0, 9⟩
def CAN_RX_POP_V : Fld := ⟨CAN_RX_POP, 0, 1⟩
def TXB_ID_V : Fld := ⟨TXB_ID, 0, 32⟩
def TXB_FMT_V : Fld := ⟨TXB_FMT, 0, 32⟩
def TXB_AF_V : Fld := ⟨TXB_AF, 0, 32⟩
def TXB_CTL_REQ : Fld := ⟨TXB_CTL, 0, 1⟩
def TXB_CTL_ABORT : Fld := ⟨TXB_CTL, 1, 1⟩
def TXB_CTL_LIMIT : Fld := ⟨TXB_CTL, 8, 8⟩
def TXB_CTL_CNT_ARB : Fld := ⟨TXB_CTL, 16, 1⟩
def TXB_CTL_TRIG_EN : Fld := ⟨TXB_CTL, 17, 1⟩
def TXB_CTL_TRIG_IG : Fld := ⟨TXB_CTL, 18, 5⟩
def TXB_STAT_STATE : Fld := ⟨TXB_STAT, 0, 3⟩
def TXB_STAT_ATTEMPTS : Fld := ⟨TXB_STAT, 8, 8⟩
def TXB_STAT_WR_ERR : Fld := ⟨TXB_STAT, 16, 1⟩
def TXB_TS_V : Fld := ⟨TXB_TS, 0, 32⟩
def CAN_FLT_V : Fld := ⟨CAN_FLT, 0, 32⟩
def CAN_TT_CTL_V : Fld := ⟨CAN_TT_CTL, 0, 10⟩
def CAN_TT_CTL_LEVEL : Fld := ⟨CAN_TT_CTL, 0, 2⟩
def CAN_TT_CTL_ROLE : Fld := ⟨CAN_TT_CTL, 2, 1⟩
def CAN_TT_CTL_AUTO_MEAS : Fld := ⟨CAN_TT_CTL, 3, 1⟩
def CAN_TT_CTL_DOM : Fld := ⟨CAN_TT_CTL, 4, 1⟩
def CAN_TT_CTL_IG : Fld := ⟨CAN_TT_CTL, 5, 5⟩
def CAN_TT_NTU_V : Fld := ⟨CAN_TT_NTU, 0, 17⟩
def CAN_TT_REF_ID_V : Fld := ⟨CAN_TT_REF_ID, 0, 11⟩
def CAN_TT_RX_MARK_V : Fld := ⟨CAN_TT_RX_MARK, 0, 19⟩
def CAN_TT_RX_TS_V : Fld := ⟨CAN_TT_RX_TS, 0, 32⟩
def CAN_TT_MISS_V : Fld := ⟨CAN_TT_MISS, 0, 32⟩
def CAN_RX_DATA_V : Fld := ⟨CAN_RX_DATA, 0, 32⟩
def CAN_TX_DATA_V : Fld := ⟨CAN_TX_DATA, 0, 32⟩
def FX_CTL_EN : Fld := ⟨FX_CTL, 0, 1⟩
def FX_CTL_TS_DOM : Fld := ⟨FX_CTL, 1, 1⟩
def FX_STAT_READY : Fld := ⟨FX_STAT, 0, 1⟩
def FX_STAT_HOLD : Fld := ⟨FX_STAT, 1, 1⟩
def FX_STAT_HOLD_EXPIRED : Fld := ⟨FX_STAT, 2, 1⟩
def FX_HOLD_RELEASE_V : Fld := ⟨FX_HOLD_RELEASE, 0, 1⟩
def FX_EVT_V : Fld := ⟨FX_EVT, 0, 11⟩
def FX_EVT_DIAG : Fld := ⟨FX_EVT, 0, 1⟩
def FX_EVT_SAG_WARN_A : Fld := ⟨FX_EVT, 1, 1⟩
def FX_EVT_SAG_WARN_B : Fld := ⟨FX_EVT, 2, 1⟩
def FX_EVT_LOCK_A : Fld := ⟨FX_EVT, 3, 1⟩
def FX_EVT_LOCK_B : Fld := ⟨FX_EVT, 4, 1⟩
def FX_EVT_GRP_OVL_A : Fld := ⟨FX_EVT, 5, 1⟩
def FX_EVT_GRP_OVL_B : Fld := ⟨FX_EVT, 6, 1⟩
def FX_EVT_EDGE_OVF : Fld := ⟨FX_EVT, 7, 1⟩
def FX_EVT_SCH_LATE : Fld := ⟨FX_EVT, 8, 1⟩
def FX_EVT_HOLD_EXP : Fld := ⟨FX_EVT, 9, 1⟩
def FX_EVT_PD_CHG : Fld := ⟨FX_EVT, 10, 1⟩
def FX_EVT_EN_V : Fld := ⟨FX_EVT_EN, 0, 11⟩
def FX_EDGE_STAT_COUNT : Fld := ⟨FX_EDGE_STAT, 0, 9⟩
def FX_EDGE_W0_V : Fld := ⟨FX_EDGE_W0, 0, 7⟩
def FX_EDGE_W1_V : Fld := ⟨FX_EDGE_W1, 0, 32⟩
def FX_EDGE_POP_V : Fld := ⟨FX_EDGE_POP, 0, 1⟩
def FX_EDGE_OVF_V : Fld := ⟨FX_EDGE_OVF, 0, 32⟩
def FX_GRP_CTL_RESTORE : Fld := ⟨FX_GRP_CTL, 0, 1⟩
def FX_GRP_CTL_CLEAR : Fld := ⟨FX_GRP_CTL, 1, 1⟩
def FX_GRP_STAT_V : Fld := ⟨FX_GRP_STAT, 0, 5⟩
def FX_GRP_STAT_LOCKOUT : Fld := ⟨FX_GRP_STAT, 0, 1⟩
def FX_GRP_STAT_SAG : Fld := ⟨FX_GRP_STAT, 1, 1⟩
def FX_GRP_STAT_WARN : Fld := ⟨FX_GRP_STAT, 2, 1⟩
def FX_GRP_STAT_GRP_OVL : Fld := ⟨FX_GRP_STAT, 3, 1⟩
def FX_GRP_STAT_RIDE : Fld := ⟨FX_GRP_STAT, 4, 1⟩
def FX_GRP_VLP_V : Fld := ⟨FX_GRP_VLP, 0, 16⟩
def FX_GRP_ILP_V : Fld := ⟨FX_GRP_ILP, 0, 16⟩
def FX_GRP_LOCKS_V : Fld := ⟨FX_GRP_LOCKS, 0, 32⟩
def FX_CH_CFG_MODE : Fld := ⟨FX_CH_CFG, 0, 3⟩
def FX_CH_CFG_RB : Fld := ⟨FX_CH_CFG, 3, 1⟩
def FX_CH_CFG_TYPE : Fld := ⟨FX_CH_CFG, 4, 1⟩
def FX_CH_CFG_FILT : Fld := ⟨FX_CH_CFG, 5, 3⟩
def FX_CH_CFG_EDGE_EN : Fld := ⟨FX_CH_CFG, 8, 1⟩
def FX_CH_CFG_OW_ON : Fld := ⟨FX_CH_CFG, 9, 1⟩
def FX_CH_CFG_OW_OFF : Fld := ⟨FX_CH_CFG, 10, 1⟩
def FX_CH_CFG_OVL_LATCH : Fld := ⟨FX_CH_CFG, 11, 1⟩
def FX_CH_CFG_HOST_SCH : Fld := ⟨FX_CH_CFG, 12, 1⟩
def FX_CH_CFG_APPLY_EN : Fld := ⟨FX_CH_CFG, 13, 1⟩
def FX_CH_CFG_APPLY_IG : Fld := ⟨FX_CH_CFG, 14, 5⟩
def FX_CH_CFG_COM : Fld := ⟨FX_CH_CFG, 19, 2⟩
def FX_CH_CFG_LPLUS_EXT : Fld := ⟨FX_CH_CFG, 21, 1⟩
def FX_CH_CMD_LEVEL : Fld := ⟨FX_CH_CMD, 0, 1⟩
def FX_CH_CMD_CLR_LATCH : Fld := ⟨FX_CH_CMD, 1, 1⟩
def FX_CH_STAT_V : Fld := ⟨FX_CH_STAT, 0, 5⟩
def FX_CH_STAT_CMD : Fld := ⟨FX_CH_STAT, 2, 1⟩
def FX_CH_STAT_ON : Fld := ⟨FX_CH_STAT, 3, 1⟩
def FX_CH_STAT_SEG_SWAP : Fld := ⟨FX_CH_STAT, 4, 1⟩
def FX_CH_DIAG_V : Fld := ⟨FX_CH_DIAG, 0, 7⟩
def FX_CH_DIAG_OVL : Fld := ⟨FX_CH_DIAG, 0, 1⟩
def FX_CH_DIAG_OPEN : Fld := ⟨FX_CH_DIAG, 1, 1⟩
def FX_CH_DIAG_OT : Fld := ⟨FX_CH_DIAG, 2, 1⟩
def FX_CH_DIAG_MISMATCH : Fld := ⟨FX_CH_DIAG, 3, 1⟩
def FX_CH_DIAG_SHORT_LP : Fld := ⟨FX_CH_DIAG, 4, 1⟩
def FX_CH_DIAG_SCH_LATE : Fld := ⟨FX_CH_DIAG, 5, 1⟩
def FX_CH_DIAG_CFG_ERR : Fld := ⟨FX_CH_DIAG, 6, 1⟩
def FX_CH_DIAG_PARTNER : Fld := ⟨FX_CH_DIAG, 8, 5⟩
def FX_CH_DIAG_EN_V : Fld := ⟨FX_CH_DIAG_EN, 0, 7⟩
def FX_CH_TS_V : Fld := ⟨FX_CH_TS, 0, 32⟩
def FX_CH_CUR_V : Fld := ⟨FX_CH_CUR, 0, 16⟩
def FX_CH_SEG_V : Fld := ⟨FX_CH_SEG, 0, 9⟩
def FX_CH_RSEG_V : Fld := ⟨FX_CH_RSEG, 0, 16⟩
def FX_CH_SCH_CTL_V : Fld := ⟨FX_CH_SCH_CTL, 0, 12⟩
def FX_CH_SCH_CTL_ARM : Fld := ⟨FX_CH_SCH_CTL, 0, 1⟩
def FX_CH_SCH_CTL_LEVEL : Fld := ⟨FX_CH_SCH_CTL, 1, 1⟩
def FX_CH_SCH_CTL_REF : Fld := ⟨FX_CH_SCH_CTL, 2, 1⟩
def FX_CH_SCH_CTL_IG : Fld := ⟨FX_CH_SCH_CTL, 3, 5⟩
def FX_CH_SCH_CTL_REPEAT : Fld := ⟨FX_CH_SCH_CTL, 8, 1⟩
def FX_CH_SCH_CTL_DONE : Fld := ⟨FX_CH_SCH_CTL, 9, 1⟩
def FX_CH_SCH_CTL_LATE : Fld := ⟨FX_CH_SCH_CTL, 10, 1⟩
def FX_CH_SCH_CTL_DROPPED : Fld := ⟨FX_CH_SCH_CTL, 11, 1⟩
def FX_CH_SCH_TIME_V : Fld := ⟨FX_CH_SCH_TIME, 0, 32⟩
def FX_CH_EDGES_V : Fld := ⟨FX_CH_EDGES, 0, 32⟩
def FX_CH_OVLCNT_V : Fld := ⟨FX_CH_OVLCNT, 0, 32⟩
def PWR_PD_CTL_SIG_OFF_AUX : Fld := ⟨PWR_PD_CTL, 0, 1⟩
def PWR_PD_STAT_REQ : Fld := ⟨PWR_PD_STAT, 0, 4⟩
def PWR_PD_STAT_GRANT : Fld := ⟨PWR_PD_STAT, 4, 4⟩
def PWR_PD_STAT_EVENTS : Fld := ⟨PWR_PD_STAT, 8, 3⟩
def PWR_PD_STAT_PDGOOD : Fld := ⟨PWR_PD_STAT, 11, 1⟩
def PWR_PD_STAT_AUX : Fld := ⟨PWR_PD_STAT, 12, 1⟩
def PWR_PD_VIN_V : Fld := ⟨PWR_PD_VIN, 0, 16⟩
def RASP_START_MASK : Fld := ⟨RASP_START, 0, 16⟩
def RASP_START_IG : Fld := ⟨RASP_START, 16, 5⟩
def RASP_START_IG_EN : Fld := ⟨RASP_START, 21, 1⟩
def RASP_START_GO : Fld := ⟨RASP_START, 24, 1⟩
def RASP_START_STAT_PEND : Fld := ⟨RASP_START_STAT, 0, 1⟩
def RASP_START_STAT_MISS : Fld := ⟨RASP_START_STAT, 1, 1⟩
def RASP_EVT_V : Fld := ⟨RASP_EVT, 0, 16⟩
def RASP_TW_SEL_UNIT : Fld := ⟨RASP_TW_SEL, 0, 4⟩
def RASP_TW_SEL_BANK : Fld := ⟨RASP_TW_SEL, 4, 1⟩
def RASP_TW_SEL_INDEX : Fld := ⟨RASP_TW_SEL, 8, 9⟩
def RASP_TW_DATA_V : Fld := ⟨RASP_TW_DATA, 0, 32⟩
def RASP_U_CTL_EN : Fld := ⟨RASP_U_CTL, 0, 1⟩
def RASP_U_CTL_BANK : Fld := ⟨RASP_U_CTL, 1, 1⟩
def RASP_U_CTL_FLIP : Fld := ⟨RASP_U_CTL, 2, 1⟩
def RASP_U_CTL_START_STATE : Fld := ⟨RASP_U_CTL, 3, 5⟩
def RASP_U_CTL_OWNER_LE : Fld := ⟨RASP_U_CTL, 8, 6⟩
def RASP_U_CTL_OWNER_EN : Fld := ⟨RASP_U_CTL, 14, 1⟩
def RASP_U_DIV_V : Fld := ⟨RASP_U_DIV, 0, 24⟩
def RASP_U_ISEL_V : Fld := ⟨RASP_U_ISEL, 0, 31⟩
def RASP_U_OMAP_V : Fld := ⟨RASP_U_OMAP, 0, 30⟩
def RASP_U_CFG_WIDTH : Fld := ⟨RASP_U_CFG, 0, 6⟩
def RASP_U_CFG_SNAP_IG : Fld := ⟨RASP_U_CFG, 8, 5⟩
def RASP_U_CFG_SNAP_EN : Fld := ⟨RASP_U_CFG, 13, 1⟩
def RASP_U_CFG_LOW_WATER : Fld := ⟨RASP_U_CFG, 16, 4⟩
def RASP_U_STAT_V : Fld := ⟨RASP_U_STAT, 0, 24⟩
def RASP_U_STAT_STATE : Fld := ⟨RASP_U_STAT, 0, 5⟩
def RASP_U_STAT_RUN : Fld := ⟨RASP_U_STAT, 5, 1⟩
def RASP_U_STAT_STALL_PULL : Fld := ⟨RASP_U_STAT, 6, 1⟩
def RASP_U_STAT_STALL_PUSH : Fld := ⟨RASP_U_STAT, 7, 1⟩
def RASP_U_STAT_INJ_PEND : Fld := ⟨RASP_U_STAT, 8, 1⟩
def RASP_U_STAT_FLIP_PEND : Fld := ⟨RASP_U_STAT, 9, 1⟩
def RASP_U_STAT_SC : Fld := ⟨RASP_U_STAT, 10, 6⟩
def RASP_U_SR_V : Fld := ⟨RASP_U_SR, 0, 32⟩
def RASP_U_CNT_V : Fld := ⟨RASP_U_CNT, 0, 16⟩
def RASP_U_INJ_V : Fld := ⟨RASP_U_INJ, 0, 32⟩
def RASP_U_PULL_V : Fld := ⟨RASP_U_PULL, 0, 32⟩
def RASP_U_PUSH_V : Fld := ⟨RASP_U_PUSH, 0, 32⟩
def RASP_U_EVT_V : Fld := ⟨RASP_U_EVT, 0, 3⟩
def RASP_U_EVT_IRQ : Fld := ⟨RASP_U_EVT, 0, 1⟩
def RASP_U_EVT_INJ_ERR : Fld := ⟨RASP_U_EVT, 1, 1⟩
def RASP_U_EVT_WR_ERR : Fld := ⟨RASP_U_EVT, 2, 1⟩
def RASP_U_EVT_EN_V : Fld := ⟨RASP_U_EVT_EN, 0, 3⟩
def RASP_U_STEPS_V : Fld := ⟨RASP_U_STEPS, 0, 32⟩
def GPIO_PIN_OUT : Fld := ⟨GPIO_PIN, 0, 1⟩
def GPIO_PIN_OE : Fld := ⟨GPIO_PIN, 1, 1⟩
def GPIO_PIN_PULL : Fld := ⟨GPIO_PIN, 2, 2⟩
def GPIO_PIN_OWN : Fld := ⟨GPIO_PIN, 4, 5⟩
def GPIO_PIN_IN : Fld := ⟨GPIO_PIN, 16, 1⟩
def HMB_DATA_V : Fld := ⟨HMB_DATA, 0, 32⟩
def HMB_ACK_V : Fld := ⟨HMB_ACK, 0, 32⟩
def HMB_STAT_FULL : Fld := ⟨HMB_STAT, 0, 1⟩
def HMB_STAT_ACKV : Fld := ⟨HMB_STAT, 1, 1⟩
def HMB_STAT_REJECTED : Fld := ⟨HMB_STAT, 2, 1⟩
def HMB_STAT_SEQ : Fld := ⟨HMB_STAT, 8, 8⟩
def HMB_REJ_V : Fld := ⟨HMB_REJ, 0, 32⟩
def AMB_DATA_V : Fld := ⟨AMB_DATA, 0, 32⟩
def AMB_ACK_V : Fld := ⟨AMB_ACK, 0, 32⟩
def AMB_STAT_FULL : Fld := ⟨AMB_STAT, 0, 1⟩
def AMB_STAT_ACKV : Fld := ⟨AMB_STAT, 1, 1⟩
def AMB_STAT_SEQ : Fld := ⟨AMB_STAT, 8, 8⟩
def HDB_SET_V : Fld := ⟨HDB_SET, 0, 32⟩
def HDB_CLR_V : Fld := ⟨HDB_CLR, 0, 32⟩
def HDB_MASK_V : Fld := ⟨HDB_MASK, 0, 32⟩
def ADB_SET_V : Fld := ⟨ADB_SET, 0, 32⟩
def ADB_CLR_V : Fld := ⟨ADB_CLR, 0, 32⟩
def ADB_MASK_V : Fld := ⟨ADB_MASK, 0, 32⟩
def MBX_HEVT_EN_V : Fld := ⟨MBX_HEVT_EN, 0, 32⟩
def MBX_HEVT_EN_ACKV : Fld := ⟨MBX_HEVT_EN, 0, 16⟩
def MBX_HEVT_EN_FULL : Fld := ⟨MBX_HEVT_EN, 16, 16⟩
def MBX_REJ_EN_V : Fld := ⟨MBX_REJ_EN, 0, 16⟩
def MBX_AEVT_EN_V : Fld := ⟨MBX_AEVT_EN, 0, 32⟩
def MBX_AEVT_EN_FULL : Fld := ⟨MBX_AEVT_EN, 0, 16⟩
def MBX_AEVT_EN_ACKV : Fld := ⟨MBX_AEVT_EN, 16, 16⟩
def HIF_STAT_IF : Fld := ⟨HIF_STAT, 0, 1⟩
def HIF_STAT_LINK_UP : Fld := ⟨HIF_STAT, 1, 1⟩
def HIF_STAT_SPEED : Fld := ⟨HIF_STAT, 2, 2⟩
def HIF_STAT_WIDTH : Fld := ⟨HIF_STAT, 4, 3⟩
def HIF_STAT_BME : Fld := ⟨HIF_STAT, 7, 1⟩
def HIF_STAT_ATL_RESTART : Fld := ⟨HIF_STAT, 8, 1⟩
def HIF_ERR_V : Fld := ⟨HIF_ERR, 0, 5⟩
def HIF_ERR_FW_DENY : Fld := ⟨HIF_ERR, 0, 1⟩
def HIF_ERR_CPL_TO : Fld := ⟨HIF_ERR, 1, 1⟩
def HIF_ERR_CPL_ERR : Fld := ⟨HIF_ERR, 2, 1⟩
def HIF_ERR_SPI_ABORT : Fld := ⟨HIF_ERR, 3, 1⟩
def HIF_ERR_ADDR_ERR : Fld := ⟨HIF_ERR, 4, 1⟩
def HIF_EVT_HOT_RST : Fld := ⟨HIF_EVT, 0, 1⟩
def HIF_ERR_EN_V : Fld := ⟨HIF_ERR_EN, 0, 6⟩
def HIF_CPL_TO_V : Fld := ⟨HIF_CPL_TO, 0, 10⟩
def HIF_TAGS_V : Fld := ⟨HIF_TAGS, 0, 9⟩
def HIF_SPI_LAST_STATUS : Fld := ⟨HIF_SPI_LAST, 0, 8⟩
def HIF_SPI_LAST_INDEX : Fld := ⟨HIF_SPI_LAST, 8, 6⟩
def HIF_PCI_ID_V : Fld := ⟨HIF_PCI_ID, 0, 24⟩
def HIF_PCI_ID_Device : Fld := ⟨HIF_PCI_ID, 0, 16⟩
def HIF_PCI_ID_Revision : Fld := ⟨HIF_PCI_ID, 16, 8⟩
def HIF_PCI_SUBID_V : Fld := ⟨HIF_PCI_SUBID, 0, 32⟩
def HIF_PCI_SUBID_Subsystem : Fld := ⟨HIF_PCI_SUBID, 0, 16⟩
def HIF_CHT_CTL_EN : Fld := ⟨HIF_CHT_CTL, 0, 1⟩
def HIF_CHT_CTL_LOC : Fld := ⟨HIF_CHT_CTL, 1, 1⟩
def HIF_CHT_CTL_CHECK_GEN : Fld := ⟨HIF_CHT_CTL, 2, 1⟩
def HIF_CHT_BASE_LO_V : Fld := ⟨HIF_CHT_BASE_LO, 0, 32⟩
def HIF_CHT_BASE_HI_V : Fld := ⟨HIF_CHT_BASE_HI, 0, 32⟩
def HIF_CHT_N_V : Fld := ⟨HIF_CHT_N, 0, 13⟩
def HIF_CHC_STAT_CACHED : Fld := ⟨HIF_CHC_STAT, 0, 9⟩
def HIF_CHC_STAT_PINNED : Fld := ⟨HIF_CHC_STAT, 16, 9⟩
def HIF_CHC_HIT_V : Fld := ⟨HIF_CHC_HIT, 0, 32⟩
def HIF_CHC_MISS_V : Fld := ⟨HIF_CHC_MISS, 0, 32⟩
def HIF_CHC_STALE_V : Fld := ⟨HIF_CHC_STALE, 0, 32⟩
def DMA_CTL_EN : Fld := ⟨DMA_CTL, 0, 1⟩
def DMA_STAT_INFLIGHT : Fld := ⟨DMA_STAT, 0, 9⟩
def DMA_EVT_SUM0_V : Fld := ⟨DMA_EVT_SUM0, 0, 32⟩
def DMA_EVT_SUM1_V : Fld := ⟨DMA_EVT_SUM1, 0, 32⟩
def DQ_CTL_EN : Fld := ⟨DQ_CTL, 0, 1⟩
def DQ_CTL_MODE : Fld := ⟨DQ_CTL, 1, 1⟩
def DQ_CTL_PRIO : Fld := ⟨DQ_CTL, 2, 2⟩
def DQ_CTL_BURST : Fld := ⟨DQ_CTL, 4, 2⟩
def DQ_CTL_STEP : Fld := ⟨DQ_CTL, 6, 1⟩
def DQ_CTL_RESUME : Fld := ⟨DQ_CTL, 7, 1⟩
def DQ_CTL_MAXOUT : Fld := ⟨DQ_CTL, 8, 4⟩
def DQ_CTL_RING_SP : Fld := ⟨DQ_CTL, 12, 1⟩
def DQ_CTL_RQ_SP : Fld := ⟨DQ_CTL, 13, 1⟩
def DQ_CTL_HOST : Fld := ⟨DQ_CTL, 14, 1⟩
def DQ_RING_LO_V : Fld := ⟨DQ_RING_LO, 0, 32⟩
def DQ_RING_HI_V : Fld := ⟨DQ_RING_HI, 0, 32⟩
def DQ_SIZE_V : Fld := ⟨DQ_SIZE, 0, 13⟩
def DQ_HEAD_V : Fld := ⟨DQ_HEAD, 0, 12⟩
def DQ_DB_V : Fld := ⟨DQ_DB, 0, 1⟩
def DQ_TRIG_SRC : Fld := ⟨DQ_TRIG, 0, 2⟩
def DQ_TRIG_INDEX : Fld := ⟨DQ_TRIG, 2, 8⟩
def DQ_PULSE_KIND : Fld := ⟨DQ_PULSE, 0, 2⟩
def DQ_PULSE_INDEX : Fld := ⟨DQ_PULSE, 4, 6⟩
def DQ_OWN_LE : Fld := ⟨DQ_OWN, 0, 6⟩
def DQ_OWN_EN : Fld := ⟨DQ_OWN, 6, 1⟩
def DQ_STAT_STATE : Fld := ⟨DQ_STAT, 0, 3⟩
def DQ_STAT_IDLE : Fld := ⟨DQ_STAT, 3, 1⟩
def DQ_STAT_TRIG_PEND : Fld := ⟨DQ_STAT, 4, 1⟩
def DQ_STAT_LAST : Fld := ⟨DQ_STAT, 8, 4⟩
def DQ_STAT_FETCH_ERR : Fld := ⟨DQ_STAT, 12, 1⟩
def DQ_EVT_V : Fld := ⟨DQ_EVT, 0, 5⟩
def DQ_EVT_ERR : Fld := ⟨DQ_EVT, 0, 1⟩
def DQ_EVT_UNDERRUN : Fld := ⟨DQ_EVT, 1, 1⟩
def DQ_EVT_MISMATCH : Fld := ⟨DQ_EVT, 2, 1⟩
def DQ_EVT_TRIG_MISS : Fld := ⟨DQ_EVT, 3, 1⟩
def DQ_EVT_RQ_FULL : Fld := ⟨DQ_EVT, 4, 1⟩
def DQ_EVT_EN_V : Fld := ⟨DQ_EVT_EN, 0, 5⟩
def DQ_DONE_CNT_V : Fld := ⟨DQ_DONE_CNT, 0, 32⟩
def DQ_TRIG_MISS_V : Fld := ⟨DQ_TRIG_MISS, 0, 32⟩
def DQ_RQ_LO_V : Fld := ⟨DQ_RQ_LO, 0, 32⟩
def DQ_RQ_HI_V : Fld := ⟨DQ_RQ_HI, 0, 32⟩
def DQ_RQ_SIZE_V : Fld := ⟨DQ_RQ_SIZE, 0, 13⟩
def DQ_RQ_HEAD_V : Fld := ⟨DQ_RQ_HEAD, 0, 12⟩
def DQ_RQ_TAIL_V : Fld := ⟨DQ_RQ_TAIL, 0, 12⟩
def DQ_RQ_LOST_V : Fld := ⟨DQ_RQ_LOST, 0, 32⟩
def EVH_SRC_CFG_TARGET : Fld := ⟨EVH_SRC_CFG, 0, 3⟩
def EVH_SRC_CFG_LEVEL : Fld := ⟨EVH_SRC_CFG, 3, 1⟩
def EVH_SRC_CFG_VEC : Fld := ⟨EVH_SRC_CFG, 4, 6⟩
def EVH_SRC_CFG_LEVEL_NOW : Fld := ⟨EVH_SRC_CFG, 16, 1⟩
def EVH_SRC_CFG_STATE : Fld := ⟨EVH_SRC_CFG, 17, 2⟩
def EVH_SRC_CFG_FB : Fld := ⟨EVH_SRC_CFG, 19, 1⟩
def EVH_MASK_V : Fld := ⟨EVH_MASK, 0, 32⟩
def EVH_MASK_FENCE_V : Fld := ⟨EVH_MASK_FENCE, 0, 32⟩
def EVH_SWSET_V : Fld := ⟨EVH_SWSET, 0, 6⟩
def EVH_REMOTE_DEV : Fld := ⟨EVH_REMOTE, 0, 3⟩
def EVH_T_PEND_V : Fld := ⟨EVH_T_PEND, 0, 32⟩
def EVH_T_SUMMARY_V : Fld := ⟨EVH_T_SUMMARY, 0, 16⟩
def EVH_T_CLAIM_SRC : Fld := ⟨EVH_T_CLAIM, 0, 9⟩
def EVH_T_CLAIM_OK : Fld := ⟨EVH_T_CLAIM, 16, 1⟩
def EVH_T_CLAIM_NOT_PENDING : Fld := ⟨EVH_T_CLAIM, 17, 1⟩
def EVH_T_EOI_V : Fld := ⟨EVH_T_EOI, 0, 9⟩
def EVH_T_CTL_WAKE_EN : Fld := ⟨EVH_T_CTL, 0, 1⟩
def EVH_T_CTL_FB_EN : Fld := ⟨EVH_T_CTL, 1, 1⟩
def EVH_T_CTL_FALLBACK : Fld := ⟨EVH_T_CTL, 2, 3⟩
def EVH_T_CTL_LINGER : Fld := ⟨EVH_T_CTL, 16, 16⟩
def EVH_T_STAT_SLEEP : Fld := ⟨EVH_T_STAT, 0, 1⟩
def EVH_T_STAT_EOI_ERR : Fld := ⟨EVH_T_STAT, 1, 1⟩
def EVH_T_FBCNT_V : Fld := ⟨EVH_T_FBCNT, 0, 32⟩
def MEM_CTL_SCRUB_EN : Fld := ⟨MEM_CTL, 0, 1⟩
def MEM_CTL_TEST_EN : Fld := ⟨MEM_CTL, 1, 1⟩
def MEM_STAT_READY : Fld := ⟨MEM_STAT, 0, 1⟩
def MEM_STAT_INIT_BUSY : Fld := ⟨MEM_STAT, 1, 1⟩
def MEM_SCRUB_PASS_V : Fld := ⟨MEM_SCRUB_PASS, 0, 32⟩
def MEM_EVT_V : Fld := ⟨MEM_EVT, 0, 6⟩
def MEM_EVT_CE : Fld := ⟨MEM_EVT, 0, 1⟩
def MEM_EVT_UE : Fld := ⟨MEM_EVT, 1, 1⟩
def MEM_EVT_TEST_FAIL : Fld := ⟨MEM_EVT, 2, 1⟩
def MEM_EVT_PWR_ERR : Fld := ⟨MEM_EVT, 3, 1⟩
def MEM_EVT_WIPE_DONE : Fld := ⟨MEM_EVT, 4, 1⟩
def MEM_EVT_REMAP_DONE : Fld := ⟨MEM_EVT, 5, 1⟩
def MEM_EVT_EN_V : Fld := ⟨MEM_EVT_EN, 0, 6⟩
def MEM_UE_ADDR_V : Fld := ⟨MEM_UE_ADDR, 0, 23⟩
def MEM_SPARES_FREE : Fld := ⟨MEM_SPARES, 0, 4⟩
def MEM_SPARES_RETIRED : Fld := ⟨MEM_SPARES, 8, 4⟩
def MEM_REMAP_CTL_SLOT : Fld := ⟨MEM_REMAP_CTL, 0, 7⟩
def MEM_REMAP_CTL_GO : Fld := ⟨MEM_REMAP_CTL, 8, 1⟩
def MEM_REMAP_STAT_STATE : Fld := ⟨MEM_REMAP_STAT, 0, 2⟩
def MEM_REMAP_STAT_PROGRESS : Fld := ⟨MEM_REMAP_STAT, 16, 15⟩
def MEM_SEC_STAT_WIPING : Fld := ⟨MEM_SEC_STAT, 0, 1⟩
def MEM_SEC_STAT_LOCKED : Fld := ⟨MEM_SEC_STAT, 1, 1⟩
def MEM_SEC_STAT_WIPES : Fld := ⟨MEM_SEC_STAT, 16, 16⟩
def MEM_MAP_PHYS : Fld := ⟨MEM_MAP, 0, 7⟩
def MEM_MAP_USE : Fld := ⟨MEM_MAP, 8, 3⟩
def MEM_BK_PWR_STATE : Fld := ⟨MEM_BK_PWR, 0, 2⟩
def MEM_BK_STAT_STATE : Fld := ⟨MEM_BK_STAT, 0, 2⟩
def MEM_BK_STAT_TRANS : Fld := ⟨MEM_BK_STAT, 2, 1⟩
def MEM_BK_STAT_UNDER_TEST : Fld := ⟨MEM_BK_STAT, 3, 1⟩
def MEM_BK_STAT_REMAP_SRC : Fld := ⟨MEM_BK_STAT, 4, 1⟩
def MEM_BK_STAT_RETIRED : Fld := ⟨MEM_BK_STAT, 5, 1⟩
def MEM_BK_CE_V : Fld := ⟨MEM_BK_CE, 0, 32⟩
def MEM_BK_UE_V : Fld := ⟨MEM_BK_UE, 0, 32⟩
def MEM_BK_TEST_WINDOW : Fld := ⟨MEM_BK_TEST, 0, 9⟩
def MEM_BK_TEST_LAST_FAIL : Fld := ⟨MEM_BK_TEST, 16, 1⟩
def MEM_BK_TEST_FAILS : Fld := ⟨MEM_BK_TEST, 24, 8⟩
def MEM_BK_SCRUB_V : Fld := ⟨MEM_BK_SCRUB, 0, 15⟩
def RST_CAUSE_V : Fld := ⟨RST_CAUSE, 0, 10⟩
def RST_CAUSE_SUPPLY : Fld := ⟨RST_CAUSE, 0, 1⟩
def RST_CAUSE_PORST : Fld := ⟨RST_CAUSE, 1, 1⟩
def RST_CAUSE_SYSRST : Fld := ⟨RST_CAUSE, 2, 1⟩
def RST_CAUSE_ARM_WDG : Fld := ⟨RST_CAUSE, 3, 1⟩
def RST_CAUSE_ATL_WDG : Fld := ⟨RST_CAUSE, 4, 1⟩
def RST_CAUSE_TAMPER : Fld := ⟨RST_CAUSE, 5, 1⟩
def RST_CAUSE_HOST_SYS : Fld := ⟨RST_CAUSE, 6, 1⟩
def RST_CAUSE_HOST_CORE : Fld := ⟨RST_CAUSE, 7, 1⟩
def RST_CAUSE_REMOTE_SYS : Fld := ⟨RST_CAUSE, 8, 1⟩
def RST_CAUSE_REMOTE_CORE : Fld := ⟨RST_CAUSE, 9, 1⟩
def RST_STAT_REACH_LAST : Fld := ⟨RST_STAT, 0, 2⟩
def RST_STAT_OPT_ERR : Fld := ⟨RST_STAT, 2, 1⟩
def RST_STAT_OPT_BLANK : Fld := ⟨RST_STAT, 3, 1⟩
def RST_STAT_OPT_COPY : Fld := ⟨RST_STAT, 4, 1⟩
def RST_STAT_BOOT_SLOT : Fld := ⟨RST_STAT, 5, 1⟩
def RST_STAT_FALLBACK : Fld := ⟨RST_STAT, 6, 1⟩
def RST_STAT_BOOT_FAIL : Fld := ⟨RST_STAT, 7, 1⟩
def RST_STAT_HBOOT_WAIT : Fld := ⟨RST_STAT, 8, 1⟩
def RST_STAT_LC_RESUMED : Fld := ⟨RST_STAT, 9, 1⟩
def RST_CTL_REMOTE_EN : Fld := ⟨RST_CTL, 0, 1⟩
def RST_AWD_CTL_EN : Fld := ⟨RST_AWD_CTL, 0, 1⟩
def RST_AWD_CTL_TIMEOUT : Fld := ⟨RST_AWD_CTL, 16, 10⟩
def RST_AWD_KICK_V : Fld := ⟨RST_AWD_KICK, 0, 1⟩
def RST_AWD_LEFT_V : Fld := ⟨RST_AWD_LEFT, 0, 10⟩
def RST_BLK_CTL_INDEX : Fld := ⟨RST_BLK_CTL, 0, 8⟩
def RST_BLK_CTL_CLASS : Fld := ⟨RST_BLK_CTL, 8, 4⟩
def RST_BLK_CTL_GO : Fld := ⟨RST_BLK_CTL, 16, 1⟩
def RST_BLK_STAT_DONE : Fld := ⟨RST_BLK_STAT, 0, 1⟩
def RST_BLK_STAT_REFUSED : Fld := ⟨RST_BLK_STAT, 1, 1⟩
def RST_IDLE_CE_LO_V : Fld := ⟨RST_IDLE_CE_LO, 0, 32⟩
def RST_IDLE_CE_HI_V : Fld := ⟨RST_IDLE_CE_HI, 0, 32⟩
def RST_IDLE_MAC_V : Fld := ⟨RST_IDLE_MAC, 0, 24⟩
def RST_IDLE_MISC_CAN : Fld := ⟨RST_IDLE_MISC, 0, 4⟩
def RST_IDLE_MISC_RASP : Fld := ⟨RST_IDLE_MISC, 16, 16⟩
def RST_IDLE_DQ_LO_V : Fld := ⟨RST_IDLE_DQ_LO, 0, 32⟩
def RST_IDLE_DQ_HI_V : Fld := ⟨RST_IDLE_DQ_HI, 0, 32⟩
def RST_CNT_SYS_V : Fld := ⟨RST_CNT_SYS, 0, 16⟩
def RST_CNT_CORE_V : Fld := ⟨RST_CNT_CORE, 0, 16⟩
def RST_BOOT_TIME_V : Fld := ⟨RST_BOOT_TIME, 0, 32⟩
def RST_HBOOT_LEN_V : Fld := ⟨RST_HBOOT_LEN, 0, 24⟩
def RST_OPT_V : Fld := ⟨RST_OPT, 0, 32⟩
def SEC_STAT_LC : Fld := ⟨SEC_STAT, 0, 3⟩
def SEC_STAT_LC_BUSY : Fld := ⟨SEC_STAT, 3, 1⟩
def SEC_STAT_DBG_UNLOCKED : Fld := ⟨SEC_STAT, 4, 1⟩
def SEC_STAT_TAMPER_HOLD : Fld := ⟨SEC_STAT, 5, 1⟩
def SEC_STAT_PATCH_OK : Fld := ⟨SEC_STAT, 6, 1⟩
def SEC_STAT_PATCH_FAIL : Fld := ⟨SEC_STAT, 7, 1⟩
def SEC_STAT_LOG_FULL : Fld := ⟨SEC_STAT, 8, 1⟩
def SEC_STAT_KEYREC_ERR : Fld := ⟨SEC_STAT, 9, 1⟩
def SEC_STAT_LC_LOW : Fld := ⟨SEC_STAT, 10, 1⟩
def SEC_LC_CTR_V : Fld := ⟨SEC_LC_CTR, 0, 9⟩
def SEC_KEYS_ROOT_SET : Fld := ⟨SEC_KEYS, 0, 1⟩
def SEC_KEYS_OWNER_SET : Fld := ⟨SEC_KEYS, 1, 4⟩
def SEC_KEYS_REVOKED : Fld := ⟨SEC_KEYS, 5, 4⟩
def SEC_TAMPER_V : Fld := ⟨SEC_TAMPER, 0, 4⟩
def SEC_TAMPER_GLITCH : Fld := ⟨SEC_TAMPER, 0, 1⟩
def SEC_TAMPER_TEMP : Fld := ⟨SEC_TAMPER, 1, 1⟩
def SEC_TAMPER_PACE : Fld := ⟨SEC_TAMPER, 2, 1⟩
def SEC_TAMPER_DEBUG : Fld := ⟨SEC_TAMPER, 3, 1⟩
def SEC_TAMPER_CNT_V : Fld := ⟨SEC_TAMPER_CNT, 0, 8⟩
def SEC_FW_STAT_DENY : Fld := ⟨SEC_FW_STAT, 0, 1⟩
def SEC_FW_STAT_CLASS : Fld := ⟨SEC_FW_STAT, 1, 2⟩
def SEC_FW_ADDR_V : Fld := ⟨SEC_FW_ADDR, 0, 32⟩
def SEC_DEVID_V : Fld := ⟨SEC_DEVID, 0, 32⟩
def SEC_DIK_PUB_V : Fld := ⟨SEC_DIK_PUB, 0, 32⟩
def SEC_CHAIN_V : Fld := ⟨SEC_CHAIN, 0, 32⟩
def SEC_LOG_N_V : Fld := ⟨SEC_LOG_N, 0, 8⟩
def SEC_FW_R_BASE_V : Fld := ⟨SEC_FW_R_BASE, 0, 32⟩
def SEC_FW_R_LIMIT_V : Fld := ⟨SEC_FW_R_LIMIT, 0, 32⟩
def SEC_FW_R_PERM_PERM : Fld := ⟨SEC_FW_R_PERM, 0, 8⟩
def SEC_FW_R_PERM_ATL : Fld := ⟨SEC_FW_R_PERM, 0, 2⟩
def SEC_FW_R_PERM_HOST : Fld := ⟨SEC_FW_R_PERM, 2, 2⟩
def SEC_FW_R_PERM_DMA : Fld := ⟨SEC_FW_R_PERM, 4, 2⟩
def SEC_FW_R_PERM_REMOTE : Fld := ⟨SEC_FW_R_PERM, 6, 2⟩
def SEC_FW_R_PERM_VALID : Fld := ⟨SEC_FW_R_PERM, 31, 1⟩
def SEC_FW_DEFAULT_V : Fld := ⟨SEC_FW_DEFAULT, 0, 8⟩
def PAT_CTL_EN : Fld := ⟨PAT_CTL, 0, 1⟩
def PAT_CTL_POLICY : Fld := ⟨PAT_CTL, 1, 1⟩
def PAT_STAT_BASELINE : Fld := ⟨PAT_STAT, 0, 1⟩
def PAT_STAT_REC_NEW : Fld := ⟨PAT_STAT, 1, 1⟩
def PAT_STAT_REC_ERR : Fld := ⟨PAT_STAT, 2, 1⟩
def PAT_STAT_CORE_SWAP_ARMED : Fld := ⟨PAT_STAT, 3, 1⟩
def PAT_EVT_V : Fld := ⟨PAT_EVT, 0, 7⟩
def PAT_EVT_WARN : Fld := ⟨PAT_EVT, 0, 1⟩
def PAT_EVT_WORN : Fld := ⟨PAT_EVT, 1, 1⟩
def PAT_EVT_SUB_DONE : Fld := ⟨PAT_EVT, 2, 1⟩
def PAT_EVT_SUB_FAIL : Fld := ⟨PAT_EVT, 3, 1⟩
def PAT_EVT_NO_SPARE : Fld := ⟨PAT_EVT, 4, 1⟩
def PAT_EVT_REC_ERR : Fld := ⟨PAT_EVT, 5, 1⟩
def PAT_EVT_CAL_FAIL : Fld := ⟨PAT_EVT, 6, 1⟩
def PAT_EVT_EN_V : Fld := ⟨PAT_EVT_EN, 0, 7⟩
def PAT_SHARE_SCRUB : Fld := ⟨PAT_SHARE, 0, 5⟩
def PAT_SHARE_TEST : Fld := ⟨PAT_SHARE, 8, 4⟩
def PAT_SHARE_WEAR : Fld := ⟨PAT_SHARE, 16, 3⟩
def PAT_SHARE_TEL : Fld := ⟨PAT_SHARE, 24, 3⟩
def PAT_WEAR_FLOOR_V : Fld := ⟨PAT_WEAR_FLOOR, 0, 32⟩
def PAT_LANE_FLOOR_V : Fld := ⟨PAT_LANE_FLOOR, 0, 32⟩
def PAT_SEG_LIMIT_V : Fld := ⟨PAT_SEG_LIMIT, 0, 32⟩
def PAT_EPOCH_V : Fld := ⟨PAT_EPOCH, 0, 11⟩
def PAT_REQ_INT_V : Fld := ⟨PAT_REQ_INT, 0, 16⟩
def PAT_RETRY_V : Fld := ⟨PAT_RETRY, 0, 16⟩
def PAT_TEL_BASE_V : Fld := ⟨PAT_TEL_BASE, 0, 32⟩
def PAT_TEL_N_V : Fld := ⟨PAT_TEL_N, 0, 11⟩
def PAT_TEL_HEAD_V : Fld := ⟨PAT_TEL_HEAD, 0, 10⟩
def PAT_TEL_SEQ_V : Fld := ⟨PAT_TEL_SEQ, 0, 32⟩
def PAT_TEL_CTL_EN : Fld := ⟨PAT_TEL_CTL, 0, 1⟩
def PAT_CE_RATIO : Fld := ⟨PAT_CE, 0, 16⟩
def PAT_CE_STATE : Fld := ⟨PAT_CE, 16, 2⟩
def PAT_CE_BELOW : Fld := ⟨PAT_CE, 18, 2⟩
def PAT_CE_SPARE : Fld := ⟨PAT_CE, 20, 1⟩
def PAT_AC_RATIO : Fld := ⟨PAT_AC, 0, 16⟩
def PAT_AC_STATE : Fld := ⟨PAT_AC, 16, 2⟩
def PAT_AC_BELOW : Fld := ⟨PAT_AC, 18, 2⟩
def PAT_AC_SPARE : Fld := ⟨PAT_AC, 20, 1⟩
def PAT_BK_RATIO : Fld := ⟨PAT_BK, 0, 16⟩
def PAT_BK_STATE : Fld := ⟨PAT_BK, 16, 2⟩
def PAT_BK_BELOW : Fld := ⟨PAT_BK, 18, 2⟩
def PAT_BK_SPARE : Fld := ⟨PAT_BK, 20, 1⟩
def PAT_LK_RATIO : Fld := ⟨PAT_LK, 0, 16⟩
def PAT_LK_STATE : Fld := ⟨PAT_LK, 16, 2⟩
def PAT_LK_BELOW : Fld := ⟨PAT_LK, 18, 2⟩
def PAT_LK_SPARE : Fld := ⟨PAT_LK, 20, 1⟩
def PAT_SG_RATIO : Fld := ⟨PAT_SG, 0, 16⟩
def PAT_SG_STATE : Fld := ⟨PAT_SG, 16, 2⟩
def PAT_SG_BELOW : Fld := ⟨PAT_SG, 18, 2⟩
def PAT_SG_SPARE : Fld := ⟨PAT_SG, 20, 1⟩
def PK_CTL_EN : Fld := ⟨PK_CTL, 0, 1⟩
def PK_CTL_EXPRESS_EN : Fld := ⟨PK_CTL, 1, 1⟩
def PK_CTL_SIZE : Fld := ⟨PK_CTL, 4, 4⟩
def PK_STAT_ID : Fld := ⟨PK_STAT, 0, 3⟩
def PK_STAT_CLUSTER_EN : Fld := ⟨PK_STAT, 3, 1⟩
def PK_STAT_PRESENT : Fld := ⟨PK_STAT, 8, 8⟩
def PK_EVT_V : Fld := ⟨PK_EVT, 0, 6⟩
def PK_EVT_LINK_CHG : Fld := ⟨PK_EVT, 0, 1⟩
def PK_EVT_TOPO_ERR : Fld := ⟨PK_EVT, 1, 1⟩
def PK_EVT_DISCARD : Fld := ⟨PK_EVT, 2, 1⟩
def PK_EVT_RA_DONE : Fld := ⟨PK_EVT, 3, 1⟩
def PK_EVT_RD_DONE : Fld := ⟨PK_EVT, 4, 1⟩
def PK_EVT_RRST_DENIED : Fld := ⟨PK_EVT, 5, 1⟩
def PK_EVT_EN_V : Fld := ⟨PK_EVT_EN, 0, 6⟩
def PK_DISCARD_V : Fld := ⟨PK_DISCARD, 0, 32⟩
def PK_LINKMAP_V : Fld := ⟨PK_LINKMAP, 0, 32⟩
def PK_RA_ADDR_V : Fld := ⟨PK_RA_ADDR, 0, 32⟩
def PK_RA_DATA_V : Fld := ⟨PK_RA_DATA, 0, 32⟩
def PK_RA_CMD_DEV : Fld := ⟨PK_RA_CMD, 0, 3⟩
def PK_RA_CMD_WRITE : Fld := ⟨PK_RA_CMD, 4, 1⟩
def PK_RA_CMD_GO : Fld := ⟨PK_RA_CMD, 8, 1⟩
def PK_RA_STAT_BUSY : Fld := ⟨PK_RA_STAT, 0, 1⟩
def PK_RA_STAT_RESULT : Fld := ⟨PK_RA_STAT, 1, 3⟩
def PK_RD_LOCAL_V : Fld := ⟨PK_RD_LOCAL, 0, 32⟩
def PK_RD_REMOTE_V : Fld := ⟨PK_RD_REMOTE, 0, 32⟩
def PK_RD_LEN_V : Fld := ⟨PK_RD_LEN, 0, 24⟩
def PK_RD_CTL_DEV : Fld := ⟨PK_RD_CTL, 0, 3⟩
def PK_RD_CTL_DIR : Fld := ⟨PK_RD_CTL, 4, 1⟩
def PK_RD_CTL_GO : Fld := ⟨PK_RD_CTL, 8, 1⟩
def PK_RD_CTL_DQ : Fld := ⟨PK_RD_CTL, 16, 6⟩
def PK_RD_CTL_PULSE_EN : Fld := ⟨PK_RD_CTL, 22, 1⟩
def PK_RD_STAT_BUSY : Fld := ⟨PK_RD_STAT, 0, 1⟩
def PK_RD_STAT_RESULT : Fld := ⟨PK_RD_STAT, 1, 3⟩
def PK_RD_DONE_V : Fld := ⟨PK_RD_DONE, 0, 24⟩
def PK_RRST_DEV : Fld := ⟨PK_RRST, 0, 3⟩
def PK_RRST_REACH : Fld := ⟨PK_RRST, 4, 1⟩
def PK_RRST_GO : Fld := ⟨PK_RRST, 8, 1⟩
def PK_RRST_STAT_V : Fld := ⟨PK_RRST_STAT, 0, 2⟩
def PK_TIME_CTL_EN : Fld := ⟨PK_TIME_CTL, 0, 1⟩
def PK_TIME_CTL_DOM : Fld := ⟨PK_TIME_CTL, 1, 1⟩
def PK_TIME_CTL_MASTER : Fld := ⟨PK_TIME_CTL, 4, 3⟩
def PK_TIME_STAT_MODE_ERR : Fld := ⟨PK_TIME_STAT, 0, 1⟩
def PK_TIME_LASTE_V : Fld := ⟨PK_TIME_LASTE, 0, 32⟩
def PK_L_CTL_EN : Fld := ⟨PK_L_CTL, 0, 1⟩
def PK_L_CTL_SWAP : Fld := ⟨PK_L_CTL, 1, 1⟩
def PK_L_CTL_SWAP_LANE : Fld := ⟨PK_L_CTL, 2, 1⟩
def PK_L_STAT_UP : Fld := ⟨PK_L_STAT, 0, 1⟩
def PK_L_STAT_TRAINING : Fld := ⟨PK_L_STAT, 1, 1⟩
def PK_L_STAT_TOPO_ERR : Fld := ⟨PK_L_STAT, 2, 1⟩
def PK_L_STAT_SWAP_ERR : Fld := ⟨PK_L_STAT, 3, 1⟩
def PK_L_STAT_SPARE_USED : Fld := ⟨PK_L_STAT, 4, 1⟩
def PK_L_STAT_PEER_ID : Fld := ⟨PK_L_STAT, 8, 3⟩
def PK_L_STAT_PEER_LINK : Fld := ⟨PK_L_STAT, 12, 2⟩
def PK_L_RETRY_V : Fld := ⟨PK_L_RETRY, 0, 32⟩
def PK_L_DOWNS_V : Fld := ⟨PK_L_DOWNS, 0, 32⟩
def PK_L_DELAY_V : Fld := ⟨PK_L_DELAY, 0, 24⟩
def PK_L_ASYM_V : Fld := ⟨PK_L_ASYM, 0, 16⟩
def PWR_CTL_MODE : Fld := ⟨PWR_CTL, 0, 2⟩
def PWR_STAT_EFF_MODE : Fld := ⟨PWR_STAT, 0, 2⟩
def PWR_STAT_AVS : Fld := ⟨PWR_STAT, 2, 1⟩
def PWR_STAT_SLEWING : Fld := ⟨PWR_STAT, 3, 1⟩
def PWR_STAT_CAPPED : Fld := ⟨PWR_STAT, 4, 1⟩
def PWR_VREQ_VREQ : Fld := ⟨PWR_VREQ, 0, 16⟩
def PWR_VREQ_VMEAS : Fld := ⟨PWR_VREQ, 16, 16⟩
def PWR_POWER_V : Fld := ⟨PWR_POWER, 0, 20⟩
def PWR_ECO_V : Fld := ⟨PWR_ECO, 0, 24⟩
def PWR_BUDGET_EFF : Fld := ⟨PWR_BUDGET, 0, 8⟩
def PWR_BUDGET_OTHER : Fld := ⟨PWR_BUDGET, 16, 16⟩
def PWR_CAP_V : Fld := ⟨PWR_CAP, 0, 20⟩
def PWR_EVT_V : Fld := ⟨PWR_EVT, 0, 3⟩
def PWR_EVT_AVS_ERR : Fld := ⟨PWR_EVT, 0, 1⟩
def PWR_EVT_CAPPED : Fld := ⟨PWR_EVT, 1, 1⟩
def PWR_EVT_OVER_BUDGET : Fld := ⟨PWR_EVT, 2, 1⟩
def PWR_EVT_EN_V : Fld := ⟨PWR_EVT_EN, 0, 3⟩
def PWR_AVS_ERRS_V : Fld := ⟨PWR_AVS_ERRS, 0, 32⟩
def MSIX_ADDR_LO_V : Fld := ⟨MSIX_ADDR_LO, 0, 32⟩
def MSIX_ADDR_HI_V : Fld := ⟨MSIX_ADDR_HI, 0, 32⟩
def MSIX_DATA_V : Fld := ⟨MSIX_DATA, 0, 32⟩
def MSIX_CTL_MASK : Fld := ⟨MSIX_CTL, 0, 1⟩
def MSIX_PBA_V : Fld := ⟨MSIX_PBA, 0, 32⟩

/-- Part 0 of the map. -/
def regs0 : List Reg := [SS_CTL, SS_STAT, SS_NITEMS, SS_NCASTS, SS_EVT, SS_EVT_EN, SS_WR_CNT, SS_THRU_CNT, SS_THRU_DEPTH, SS_REMOTE_CNT, SS_ECC_HANDLE, SS_IND_SEL, SS_IND_CMD, SS_IND_DATA_LO, SS_IND_DATA_HI, SS_HWR_HANDLE, SS_AWR_HANDLE, SS_HWR_CTL, SS_AWR_CTL, SS_HWR_STAT, SS_AWR_STAT, SS_HWR_DATA, SS_AWR_DATA, SS_CG_CTL, SS_CG_STAT, SS_CG_SEQ, SS_CG_PSEQ, SS_CG_LATE, SS_CG_COLLIDE, SS_CG_LASTCOL, SS_CG_OVR, SS_CG_STALE, SS_CG_TIME, SS_CG_PTIME, SS_CG_NITEMS, SS_CG_CMT, SS_CG_DONE, CE_CTL, CE_STAT, CE_PC]
/-- Part 1 of the map. -/
def regs1 : List Reg := [CE_BIND, CE_CYC, CE_GAP_OFF, CE_GAP_LEN, CE_SLACK_CUR, CE_SLACK_LAST, CE_SLACK_MIN, CE_SLACK_CLR, CE_LATE_CNT, CE_CYC_CNT, CE_PACE, CE_DIRTY_HW, CE_FREEZE_EST, CE_ERR, CE_ERR_EN, CE_SPL_MISS_A, CE_SPL_MISS_B, CE_LAST_FREEZE, CE_WAITMASK, CE_ECC_CNT, CE_GSTAT, CE_MAP, CE_SPARES, CE_MIG_CTL, CE_MIG_STAT, CE_MIG_LIMIT, CE_LD_SEL, CE_LD_ADDR, CE_LD_DATA, CE_LD_STAT, CE_MQ_PORT, CE_MQ_REF_BASE, CE_MQ_REF_LEN, CE_MQ_CAP_BASE, CE_MQ_CAP_LEN, CE_MQ_START_IG, TB_CTL, TB_STAT, TB_EVT, TB_EVT_EN]
/-- Part 2 of the map. -/
def regs2 : List Reg := [TB_SNAP, TB_SNAP_SEQ, TB_SNAP_FRC_LO, TB_SNAP_FRC_HI, TB_SNAP_D0_LO, TB_SNAP_D0_HI, TB_SNAP_D0_FRAC, TB_SNAP_D1_LO, TB_SNAP_D1_HI, TB_SNAP_D1_FRAC, TB_FRC_LO, TB_FRC_HI, TB_ALT_DRIFT, TB_D_CTL, TB_D_OFFS_LO, TB_D_OFFS_HI, TB_D_OFFS_FRAC, TB_D_LOAD, TB_D_ADJ, TB_D_RATE, TB_D_MEAS, TB_D_KP, TB_D_KI, TB_D_STEP_THR, TB_D_RATE_MAX, TB_D_INTEG, TB_D_STAT, TB_D_LASTE, TB_D_LOCK_THR, TB_WALK_CTL, TB_WALK_STAT, TB_WALK_REM, TB_TSF_STAT, TB_TSF_W0, TB_TSF_W1, TB_TSF_W2, TB_TSF_POP, TB_TSF_OVF, TB_PORT_CFG, TB_PORT_RXADJ]
/-- Part 3 of the map. -/
def regs3 : List Reg := [TB_PORT_TXADJ, TB_IG_CTL, TB_IG_START_LO, TB_IG_START_HI, TB_IG_PERIOD, TB_IG_PFRAC, TB_IG_WIDTH, TB_IG_NEXT_LO, TB_IG_NEXT_HI, TB_IG_CNT, TB_IG_SKIP, TB_IG_STAT, MAC_CTL, MAC_STAT, MAC_MAXLEN, MAC_ADDR_LO, MAC_ADDR_HI, MAC_PW, MAC_EVT, MAC_EVT_EN, MAC_PFC, MAC_WAKE_CTL, MAC_CNT, MAC_WP_DATA, MAC_WP_MASK, MAC_WP_LEN, SW_CTL, SW_AGE, SW_RES_LIMIT, SW_POOL_FREE, SW_LEARN_FAIL, SW_P_CFG, SW_P_PCPMAP, SW_P_CT_OUT, SW_P_LIM, SW_P_RSV, SW_P_PFC, SW_P_QCNT, SW_P_OWN, SW_P_DROP]
/-- Part 4 of the map. -/
def regs4 : List Reg := [SW_WRED_MIN, SW_WRED_MAX, SW_WRED_MAXP, SW_WRED, SW_CBS, SW_GCL_CTL, SW_GCL_BASE_LO, SW_GCL_BASE_HI, SW_GCL_CYCLE, SW_GCL_LEN, SW_GCL_CHG_LO, SW_GCL_CHG_HI, SW_GCL_STAT, SW_GCL_A, SW_GCL_B, SW_IND_SEL, SW_IND_CMD, SW_IND_STAT, SW_IND_DATA, CAN_CTL, CAN_STAT, CAN_ERRC, CAN_NBT, CAN_DBT, CAN_TDC, CAN_PWM, CAN_EVT, CAN_EVT_EN, CAN_RXF_STAT, CAN_RX_OVF, CAN_RX_ID, CAN_RX_FMT, CAN_RX_AF, CAN_RX_TS, CAN_RX_INFO, CAN_RX_POP, TXB_ID, TXB_FMT, TXB_AF, TXB_CTL]
/-- Part 5 of the map. -/
def regs5 : List Reg := [TXB_STAT, TXB_TS, CAN_FLT, CAN_TT_CTL, CAN_TT_NTU, CAN_TT_REF_ID, CAN_TT_RX_MARK, CAN_TT_RX_TS, CAN_TT_MISS, CAN_RX_DATA, CAN_TX_DATA, FX_CTL, FX_STAT, FX_HOLD_RELEASE, FX_EVT, FX_EVT_EN, FX_EDGE_STAT, FX_EDGE_W0, FX_EDGE_W1, FX_EDGE_POP, FX_EDGE_OVF, FX_GRP_CTL, FX_GRP_STAT, FX_GRP_VLP, FX_GRP_ILP, FX_GRP_LOCKS, FX_CH_CFG, FX_CH_CMD, FX_CH_STAT, FX_CH_DIAG, FX_CH_DIAG_EN, FX_CH_TS, FX_CH_CUR, FX_CH_SEG, FX_CH_RSEG, FX_CH_SCH_CTL, FX_CH_SCH_TIME, FX_CH_EDGES, FX_CH_OVLCNT, PWR_PD_CTL]
/-- Part 6 of the map. -/
def regs6 : List Reg := [PWR_PD_STAT, PWR_PD_VIN, RASP_START, RASP_START_STAT, RASP_EVT, RASP_TW_SEL, RASP_TW_DATA, RASP_U_CTL, RASP_U_DIV, RASP_U_ISEL, RASP_U_OMAP, RASP_U_CFG, RASP_U_STAT, RASP_U_SR, RASP_U_CNT, RASP_U_INJ, RASP_U_PULL, RASP_U_PUSH, RASP_U_EVT, RASP_U_EVT_EN, RASP_U_STEPS, GPIO_PIN, HMB_DATA, HMB_ACK, HMB_STAT, HMB_REJ, AMB_DATA, AMB_ACK, AMB_STAT, HDB_SET, HDB_CLR, HDB_MASK, ADB_SET, ADB_CLR, ADB_MASK, MBX_HEVT_EN, MBX_REJ_EN, MBX_AEVT_EN, HIF_STAT, HIF_ERR]
/-- Part 7 of the map. -/
def regs7 : List Reg := [HIF_EVT, HIF_ERR_EN, HIF_CPL_TO, HIF_TAGS, HIF_SPI_LAST, HIF_PCI_ID, HIF_PCI_SUBID, HIF_CHT_CTL, HIF_CHT_BASE_LO, HIF_CHT_BASE_HI, HIF_CHT_N, HIF_CHC_STAT, HIF_CHC_HIT, HIF_CHC_MISS, HIF_CHC_STALE, DMA_CTL, DMA_STAT, DMA_EVT_SUM0, DMA_EVT_SUM1, DQ_CTL, DQ_RING_LO, DQ_RING_HI, DQ_SIZE, DQ_HEAD, DQ_DB, DQ_TRIG, DQ_PULSE, DQ_OWN, DQ_STAT, DQ_EVT, DQ_EVT_EN, DQ_DONE_CNT, DQ_TRIG_MISS, DQ_RQ_LO, DQ_RQ_HI, DQ_RQ_SIZE, DQ_RQ_HEAD, DQ_RQ_TAIL, DQ_RQ_LOST, EVH_SRC_CFG]
/-- Part 8 of the map. -/
def regs8 : List Reg := [EVH_MASK, EVH_MASK_FENCE, EVH_SWSET, EVH_REMOTE, EVH_T_PEND, EVH_T_SUMMARY, EVH_T_CLAIM, EVH_T_EOI, EVH_T_CTL, EVH_T_STAT, EVH_T_FBCNT, MEM_CTL, MEM_STAT, MEM_SCRUB_PASS, MEM_EVT, MEM_EVT_EN, MEM_UE_ADDR, MEM_SPARES, MEM_REMAP_CTL, MEM_REMAP_STAT, MEM_SEC_STAT, MEM_MAP, MEM_BK_PWR, MEM_BK_STAT, MEM_BK_CE, MEM_BK_UE, MEM_BK_TEST, MEM_BK_SCRUB, RST_CAUSE, RST_STAT, RST_CTL, RST_AWD_CTL, RST_AWD_KICK, RST_AWD_LEFT, RST_BLK_CTL, RST_BLK_STAT, RST_IDLE_CE_LO, RST_IDLE_CE_HI, RST_IDLE_MAC, RST_IDLE_MISC]
/-- Part 9 of the map. -/
def regs9 : List Reg := [RST_IDLE_DQ_LO, RST_IDLE_DQ_HI, RST_CNT_SYS, RST_CNT_CORE, RST_BOOT_TIME, RST_HBOOT_LEN, RST_OPT, SEC_STAT, SEC_LC_CTR, SEC_KEYS, SEC_TAMPER, SEC_TAMPER_CNT, SEC_FW_STAT, SEC_FW_ADDR, SEC_DEVID, SEC_DIK_PUB, SEC_CHAIN, SEC_LOG_N, SEC_FW_R_BASE, SEC_FW_R_LIMIT, SEC_FW_R_PERM, SEC_FW_DEFAULT, PAT_CTL, PAT_STAT, PAT_EVT, PAT_EVT_EN, PAT_SHARE, PAT_WEAR_FLOOR, PAT_LANE_FLOOR, PAT_SEG_LIMIT, PAT_EPOCH, PAT_REQ_INT, PAT_RETRY, PAT_TEL_BASE, PAT_TEL_N, PAT_TEL_HEAD, PAT_TEL_SEQ, PAT_TEL_CTL, PAT_CE, PAT_AC]
/-- Part 10 of the map. -/
def regs10 : List Reg := [PAT_BK, PAT_LK, PAT_SG, PK_CTL, PK_STAT, PK_EVT, PK_EVT_EN, PK_DISCARD, PK_LINKMAP, PK_RA_ADDR, PK_RA_DATA, PK_RA_CMD, PK_RA_STAT, PK_RD_LOCAL, PK_RD_REMOTE, PK_RD_LEN, PK_RD_CTL, PK_RD_STAT, PK_RD_DONE, PK_RRST, PK_RRST_STAT, PK_TIME_CTL, PK_TIME_STAT, PK_TIME_LASTE, PK_L_CTL, PK_L_STAT, PK_L_RETRY, PK_L_DOWNS, PK_L_DELAY, PK_L_ASYM, PWR_CTL, PWR_STAT, PWR_VREQ, PWR_POWER, PWR_ECO, PWR_BUDGET, PWR_CAP, PWR_EVT, PWR_EVT_EN, PWR_AVS_ERRS]
/-- Part 11 of the map. -/
def regs11 : List Reg := [MSIX_ADDR_LO, MSIX_ADDR_HI, MSIX_DATA, MSIX_CTL, MSIX_PBA]
/-- Every register of the map. -/
def allRegs : List Reg := regs0 ++ regs1 ++ regs2 ++ regs3 ++ regs4 ++ regs5 ++ regs6 ++ regs7 ++ regs8 ++ regs9 ++ regs10 ++ regs11

end Sys2Proof.Machine.R
end

