-- ==== Sys2Proof/Machine/State.lean ====
section
/-! DEFINITION. The state of the device: every register, memory, queue and internal value the spec names (INVENTORY.md,
"State"), as plain data; the state right after reset; and the ways a step can stop. Registers stand in `regs`, keyed by
fabric address; each entry is the exclusive or of the register's word and its power-on word, so that an unlisted register
holds its power-on value and equal register files are equal data. -/
namespace Sys2Proof.Machine

/-- Why a step faults. No rule of the spec stops the block, and no meaning of this model answers a fault. -/
inductive Fault where
  deriving DecidableEq, Repr

/-- Why a command is refused. -/
inductive Refusal where
  /-- An arm of `exec` that has no meaning yet (safe: nothing is claimed of it). Raised by Dispatch only. -/
  | notModelled (mnemonic : String)
  deriving DecidableEq, Repr

/-- The answer to the last access: the word read, and whether the access ended with a bus error (R312, R314, R406). -/
structure BusSt where
  rdata : Word := 0
  err : Bool := false
  deriving DecidableEq, Repr

/-- Event hub (spec/15): the target a source's bit is presented to, and the target that has claimed it (both as target + 1,
0 for none), the time at which a bit on a sleeping target moves to its fallback (as time + 1), and the fallback to which a source's bit
moved, as target + 1, which counts while FB is 1 (R371). -/
structure EvhSt where
  presented : Tab Nat := []
  claimant : Tab Nat := []
  linger : Tab Nat := []
  moved : Tab Nat := []
  deriving DecidableEq, Repr

/-- An arbiter (R30, R423): the grants of the present window of 1,024, the word of PAT_SHARE in force in it (at first its POR
word), and for each background activity the rounds in which it asked since it was last granted. -/
structure ArbSt where
  grants : Nat := 0
  share : Word := 0x01010204
  since : Tab Nat := []
  deriving DecidableEq, Repr

/-- A write waiting at the store's write port (R41, R42, R61): its items, each a handle, the staged bits and their mask,
applied as one unit. -/
structure PortWrite where
  writer : Writer
  items : List (Nat × ItemBits × ItemBits)
  deriving DecidableEq, Repr

/-- A trigger of a commit group that the store has not cut yet (R47, R50): the model's time of its arrival, its scheduled
time (R14, R48), and whether it was deferred. -/
structure Trigger where
  at_ : Nat
  sched : Nat
  deferred : Bool
  deriving DecidableEq, Repr

/-- A cut that waits for the commit unit (R49): arrival of its trigger, and whether it has been processed. -/
structure CutSt where
  group : Nat
  at_ : Nat
  cutAt : Nat
  processed : Bool
  deriving DecidableEq, Repr

/-- A write port of the store for software (R493): staged bits and mask, and the writes held while it is busy. -/
structure WrPort where
  data : ItemBits := 0
  mask : ItemBits := 0
  held : List (Nat × Word) := []
  deriving DecidableEq, Repr

/-- A remote write on its way to another device (R61). -/
structure RemoteUnit where
  dev : Nat
  items : List (Nat × ItemBits × ItemBits)
  deriving DecidableEq, Repr

/-- Signal Store (spec/02). Written bits are keyed by image and handle. `turns` holds, for each requester of the write port that
waits, those granted since it began to wait (R42); `cutTime` the time that SS_CG_TIME shows 32 bits of. -/
structure StoreSt where
  items : Tab (BitVec 64) := []
  casts : Tab (BitVec 64) := []
  age : Tab Nat := []
  written : Tab Bool := []
  hurt : Tab Bool := []
  portQ : List PortWrite := []
  turns : Tab (List Nat) := []
  triggers : Tab (List Trigger) := []
  cutQ : List CutSt := []
  done : Tab Nat := []
  cutTime : Tab Nat := []
  hwr : WrPort := {}
  awr : WrPort := {}
  remoteOut : List RemoteUnit := []
  deriving DecidableEq, Repr

/-- A domain of the timebase (R163): offset in ns with 40 fraction bits, the last 8 measurements' magnitudes (R171). -/
structure DomSt where
  offs : BitVec 104 := 0
  last8 : List Nat := []
  deriving DecidableEq, Repr

/-- An instant generator (R176, R177): the schedule taken when it was enabled. Times are in ns with 16 fraction bits. -/
structure IgSt where
  armed : Bool := false
  mode : Bool := false
  dom : Nat := 0
  period : Nat := 0
  next : Nat := 0
  fired : Option Nat := none
  deriving DecidableEq, Repr

/-- A SYNC pin (R179): its level, the end of the pulse in progress in the model's time, and the idle level that a SYSTEM reset
found, to which that pulse returns (R395). -/
structure SyncPin where
  level : Bool := false
  pulseEnd : Option Nat := none
  idle : Option Bool := none
  deriving DecidableEq, Repr

/-- A record of the timestamp FIFO (R169). -/
structure TsRec where
  w0 : Word
  w1 : Word
  w2 : Word
  deriving DecidableEq, Repr

/-- A stretch of a domain's past in which its offset had one rate (R163): the FRC at its start, the offset there, the rate. -/
structure DomSeg where
  frc : Nat
  offs : BitVec 104
  rate : Int
  deriving DecidableEq, Repr

/-- Timebase (spec/06); `past` holds what the last 2^22 ns of each domain were, for stamps of earlier moments (R261). -/
structure TimeSt where
  frc : BitVec 64 := 0
  past : Tab (List DomSeg) := []
  d0 : DomSt := {}
  d1 : DomSt := {}
  frcHi : Tab Word := []
  ig : Tab IgSt := []
  sync : Tab SyncPin := []
  tsf : List TsRec := []
  xrefAt : Nat := 0
  deriving DecidableEq, Repr

/-- A queue-independent part of the host interface (spec/12): whether the function is in D3hot, MSI-X is enabled and its
function mask is set (R304), the bases of its two BARs (R302), and what the quad-SPI target sent after the turnaround of the last frame, wait bytes aside (R307). -/
structure HifSt where
  d3hot : Bool := false
  msixEn : Bool := false
  msixFMask : Bool := false
  bar0 : Word := 0
  bar2 : BitVec 64 := 0
  spiOut : List Byte := []
  deriving DecidableEq, Repr

/-- A write-back that has not reached its slot yet (R99): the slot, the register and value, and the flags it sets. -/
structure Wb where
  slot : Nat
  reg : Option (Nat × Word)
  flags : Option (Option Bool × Option Bool × Option Bool × Option Bool)
  deriving DecidableEq, Repr

/-- What an engine waits for (R115, R116, R120). -/
inductive EngWait where
  | none
  | lines (mask : Word) (keep all : Bool) (wd : Nat)
  | time (dom : Nat) (target : Word) (wd : Nat)
  | ioRead (addr : Nat) (wd : Nat)
  | ioWrite (addr : Nat) (v : Word)
  deriving DecidableEq, Repr

/-- An item-window slot of an engine (R43, R44). -/
structure IwSlot where
  handle : Nat := 0
  data : ItemBits := 0
  mask : ItemBits := 0
  busy : Bool := false
  err : Bool := false
  deriving DecidableEq, Repr

/-- An instant slot of an engine's timebase window (R181), with the time that its one-shot target names and the scheduled time of
its first firing in the current cycle (R82). -/
structure ISlot where
  ctl : Nat := 0
  time : Word := 0
  armed : Bool := false
  last : Word := 0
  target : Nat := 0
  firstInCycle : Option Nat := none
  deriving DecidableEq, Repr

/-- A word of a receive or extract FIFO with its status (R74, RXS and XS). -/
structure RxWord where
  data : Word
  stat : Word
  ts : Word
  deriving DecidableEq, Repr

/-- A splice entry (R75): POS, length, direction, EOL, handle, its index in the ring, and the view taken for an insert
(R76): the item's width in bits and its value. -/
structure SplEntry where
  pos : Nat
  len : Nat
  insert : Bool
  eol : Bool
  handle : Nat
  index : Nat
  view : Option (Nat × Nat) := none
  deriving DecidableEq, Repr

/-- A frame that an engine is sending (R74, R83): its words so far, its traffic class, the domain and scheduled time of its start,
the domain time at which its first word arrived, whether it has started and on which port, whether it is complete, and whether it
has been cut (R13) or dropped (R83), so that the rest of its words are discarded. -/
structure TxFrame where
  words : List Word := []
  cls : Nat := 0
  sched : Option (Nat × Nat) := none
  firstAt : Nat := 0
  started : Bool := false
  port : Nat := 0
  eof : Bool := false
  cut : Bool := false
  deriving DecidableEq, Repr

/-- A timestamp of a port as its MAC takes it at the SFD (R167, R169): the corrected time in quarter ns, its domain, the low 8 bits
of the domain's STEPS, and the model's time. -/
structure Stamp where
  q : Int := 0
  dom : Nat := 0
  steps : Nat := 0
  at_ : Nat := 0
  deriving DecidableEq, Repr

/-- A port window of an engine (R74). -/
structure PortWin where
  rx : List RxWord := []
  rxs : Word := 0
  rxts : Word := 0
  xd : List RxWord := []
  xs : Word := 0
  txs : List TxFrame := []
  late : Bool := false
  dropped : Bool := false
  e0 : Word := 0
  ring : List SplEntry := []
  head : Nat := 0
  ctl : Word := 0
  deriving DecidableEq, Repr

/-- A Chisel engine under its logical number (spec/03, spec/04). Its memories stand in `mem`; `bad` holds the pack's words that
Patina reloads at the next migration (R69), `closing` the slot whose close the write port has not accepted (R113), `cycAt` the
last cycle instant since the start (R86), `sdci` the characters that the field service has relayed to it, with their channels (R280),
and `dirtyAll` the data words written since the start (R88). -/
structure Eng where
  w : Tab Word := []
  z : Bool := false
  c : Bool := false
  n : Bool := false
  v : Bool := false
  pc : BitVec 12 := 0
  npc : BitVec 12 := 1
  pos : Nat := 0
  lastW : Nat := 0
  wbs : List Wb := []
  wait : EngWait := .none
  outQ : List (Nat × Word) := []
  closing : Option Nat := none
  events : Word := 0
  slots : Tab ISlot := []
  tlat : List Word := []
  iw : Tab IwSlot := []
  cgSel : Nat := 0
  atlTx : List Word := []
  atlRx : List Word := []
  atlDb : Nat := 0
  nb : List Word := []
  packSlot : Nat := 0
  winA : PortWin := {}
  winB : PortWin := {}
  attach : Option Nat := none
  link : Bool := false
  startDue : Bool := false
  stopPend : Bool := false
  haltDue : Bool := false
  dirtyNow : List Nat := []
  dirtyHist : List Nat := []
  dirtyAll : List Nat := []
  cycAt : Option Nat := none
  bad : Tab (Word × Bool) := []
  sdci : List (Nat × Byte) := []
  deriving DecidableEq, Repr

/-- A live migration (R86): the target, the words written since the copy, the state the engine was frozen in and when, the
cycle whose gap was last looked at, and whether Patina began it (R430). -/
structure MigSt where
  target : Nat := 0
  dirty : List Nat := []
  was : Nat := 0
  freezeAt : Nat := 0
  gapSeen : Nat := 0
  patina : Bool := false
  deriving DecidableEq, Repr

/-- The engine array's shared part (spec/03): the clear of a space in progress, the migration, the capture and record positions of
Maquette mode, and for each port the firing of CE_MQ_START_IG whose reference frames are being played and those presented (R92). -/
structure EngArr where
  zero : Option (Nat × Bool) := none
  mig : MigSt := {}
  capPos : Nat := 0
  recPos : Nat := 0
  played : Tab (Nat × List Nat) := []
  deriving DecidableEq, Repr

/-- A frame passing a port's splice unit (R74, R75): its owner and window, the engine whose SPL_CTL directs it and the
destination, the bytes in and out, the head entry's progress, the bytes not yet given to RXD, and its times: the receive stamp, RXTS,
the offset that a record list gives it (R92), and the port on whose wire it leaves as it arrives with the stamp taken there.
`txGone` tells that this leaving copy has been cut (R13), `src` holds the bytes still to come of a frame from a Maquette source (R91). -/
structure PassFrame where
  owner : Option Nat := none
  sideB : Bool := false
  byEng : Option Nat := none
  fwd : Nat := 0
  regen : Bool := false
  inB : List Byte := []
  outB : List Byte := []
  started : Bool := false
  inserted : Bool := false
  eolSeen : Bool := false
  cur : List Byte := []
  rxPend : List Byte := []
  rxPos : Nat := 0
  ended : Bool := false
  stamp : Stamp := {}
  rxts : Word := 0
  mqOff : Nat := 0
  tx : Option (Nat × Stamp) := none
  txGone : Bool := false
  src : Option (List Byte) := none
  deriving DecidableEq, Repr

/-- A port outside the switch core (spec/08): the frame passing its splice unit, the start and the end of the frame on its transmit
wire, whether a frame is on it whose end has not come and its stamp, the last frame sent as the wire carried it and whether it was cut
(R13: on a line lane it ends with an error code group, on a PHY port with an invalid FCS), the ingress port of a cut-through copy on
the wire, the MAC control frames (R220) and the spliced frames (R74) that wait for the wire, preemption verify attempts and the time
of the last, and the frames that a Maquette loop carries to the port's receive path; of an open frame, whether it began in a Maquette
mode and the ports whose receive path it feeds (R91). Of preemption (R222): whether the
frame on the wire is preemptable, its class, when its present fragment began and the bytes left then, and the bytes of a
preempted frame that wait. -/
structure PortSt where
  pass : Option PassFrame := none
  txAt : Nat := 0
  txEnd : Nat := 0
  txOpen : Bool := false
  mqOn : Bool := false
  mqTo : List Nat := []
  txStamp : Stamp := {}
  txCut : Bool := false
  txCls : Option Nat := none
  tsOut : List TsRec := []
  tsRest : Option TsRec := none
  held : Option PassFrame := none
  wire : List Byte := []
  ctFrom : Option Nat := none
  ctl : List (List Byte) := []
  spl : List (List Byte × Option (Nat × Option (Nat × Nat))) := []
  verify : Nat := 0
  verifyAt : Nat := 0
  loop : List (List Byte) := []
  pre : Bool := false
  preCls : Nat := 0
  preAt : Nat := 0
  preLeft : Nat := 0
  rest : Nat := 0
  deriving DecidableEq, Repr

/-- A frame in the cell buffer (R228): its bytes, the cells it holds (shared and reserved), its arrival, class, colour, ingress
port and ingress time, and the attached engine that it is for (R242). -/
structure SwFrame where
  bytes : List Byte
  shared : Nat
  rsv : Nat
  at_ : Nat
  cls : Nat
  colour : Nat
  ingress : Nat
  ts : Int
  eng : Option Nat := none
  deriving DecidableEq, Repr

/-- A held class of a port's transmitter (R219): until when, and since when without interruption (R221). -/
structure PauseSt where
  till : Nat := 0
  deriving DecidableEq, Repr

/-- A meter's buckets (R240): committed and excess tokens in bits × 10^6, and the time of the last fill. -/
structure MeterSt where
  c : Nat := 0
  e : Nat := 0
  at_ : Nat := 0
  deriving DecidableEq, Repr

/-- A recovery entry (R241): the highest sequence number taken, the history window below it, whether one was taken since
the reset, the time of the last one, and the generator's next number. -/
structure FrerSt where
  seq : Nat := 0
  hist : Nat := 0
  taken : Bool := false
  at_ : Nat := 0
  gen : Nat := 0
  deriving DecidableEq, Repr

/-- The gate list of a port that runs (R235): start of the current cycle and of the current entry, in domain ns, and
whether it has started. -/
structure GclSt where
  running : Bool := false
  len : Nat := 0
  cycle : Nat := 0
  entry : Nat := 0
  chgAt : Nat := 0
  deriving DecidableEq, Repr

/-- The switch core (spec/08). Table words are keyed by table, entry and word; queues by port and class. -/
structure SwSt where
  tables : Tab Word := []
  queues : Tab (List SwFrame) := []
  ingress : Tab Nat := []
  xoff : Tab Bool := []
  pause : Tab PauseSt := []
  pwSince : Tab Nat := []
  pwUntil : Tab Nat := []
  wred : Tab Nat := []
  meters : Tab MeterSt := []
  frer : Tab FrerSt := []
  credit : Tab Int := []
  creditAt : Tab Nat := []
  gcl : Tab GclSt := []
  fdbAt : Tab Nat := []
  ports : Tab PortSt := []
  deriving DecidableEq, Repr

/-- The switch tables after a reset: VLAN 1 holds all 30 ports as members, all untagged (spec/08, "Indirect entries"); its
FID is not given: 0. DESIGN CHOICE -/
def vlanOneReset : Tab Word :=
  [(0x1000008, 0x3FFFFFFF), (0x1000009, 0x3FFFFFFF), (0x100000A, 0x10000)]
/-- What a command that Atelier has taken and not yet acknowledged waits for (R329, "Acknowledged when"): a verification, an
instance, a substitution, a report with its place and body, a life-cycle change, a WAIT record with the place of the batch, its
index and its start, or a restart after which its acknowledge is written (R315, R344). -/
inductive Job where
  | none
  | packLoad
  | packStop (inst : Nat)
  | engine (e : Nat)
  | bank (b : Nat)
  | lane (k : Nat)
  | segment (n : Nat)
  | attest (addr : Nat) (body : List Byte)
  | lifeCycle
  | record (addr i since : Nat)
  | done (status value : Nat)
  deriving DecidableEq, Repr

/-- An entry of the channel table as cached (R319, R321): its channel and its 64 bytes. -/
structure ChEntry where
  ch : Nat
  bytes : List Byte
  deriving DecidableEq, Repr

/-- Atelier's command service (spec/12, spec/13): the mailboxes accepted and not yet taken in acceptance order (R342), the
commands in progress, the doorbell each rings at its acknowledge, the notifications that wait (R345), the channel cache
(least recently used first), the entries of the running streams, the slot of an open firmware update (R338), MIN_PERIOD of
each group (R333), and when each mailbox last accepted a command (R305). -/
structure CmdSt where
  order : List Nat := []
  jobs : Tab Job := []
  ring : Tab Nat := []
  notes : List Word := []
  lost : Nat := 0
  cache : List ChEntry := []
  streams : List ChEntry := []
  fwOpen : Option Nat := none
  minPeriod : Tab Nat := []
  since : Tab Nat := []
  deriving DecidableEq, Repr

/-- A copy of the life record (R427): its SEQ, the baselines, the retired units and the mappings of engines and banks. -/
structure LifeRec where
  seq : Nat := 0
  base : Tab Nat := []
  retired : List Nat := []
  ceMap : Tab Nat := []
  bkMap : Tab Nat := []
  deriving DecidableEq, Repr

/-- Patina's own memory (spec/19): baselines by unit (kind × 1,024 + number), the paces gathered before the baselines are
taken and the ratios gathered in the epoch, when the next SPARE_REQUEST of a unit and the retry of an abandoned engine
substitution fall, whether the life record must be rewritten, the corrected errors of each bank when the epoch began, when
the epoch and the gathering began, the two copies of the life record, the core slots' cores (kept as slot + 8 × core where
not the default), the core slot whose swap is armed, when the telemetry was last written, and what calibration last set (R436): the
PHY trims by port, the offset of the field die's ADC, and the temperature sensors that are excluded; whether policy has to look
at the WORN units again because a substitution has ended (R431), and the physical engines whose substitution is held (R432). -/
structure PatSt where
  base : Tab Nat := []
  paces : Tab (List Nat) := []
  ratios : Tab (List Nat) := []
  reqAt : Tab Nat := []
  retry : Option (Nat × Nat) := none
  recDue : Bool := false
  ceAt : Tab Nat := []
  epochAt : Nat := 0
  recA : Option LifeRec := none
  recB : Option LifeRec := none
  coreMap : Tab Nat := []
  coreArm : Option Nat := none
  telAt : Nat := 0
  trim : Tab Nat := []
  adcOff : Nat := 0
  excluded : List Nat := []
  look : Bool := false
  held : List Nat := []
  deriving DecidableEq, Repr

/-- A message of a CAN receive FIFO (R252): its words and data. -/
structure CanMsg where
  id : Word
  fmt : Word
  af : Word
  ts : Word
  info : Word
  data : List Byte
  deriving DecidableEq, Repr

/-- A CAN controller outside its registers (spec/09): the receive FIFO, where RXD and each TXk_D stand, the buffers in TX to
be aborted, the start of frame of each buffer's last attempt, the time master's cycle count, the cycles that a time receiver has
gone without a reference message (R257), the levels of CANn_TX and CANn_EN (R255), and of the attempt in progress the secondary
sample point in kernel periods and, where its data phase is PWM coded, the short, long and offset periods that CAN_PWM gives (R245). -/
structure CanSt where
  rx : List CanMsg := []
  rdPos : Nat := 0
  txPos : Tab Nat := []
  abort : Tab Bool := []
  sof : Tab Word := []
  cycle : Nat := 0
  missed : Nat := 0
  tx : Bool := true
  en : Bool := false
  ssp : Option Nat := none
  pwm : Option (Nat × Nat × Nat) := none
  deriving DecidableEq, Repr

/-- A Rasp unit (spec/11, R288): its working registers, the outputs last written, the FIFOs (pull words beyond the eighth wait
at its door, R15), a stalled entry, an injected one, a pending flip, the step ticks left of a WAIT, the snapshot flag, the
origin of its step ticks and the number of the next one, whether a stopped unit still keeps its pins, and the number of the tick at
which a write of EN = 0 acts (R297). -/
structure RaspSt where
  run : Bool := false
  state : Nat := 0
  sr : Word := 0
  sc : Nat := 0
  cnt : BitVec 16 := 0
  sob : Bool := false
  lanes : BitVec 4 := 0
  oe : BitVec 4 := 0
  pull : List Word := []
  push : List Word := []
  stalled : Option Word := none
  inj : Option Word := none
  flip : Bool := false
  wait : Nat := 0
  snap : Bool := false
  t0 : Nat := 0
  k : Nat := 0
  hold : Bool := false
  stop : Option Nat := none
  deriving DecidableEq, Repr

/-- The Rasp units (spec/11): the units, their tables by unit, bank and index, the levels last sampled at the GPIO balls, the
tick at which the instant of a synchronous start occurred, and the former entries of an active bank that a lookup may still see (R296). -/
structure RaspBlk where
  units : Tab RaspSt := []
  tab : Tab Word := []
  balls : BitVec 64 := 0
  due : Option Nat := none
  late : Tab Word := []
  deriving DecidableEq, Repr

/-- A burst in flight (R352): its offset in the descriptor and its length. -/
structure Burst where
  off : Nat
  len : Nat
  since : Nat := 0
  deriving DecidableEq, Repr

/-- A DMA queue at work (spec/14): 0 nothing, 1 the descriptor read is under way, 2 executing, 3 to be returned; the
descriptor's words; the bytes granted and the bytes completed; the status that has arisen; the bursts in flight; whether it
holds a grant (R354); whether the record queue has wrapped an odd number of times (R356); when the descriptor read began
(R305), and whether it waits for a PCIe tag (R354). -/
structure DqSt where
  phase : Nat := 0
  ctl : Nat := 0
  len : Nat := 0
  src : Nat := 0
  dst : Nat := 0
  issued : Nat := 0
  done : Nat := 0
  result : Option Nat := none
  bursts : List Burst := []
  held : Bool := false
  wraps : Bool := false
  record : Bool := false
  lastDone : Nat := 0
  asked : Nat := 0
  wait : Bool := false
  deriving DecidableEq, Repr

/-- The DMA engine: its queues, the queue last granted at each level, the rounds since level 0 was granted (R353), the frame
at the head of HDMA receive without its FCS, the frame that each queue is giving HDMA transmit, and the queue that takes
the frame of HDMA receive (R359). -/
structure DmaSt where
  q : Tab DqSt := []
  last : Tab Nat := []
  since0 : Nat := 0
  hrx : List Byte := []
  htx : Tab (List Byte) := []
  hrxBy : Option Nat := none
  deriving DecidableEq, Repr
/-- A pack slot (R131): the pack's header fields and where its verified image lies in the pack image area (R132, R407). -/
structure PackSlot where
  loaded : Bool := false
  code : Nat := 0
  release : Nat := 0
  svn : Nat := 0
  flags : Nat := 0
  roles : Nat := 0
  addr : Nat := 0
  len : Nat := 0
  deriving DecidableEq, Repr

/-- An instance (R134, R158): its record's STATE, slot, PACK_CODE, WAITCHK_OFF, role bit and channel, the engines, generators and groups it holds,
its items, its ports, its time need and the source it follows (R138), its domain, the sum of
its groups' LATE counts at its last cycle, the words of its record that are kept and when its counters were last brought on; the generators of its cycles, the units
that its engines are counted by, its Rasp units, GPIO pins, CAN controllers, field channels and scratch area (R141, R143), and the
FDB entries and stream filters that were installed for it (R137). -/
structure Inst where
  used : Bool := false
  st : Nat := 0
  slot : Nat := 0
  code : Nat := 0
  noCheck : Bool := false
  role : Nat := 0
  ch : Nat := 0
  engines : List Nat := []
  groups : List Nat := []
  igs : List Nat := []
  first : Nat := 0
  n : Nat := 0
  ports : Nat := 0
  need : Nat := 0
  src : Nat := 0
  dom : Nat := 0
  late : Nat := 0
  words : Tab Word := []
  countAt : Nat := 0
  units : Nat := 0
  rasps : List Nat := []
  pins : List Nat := []
  cans : List Nat := []
  chans : List Nat := []
  area : Option Nat := none
  cycs : List Nat := []
  fdb : List (Nat × Nat) := []
  filters : List Nat := []
  deriving DecidableEq, Repr

/-- The packs that Atelier holds (spec/05): slots, instances, and loads that wait for Armature in acceptance order, each the
mailbox and the image as read (R331). -/
structure PackSt where
  slots : Tab PackSlot := []
  insts : Tab Inst := []
  loads : List (Nat × List Byte) := []
  deriving DecidableEq, Repr

/-- A field channel outside its registers (spec/10): a level held for APPLY_IG (R267), and one whose instant has come with its domain
and time; the 8 ns tick at which a schedule entry last fired (R269); whether a thermal trip holds the switch off (R264); when the
switch turned on, latest first, and last turned off (R274); the level that its input stage has been seen to read back against the
switch (R258); the FRC time from which a run of samples may begin (R260); a segment swap's worn segment and end (R263), the segment
retired, a wake-up pulse's level and end, and the last characters of its UART cell (R280), the level the field service last sent, and
its state and edge-time items (R278). -/
structure FxChan where
  applied : Option Bool := none
  due : Option (Bool × Nat × Nat) := none
  fired : Option Nat := none
  tripped : Bool := false
  ons : List Nat := []
  offAt : Nat := 0
  back : Option Bool := none
  runAt : Nat := 0
  worn : Option (Nat × Nat) := none
  retired : Option Nat := none
  wake : Option (Bool × Nat) := none
  rxChar : Option Byte := none
  txChar : Option Byte := none
  sent : Option Bool := none
  item : Option Nat := none
  timeItem : Option Nat := none
  deriving DecidableEq, Repr

/-- The field die and the field service (R277, R278): channels, the firings due of each schedule entry as domain and time
(R268), the offsets on which entries with REF = 1 are armed, the edge FIFO, the start of HOLD (R282), and the service's engine, generator, first handle and first signal. -/
structure FieldSt where
  ch : Tab FxChan := []
  due : Tab (List (Nat × Nat)) := []
  edges : List (Word × Word) := []
  offs : Tab Nat := []
  holdAt : Nat := 0
  svc : Option (Nat × Nat × Nat × Nat) := none
  deriving DecidableEq, Repr

/-- The pace governor (R461 to R463): the target of the VCORE request, when it last moved and last stepped, and whether
AVSBus failures hold it. -/
structure PwrSt where
  target : Nat := 800
  movedAt : Nat := 0
  stepAt : Nat := 0
  hold : Bool := false
  deriving DecidableEq, Repr
/-- On-chip memory outside its registers (spec/16): the bank, window and former state of a transparent test, the bank at which
the scrubber stands, power requests that wait for a test's end (as state + 1), the spare that a substitution fills, whether
Patina began it, and the windows completed (R435). -/
structure MemSt where
  test : Option (Nat × Nat × Nat) := none
  scrub : Nat := 0
  req : Tab Nat := []
  spare : Nat := 0
  patina : Bool := false
  windows : Nat := 0
  deriving DecidableEq, Repr

/-- The Plinth links (spec/20): the packets of each link that are sent and not acknowledged, the destinations whose packets
wait for a route change and those packets (R444), deadlines of the remote accesses (R446), the lane swap in progress on each
link (the lane + 1, and whether Patina began it), the spare lane's place on each link (the lane replaced + 1), when the last time
message was sent (R450), and the sources whose event message is on its way (R448). -/
structure PkSt where
  out : Tab (List Packet) := []
  hold : Tab Bool := []
  held : List Packet := []
  raEnd : Tab Nat := []
  swap : Tab (Nat × Bool) := []
  spareAt : Tab Nat := []
  timeAt : Nat := 0
  sent : List Nat := []
  deriving DecidableEq, Repr
/-- Reset and boot (spec/17): the monitored rails outside their ranges, one bit each; the end of each source's assertion, by its bit in
RST_CAUSE (as time + 1); the widest reach asserted since the last completed exit sequence (0 POR, 1 SYSTEM, 2 CORE); how far
its exit has come (0 asserted, 1 released, 2 memories ready, 3 an image to be verified, 4 cores released, 5 complete, 6
waiting for a host image, 7 stopped, 8 resuming a life-cycle change, 9 waiting for the secure bank's wipe); when it was released; the flash slot tried and whether it is the second one; whether the
host wrote the image; the image's length; the device resets that BLOCK_RESET scheduled, as reach and time (R340); when the
Atelier watchdog expires (as time + 1); when a rail last left its window (R387) and when Armature last served its watchdog (R392); the
flash slots whose image was never committed (R338, R402); and the times of the tamper resets (R421). -/
structure BootSt where
  rails : Nat := 0
  ends : Tab Nat := []
  reach : Option Nat := some 0
  phase : Nat := 1
  releasedAt : Nat := 0
  slot : Nat := 0
  second : Bool := false
  fromHost : Bool := false
  len : Nat := 0
  hostReset : List (Nat × Nat) := []
  awdEnd : Nat := 0
  railAt : Nat := 0
  armAt : Nat := 0
  unfit : List Nat := []
  tampers : List Nat := []
  deriving DecidableEq, Repr

/-- An operation of a life-cycle token (R412, R414). -/
structure TokOp where
  op : Nat
  slot : Nat
  pack : Nat
  value : Nat
  key : List Byte
  deriving DecidableEq, Repr

/-- A life-cycle change or key update in progress, as journaled (R401, R410): its LC_LOG entry, the target state, whether it is
a key update, whether a reset interrupted it, its operations and the signer's key. -/
structure LcChange where
  entry : Nat
  target : Nat
  update : Bool
  resumed : Bool := false
  ops : List TokOp
  pub : List Byte
  deriving DecidableEq, Repr

/-- Armature (spec/18): the public keys of the flash key record by KEY_ID (R416), the change in progress, the number of the
present challenge, the failed unlocks since POR, the events that wait to be logged while the secure bank is locked (R383, R418), and what the JTAG port last read (R422). -/
structure SecSt where
  keys : Tab (List Byte) := []
  lc : Option LcChange := none
  chal : Nat := 0
  fails : Nat := 0
  late : List (Nat × Nat × List Byte) := []
  tdo : List Byte := []
  deriving DecidableEq, Repr

/-- The configuration of a Frieze instance (R207), its tables read at pack start: node IDs in slot order, the lengths of each
section, and the branch map (node ID, port code, CLUSTER_ID, candidate, present); and the width in bits of the items that its areas
are split into (R157). -/
structure FzCfg where
  cycle : Nat := 0
  sampleOff : Int := 0
  latchOff : Nat := 0
  acycOff : Nat := 0
  miniLen : Nat := 0
  guard : Nat := 0
  acycMax : Nat := 0
  etype : Nat := 0
  node : Nat := 0
  delayInt : Nat := 0
  cand : Bool := false
  da : List Byte := []
  slots : List Nat := []
  sects : List (Nat × Nat) := []
  branches : List (Nat × Nat × Nat × Bool × Bool) := []
  itemBits : Nat := 1024
  deriving DecidableEq, Repr

/-- A branch of a star (R196 to R202, R210): its state; RT_n; the samples of its calibration; the cycles of its last strikes,
their number and the quarantines; REPORTED_D; calibration failures; the last and the largest deviation; T_n of this cycle's relay,
if there was one; whether a start was accepted, and whether one came in calibration; the starts seen in this cycle; whether its
mini-slot is used; the consecutive cycles without a return, and without a start; and whether its gate is open, with the edges to come
(in whole ns, and whether it opens). RT_n and the deviations are in ns, the
other times in quarter ns of Frieze time. -/
structure FzBranch where
  st : Nat := 0
  rt : Nat := 0
  samples : List Int := []
  strikes : List Nat := []
  total : Nat := 0
  quar : Nat := 0
  repD : Nat := 0
  calFail : Nat := 0
  dev : Int := 0
  maxDev : Nat := 0
  tn : Option Int := none
  acc : Bool := false
  ret : Bool := false
  seen : Nat := 0
  mini : Bool := false
  missed : Nat := 0
  silent : Nat := 0
  open_ : Bool := false
  edges : List (Nat × Bool) := []
  deriving DecidableEq, Repr

/-- The gate of a branch that this device carries for a star head on another (R206): the generator that places its edges, the edges to come
in cluster time, and whether it is open. -/
structure FarGate where
  ig : Nat := 0
  edges : List (Nat × Bool) := []
  open_ : Bool := false
  deriving DecidableEq, Repr

/-- A Frieze instance (spec/07). Of a node: its state (0 LISTEN, 1 COLDSTART, 2 ACTIVE, 3 LEADER), the CYCLE of its previous valid
frame and how many it has had since LISTEN, when its listen timeout began, LEADER_TIME of its cold-start frame, cycles without
its frame's return, how many nodes its last returned frame had in data exchange, the results of its delay measurement in 2^-8 ns, the cycle of its last request and t1, the payloads
received, whether it knows S_k, whether the present cycle's frame has come, the inputs captured at SAMPLE with the cycle they are for,
and the frames that wait for its mini-slot (when asked for, KIND, destination, payload). Of a star: whether it is in NET_RUN, the leader, d_used in 2^-8 ns, the position of the relay, the frame as it
goes on and whether its FCS is to be good, whether an origination was accepted and its start, the cycles without one and whether the present one is counted among them, the branches and the cold-start frames that have arrived (time, node,
frame, Frieze time), whether the relay under way is cut short, and the generators of its branches' gates by node ID. Of both: S_k of the present
cycle and its count, and its generators with their offsets from S_k. Times are ns of Frieze time. -/
structure FzInst where
  role : Nat := 0
  dom : Nat := 0
  port : Nat := 0
  cfg : FzCfg := {}
  s0 : Nat := 0
  k : Nat := 0
  st : Nat := 0
  rxK : Nat := 0
  valid : Nat := 0
  since : Nat := 0
  csAt : Nat := 0
  missed : Nat := 0
  up : Nat := 0
  delays : List Int := []
  reqAt : Option Nat := none
  acq : Bool := false
  t1 : Int := 0
  rxData : List (List Byte) := []
  mini : Bool := false
  phased : Bool := false
  got : Bool := false
  sample : Option (Nat × List Nat) := none
  due : List (Nat × Nat × Nat × List Byte) := []
  igs : List (Nat × Nat) := []
  gates : List (Nat × Nat) := []
  cut : Bool := false
  run : Bool := false
  leader : Nat := 0
  dUsed : Int := 0
  pos : Option Nat := none
  frame : List Byte := []
  good : Bool := true
  origin : Option Int := none
  lost : Nat := 0
  lostSeen : Bool := false
  br : Tab FzBranch := []
  cold : List (Int × Nat × List Byte × Int) := []
  deriving DecidableEq, Repr

/-- The machine. `now` is the model's own count of ns since POR was released, `freeCtr` numbers the free values, and
`pending` is the queue of commands that wait, first in, first out. -/
structure State where
  regs : Tab Word := []
  mem : List Host.Cell := []
  now : Nat := 0
  freeCtr : Nat := 0
  bus : BusSt := {}
  evh : EvhSt := {}
  store : StoreSt := {}
  time : TimeSt := {}
  engs : Tab Eng := []
  engArr : EngArr := {}
  hif : HifSt := {}
  sw : SwSt := { tables := vlanOneReset }
  cmd : CmdSt := {}
  pat : PatSt := {}
  can : Tab CanSt := []
  rasp : RaspBlk := {}
  dma : DmaSt := {}
  packs : PackSt := {}
  field : FieldSt := {}
  pwr : PwrSt := {}
  ocm : MemSt := {}
  pk : PkSt := {}
  boot : BootSt := {}
  sec : SecSt := {}
  fz : Tab FzInst := []
  farGates : Tab (Option FarGate) := []
  starve : Tab Nat := []
  arbs : Tab ArbSt := []
  pending : List Instr := []
  deriving DecidableEq, Repr

/-- The device right after its power-on reset is released, as shipped (R488): every register at its POR value, memories
with nothing listed, nothing in progress. -/
def State.reset : State := {}

end Sys2Proof.Machine
end

