-- ==== Sys2Proof/Machine/Ops.lean ====
section
/-! DEFINITION. The named operations over registers and memories: every read and write of a register of the map, a field, a
count, a memory byte or word goes through these (R3 to R6, R21). -/
namespace Sys2Proof.Machine

/-- The word of a register. -/
def State.rd (s : State) (r : Reg) (i : Nat := 0) (j : Nat := 0) (k : Nat := 0) : Nat :=
  (tabGet 0 s.regs (r.addr i j k) ^^^ w32 (r.por i)).toNat

/-- Give a register a word. -/
def State.wr (s : State) (r : Reg) (v : Nat) (i : Nat := 0) (j : Nat := 0) (k : Nat := 0) : State :=
  { s with regs := tabSet 0 s.regs (r.addr i j k) (w32 v ^^^ w32 (r.por i)) }

/-- The number in a field. -/
def State.get (s : State) (f : Fld) (i : Nat := 0) (j : Nat := 0) (k : Nat := 0) : Nat :=
  bits (s.rd f.reg i j k) f.lo f.width

/-- Give a field a number; the register's other bits keep their values. -/
def State.put (s : State) (f : Fld) (v : Nat) (i : Nat := 0) (j : Nat := 0) (k : Nat := 0) : State :=
  s.wr f.reg (setBits (s.rd f.reg i j k) f.lo f.width v) i j k

/-- Whether a field is not zero. -/
def State.on (s : State) (f : Fld) (i : Nat := 0) (j : Nat := 0) (k : Nat := 0) : Bool := s.get f i j k != 0

/-- Set a flag. -/
def State.raise (s : State) (f : Fld) (i : Nat := 0) (j : Nat := 0) (k : Nat := 0) : State := s.put f 1 i j k

/-- Clear a flag. -/
def State.clr (s : State) (f : Fld) (i : Nat := 0) (j : Nat := 0) (k : Nat := 0) : State := s.put f 0 i j k

/-- Add to a count that saturates. -/
def State.addSat (s : State) (f : Fld) (n : Nat) (i : Nat := 0) (j : Nat := 0) (k : Nat := 0) : State :=
  s.put f (satAdd f.width (s.get f i j k) n) i j k

/-- Add to a count that wraps. -/
def State.addWrap (s : State) (f : Fld) (n : Nat) (i : Nat := 0) (j : Nat := 0) (k : Nat := 0) : State :=
  s.put f (s.get f i j k + n) i j k

/-- The signed number in a 32-bit register. -/
def State.gets (s : State) (f : Fld) (i : Nat := 0) (j : Nat := 0) (k : Nat := 0) : Int := s32 (s.get f i j k)

/-- A 64-bit quantity in two registers, lower word first (R6). -/
def State.get64 (s : State) (lo hi : Reg) (i : Nat := 0) : Nat := s.rd lo i + 2 ^ 32 * s.rd hi i

/-- Write a 64-bit quantity into two registers (R6). -/
def State.put64 (s : State) (lo hi : Reg) (v : Nat) (i : Nat := 0) : State := (s.wr lo v i).wr hi (v / 2 ^ 32) i

/-- A free value, and the state that will draw the next one. -/
def State.draw (s : State) (w : Nat) : BitVec w × State :=
  (Config.freeValue s.freeCtr w, { s with freeCtr := s.freeCtr + 1 })

/-- The answer of a read. -/
def State.answer (s : State) (v : Nat) : State := { s with bus := { rdata := w32 v, err := false } }

/-- The end of an access with a bus error (R312, R406): a read answers 0. -/
def State.busError (s : State) : State := { s with bus := { rdata := 0, err := true } }

/-! ### Memories. One list of cells holds them all, each space at its own base. -/

/-- The address spaces that hold bytes: the fabric's memories at their fabric addresses (R21), host memory as the device
reaches it (R305), the engines' instruction and data memories (R24), external flash (R398), the OTP array and the secure
bank (R24), and the switch's tables. -/
inductive Space where
  | fabric
  | host
  | imem (e : Nat)
  | dmem (e : Nat)
  | flash
  | otp
  | secure
  deriving DecidableEq, Repr

/-- The key of a space's first byte. -/
def Space.base : Space → Nat
  | .fabric => 0
  | .imem e => 0x100000000 + e * 0x10000
  | .dmem e => 0x100000000 + e * 0x10000 + 0x8000
  | .flash => 0x200000000
  | .otp => 0x300000000
  | .secure => 0x310000000
  | .host => 0x10000000000000000

/-- The byte at an address of a space. A byte that nothing has written reads 0 (spec/16 R384: banks are zeroed). -/
def State.mrd (s : State) (sp : Space) (a : Nat) : Byte := tabGet 0 s.mem (sp.base + a)

/-- Store a byte. -/
def State.mwr (s : State) (sp : Space) (a : Nat) (b : Byte) : State :=
  { s with mem := tabSet 0 s.mem (sp.base + a) b }

/-- `n` bytes from an address on. -/
def State.bytes (s : State) (sp : Space) (a : Nat) : Nat → List Byte
  | 0 => []
  | n + 1 => s.mrd sp a :: State.bytes s sp (a + 1) n

/-- Store bytes from an address on. -/
def State.setBytes (s : State) (sp : Space) (a : Nat) : List Byte → State
  | [] => s
  | b :: bs => State.setBytes (s.mwr sp a b) sp (a + 1) bs

/-- A little-endian word of memory. -/
def State.mword (s : State) (sp : Space) (a : Nat) : Nat := leNat (s.bytes sp a 4)

/-- Store a little-endian word. -/
def State.setMword (s : State) (sp : Space) (a v : Nat) : State := s.setBytes sp a (leBytes 4 v)

/-- `n` words from an address on. -/
def State.words (s : State) (sp : Space) (a : Nat) : Nat → List Nat
  | 0 => []
  | n + 1 => s.mword sp a :: State.words s sp (a + 4) n

/-- Store words from an address on. -/
def State.setWords (s : State) (sp : Space) (a : Nat) : List Nat → State
  | [] => s
  | w :: ws => State.setWords (s.setMword sp a w) sp (a + 4) ws

/-- Zero a range of a space. -/
def State.zero (s : State) (sp : Space) (a n : Nat) : State :=
  { s with mem := tabClear s.mem (sp.base + a) (sp.base + a + n) }

/-- The canonical form of memory: addresses strictly rising, and no entry equal to 0, what an unlisted address reads as. -/
def Memory.wf (m : List Host.Cell) : Bool := tabWf (0 : Byte) m

end Sys2Proof.Machine
end

