-- ==== Sys2Proof/Machine/EvhOps.lean ====
section
/-! DEFINITION. The event hub's operations (spec/15): the live level of each level source, presenting a bit to a target,
events, claims, ends of service, masks, retargeting and fallbacks. -/
namespace Sys2Proof.Machine

/-- Bit `b` of a register's word. -/
def State.bitAt (s : State) (r : Reg) (b : Nat) (i : Nat := 0) : Bool := (s.rd r i).testBit b

/-- Whether an event register and its enable register share a set bit. -/
def State.evtOn (s : State) (evt en : Reg) (i : Nat := 0) : Bool := (s.rd evt i) &&& (s.rd en i) != 0

/-- The host interface's event: HIF_ERR and HOT_RST under HIF_ERR_EN (spec/12, HIF_ERR_EN). -/
def hifEvent (s : State) : Bool :=
  s.rd R.HIF_ERR &&& s.rd R.HIF_ERR_EN != 0 || (s.bitAt R.HIF_EVT 0 && s.bitAt R.HIF_ERR_EN 5)

/-- The live level of a level source (R363): the OR of the block's enabled event bits. -/
def levelNow (s : State) (n : Nat) : Bool :=
  if n < 16 then s.on R.HMB_STAT_FULL n && s.bitAt R.MBX_AEVT_EN n
  else if n < 32 then s.on R.AMB_STAT_ACKV (n - 16) && s.bitAt R.MBX_AEVT_EN n
  else if n < 48 then s.on R.HMB_STAT_ACKV (n - 32) && s.bitAt R.MBX_HEVT_EN (n - 32)
  else if n < 64 then s.on R.AMB_STAT_FULL (n - 48) && s.bitAt R.MBX_HEVT_EN (n - 32)
  else if n < 80 then s.on R.HMB_STAT_REJECTED (n - 64) && s.bitAt R.MBX_REJ_EN (n - 64)
  else if n < 112 then s.bitAt R.HDB_SET (n - 80) && s.bitAt R.HDB_MASK (n - 80)
  else if n < 144 then s.bitAt R.ADB_SET (n - 112) && s.bitAt R.ADB_MASK (n - 112)
  else if n < 192 then s.evtOn R.CE_ERR R.CE_ERR_EN (n - 144)
  else if n < 216 then s.evtOn R.MAC_EVT R.MAC_EVT_EN (n - 192)
  else if n < 220 then s.evtOn R.CAN_EVT R.CAN_EVT_EN (n - 216)
  else if n < 236 then s.evtOn R.RASP_U_EVT R.RASP_U_EVT_EN (n - 220)
  else if n < 300 then s.evtOn R.DQ_EVT R.DQ_EVT_EN (n - 236)
  else if n = 300 then s.evtOn R.SS_EVT R.SS_EVT_EN
  else if n = 301 then s.evtOn R.TB_EVT R.TB_EVT_EN
  else if n = 302 then s.evtOn R.FX_EVT R.FX_EVT_EN
  else if n = 303 then hifEvent s
  else if n = 304 then s.evtOn R.PAT_EVT R.PAT_EVT_EN
  else if n = 305 then s.evtOn R.PWR_EVT R.PWR_EVT_EN
  else if n = 306 then s.evtOn R.PK_EVT R.PK_EVT_EN
  else if n = 324 then s.evtOn R.MEM_EVT R.MEM_EVT_EN
  else false

/-- Sources that can fire: EV325 to EV447 are reserved and never do (R363). -/
def sourceExists (n : Nat) : Bool := n < 325 || (448 ≤ n && n < 512)

/-- Whether a source is masked (R368). -/
def evMasked (s : State) (n : Nat) : Bool := s.bitAt R.EVH_MASK (n % 32) (n / 32)

/-- Whether target `t` is asleep ("Sleeping targets"): the host target by the state of its link, target 7 by its route,
target 4 once AC4 has taken a slot, since no core is left over then (DEDUCED), the others as EVH_Tt_STAT shows. -/
def asleep (s : State) (t : Nat) : Bool :=
  if t = 6 then
    !s.on R.HIF_STAT_IF && (!s.on R.HIF_STAT_LINK_UP || !s.on R.HIF_STAT_BME || s.hif.d3hot)
  else if t = 7 then
    let d := s.get R.EVH_REMOTE_DEV
    !s.bitAt R.PK_STAT (8 + d)
  else s.on R.EVH_T_STAT_SLEEP t || (t == 4 && s.pat.coreMap.any fun p => p.2 == 4)

/-- Send an MSI-X message for a vector, or note it in the pending-bit array while it is masked (R304, PCIe rules), and while Bus Master
Enable is 0 or the function is in D3hot, when the device issues no request (R305). DEDUCED -/
def msixSend (s : State) (vec : Nat) : State :=
  if !s.hif.msixEn then s
  else if s.hif.msixFMask || s.on R.MSIX_CTL_MASK vec || !s.on R.HIF_STAT_BME || s.hif.d3hot then
    s.wr R.MSIX_PBA (s.rd R.MSIX_PBA (vec / 32) ||| 2 ^ (vec % 32)) (vec / 32)
  else s.setMword .host (s.get64 R.MSIX_ADDR_LO R.MSIX_ADDR_HI vec) (s.rd R.MSIX_DATA vec)

/-- A vector whose pending bit is set is sent as soon as nothing masks it (R304). -/
def msixFree (s : State) (vec : Nat) : State :=
  if s.hif.msixEn && s.bitAt R.MSIX_PBA (vec % 32) (vec / 32) then
    let x := s.rd R.MSIX_PBA (vec / 32)
    msixSend (s.wr R.MSIX_PBA (x - (x &&& 2 ^ (vec % 32))) (vec / 32)) vec
  else s

/-- Every pending vector that nothing masks is sent. -/
def msixFlush (s : State) : State := (List.range 64).foldl msixFree s

/-- A source's bit stands on a target. -/
def bitOn (s : State) (n t : Nat) : State :=
  { s with evh := { s.evh with
    presented := tabSet 0 s.evh.presented n (t + 1), linger := tabSet 0 s.evh.linger n 0 } }

/-- Present a source's bit to a target (R365, R369): a presented bit is never presented twice. -/
def present (s : State) (n t : Nat) : State :=
  let s := bitOn s n t
  if t = 6 && !s.on R.HIF_STAT_IF then msixSend s (s.get R.EVH_SRC_CFG_VEC n) else s

/-- Deliver a Pending, unmasked source to a target, waking it or waiting for its fallback (R371): it moves to one once per entry into
Pending, as FB shows. -/
def deliver (s : State) (n t : Nat) : State :=
  if !asleep s t then present s n t
  else if s.on R.EVH_T_CTL_WAKE_EN t then present (s.clr R.EVH_T_STAT_SLEEP t) n t
  else if s.on R.EVH_SRC_CFG_FB n then s
  else
    { s with evh := { s.evh with
      linger := tabSet 0 s.evh.linger n (s.now + s.get R.EVH_T_CTL_LINGER t * 1000 + 1) } }

/-- A source enters Pending (R364, R371): its bit goes to its TARGET, unless it is masked (R368). -/
def enterPending (s : State) (n : Nat) : State :=
  let s := (s.put R.EVH_SRC_CFG_STATE 1 n).clr R.EVH_SRC_CFG_FB n
  if evMasked s n then s else deliver s n (s.get R.EVH_SRC_CFG_TARGET n)

/-- An event of a source (R364). Reserved sources never fire. -/
def evhEvent (s : State) (n : Nat) : State :=
  if !sourceExists n then s
  else
    let st := s.get R.EVH_SRC_CFG_STATE n
    if st = 0 then enterPending s n
    else if st = 2 && !isLevelSource n then s.put R.EVH_SRC_CFG_STATE 3 n
    else s

/-- The target on which a Pending source's bit stands: the fallback to which it moved, else its TARGET (R371). -/
def pendingOn (s : State) (n : Nat) : Nat :=
  let f := tabGet 0 s.evh.moved n
  if s.on R.EVH_SRC_CFG_FB n && f != 0 then f - 1 else s.get R.EVH_SRC_CFG_TARGET n

/-- Target `t` claims source `n` (R367): OK when the source is Pending on this target, else NOT_PENDING. -/
def evhClaim (s : State) (t n : Nat) : State :=
  let ok := sourceExists n && s.get R.EVH_SRC_CFG_STATE n == 1 && pendingOn s n == t
  let s := ((s.put R.EVH_T_CLAIM_SRC n t).put R.EVH_T_CLAIM_OK (bit01 ok) t).put R.EVH_T_CLAIM_NOT_PENDING (bit01 !ok) t
  if ok then
    let s := s.put R.EVH_SRC_CFG_STATE 2 n
    { s with evh := { s.evh with
      claimant := tabSet 0 s.evh.claimant n (t + 1)
      presented := if isLevelSource n then s.evh.presented else tabSet 0 s.evh.presented n 0
      linger := tabSet 0 s.evh.linger n 0 } }
  else s

/-- Target `t` ends service of source `n` (R367, R364). -/
def evhEoi (s : State) (t n : Nat) : State :=
  let st := s.get R.EVH_SRC_CFG_STATE n
  if tabGet 0 s.evh.claimant n == t + 1 && 2 ≤ st then
    let s := { s with evh := { s.evh with
      claimant := tabSet 0 s.evh.claimant n 0, presented := tabSet 0 s.evh.presented n 0 } }
    if st = 3 || (isLevelSource n && levelNow s n) then enterPending s n
    else s.put R.EVH_SRC_CFG_STATE 0 n
  else s.raise R.EVH_T_STAT_EOI_ERR t

/-- A write of EVH_MASKw (R368, R365): each source of the word that is unmasked while Pending is presented at once, and a level source
that is Active, whose bit goes to its claimant. -/
def evhMask (s : State) (w v : Nat) : State :=
  let old := s.rd R.EVH_MASK w
  let s := s.wr R.EVH_MASK v w
  (numsWhere 32 fun b => old.testBit b && !v.testBit b).foldl (fun s b =>
    let n := 32 * w + b
    let st := s.get R.EVH_SRC_CFG_STATE n
    if tabGet 0 s.evh.presented n != 0 then s
    else if st = 1 then deliver s n (pendingOn s n)
    else if st = 2 && isLevelSource n && tabGet 0 s.evh.claimant n != 0 then present s n (tabGet 0 s.evh.claimant n - 1)
    else s) s

/-- A bit that is presented moves to another target (R370), which is woken if it may be; of a masked source without a message (R368,
R369). -/
def bitMoves (s : State) (n t : Nat) : State :=
  let s := if asleep s t && s.on R.EVH_T_CTL_WAKE_EN t then s.clr R.EVH_T_STAT_SLEEP t else s
  if evMasked s n then bitOn s n t else present s n t

/-- A write of EVH_SRCn_CFG (R370): TARGET and VEC; the bit of a Pending source moves to the new target. -/
def evhRetarget (s : State) (n v : Nat) : State :=
  let old := s.get R.EVH_SRC_CFG_TARGET n
  let s := (s.put R.EVH_SRC_CFG_TARGET v n).put R.EVH_SRC_CFG_VEC (bits v 4 6) n
  let new := s.get R.EVH_SRC_CFG_TARGET n
  if s.get R.EVH_SRC_CFG_STATE n = 1 && old != new then
    let was := tabGet 0 s.evh.presented n
    let s := { s with evh := { s.evh with
      presented := tabSet 0 s.evh.presented n 0, linger := tabSet 0 s.evh.linger n 0, moved := tabSet 0 s.evh.moved n 0 } }
    if was != 0 then bitMoves s n new
    else if evMasked s n then s
    else deliver s n new
  else s

/-- A source left waiting on a sleeping target moves to the fallback, once per entry into Pending (R371). -/
def evhFallback (s : State) (n : Nat) : State :=
  let t := s.get R.EVH_SRC_CFG_TARGET n
  let due := tabGet 0 s.evh.linger n
  if due != 0 && due ≤ s.now + 1 && s.get R.EVH_SRC_CFG_STATE n = 1 && !s.on R.EVH_SRC_CFG_FB n && asleep s t && s.on R.EVH_T_CTL_FB_EN t
      && s.get R.EVH_T_CTL_FALLBACK t != t then
    let f := s.get R.EVH_T_CTL_FALLBACK t
    let s := (s.raise R.EVH_SRC_CFG_FB n).addSat R.EVH_T_FBCNT_V 1 t
    let s := { s with evh := { s.evh with linger := tabSet 0 s.evh.linger n 0, moved := tabSet 0 s.evh.moved n (f + 1) } }
    if evMasked s n then s else deliver s n f
  else s

/-- Present what waited for a target that was asleep (R371). -/
def presentWaiting (s : State) (t : Nat) : State :=
  (numsWhere 512 fun n => s.get R.EVH_SRC_CFG_STATE n = 1 && tabGet 0 s.evh.presented n = 0
    && pendingOn s n == t && !evMasked s n).foldl (fun s n => present s n t) s

/-- EVH_Tt_PENDw as read (R365): the presented bits of its sources. -/
def evhPendWord (s : State) (t w : Nat) : Nat :=
  (numsWhere 32 fun b => tabGet 0 s.evh.presented (32 * w + b) == t + 1).foldl (fun a b => a + 2 ^ b) 0

/-- EVH_Tt_SUMMARY as read: bit w says that PENDw is not zero. -/
def evhSummary (s : State) (t : Nat) : Nat :=
  (numsWhere 16 fun w => evhPendWord s t w != 0).foldl (fun a b => a + 2 ^ b) 0

/-- HIRQ_N on the quad-SPI bus is low while the host target's summary word is not zero (R310). -/
def hirqLow (s : State) : Bool := s.on R.HIF_STAT_IF && evhSummary s 6 != 0

end Sys2Proof.Machine
end

