-- ==== Sys2Proof/Machine/BusOps.lean ====
section
/-! DEFINITION. Access to the fabric (R4, R22, R23, R303, R405, R406): the firewall, refusals, address errors, and the rule
by which a field takes a written word under its access code (spec/00, "Access codes"). -/
namespace Sys2Proof.Machine

/-- The event-hub target of a requester (spec/15, "Targets"): whose address-error source an access raises. The spec gives
DMA no target of its own; Atelier programs it, and slot 0 is taken. Debug has the host's. DESIGN CHOICE -/
def reqTarget : Requester → Nat
  | .atl c => c
  | .arm => 5
  | .pat => 4
  | .host => 6
  | .dma => 0
  | .remAtl _ => 7
  | .remHost _ => 7
  | .debug => 6

/-- Raise the address-error source of the requester's target (R23). -/
def addrErr (s : State) (r : Requester) : State := evhEvent s (308 + reqTarget r)

/-- The firewall class of a requester; Armature and Patina are not checked (R405). -/
def fwClass : Requester → Option Nat
  | .atl _ => some 0
  | .host => some 1
  | .dma => some 2
  | .remAtl _ => some 3
  | .remHost _ => some 3
  | .debug => some 1
  | .arm => none
  | .pat => none

/-- The permission that the first valid region holding the address gives a class, else SEC_FW_DEFAULT's (R405). -/
def fwPerm (s : State) (cls a : Nat) : Nat :=
  match (List.range 16).find? fun r => s.on R.SEC_FW_R_PERM_VALID r
      && s.rd R.SEC_FW_R_BASE r ≤ a && a ≤ s.rd R.SEC_FW_R_LIMIT r with
  | some r => bits (s.rd R.SEC_FW_R_PERM r) (2 * cls) 2
  | none => bits (s.rd R.SEC_FW_DEFAULT) (2 * cls) 2

/-- Whether the firewall passes an access (R405): permission 1 reads, 2 reads and writes, 3 is taken as 0. In host boot the host's
write of RST_HBOOT_LEN passes, without which R400 could not be carried out. DEDUCED -/
def fwPass (s : State) (r : Requester) (wr : Bool) (a : Nat) : Bool :=
  match fwClass r with
  | none => true
  | some c =>
    let p := fwPerm s c a
    p = 2 || (p = 1 && !wr) || (c = 1 && s.on R.RST_STAT_HBOOT_WAIT && a = R.RST_HBOOT_LEN.base)

/-- An access that the firewall refuses (R406, R303): recorded, and answered by the requester's rule. -/
def fwRefuse (s : State) (r : Requester) (a : Nat) : State :=
  let s := ((s.raise R.SEC_FW_STAT_DENY).put R.SEC_FW_STAT_CLASS ((fwClass r).getD 0)).put R.SEC_FW_ADDR_V a
  match r with
  | .host => (s.raise R.HIF_ERR_FW_DENY).answer 0
  | .atl _ => addrErr s.busError r
  | _ => s.busError

/-- Who may write a register of a block: only Atelier, and whoever the block's text adds. A remote access has the rights
of its originator (R446). -/
def isAtl : Requester → Bool
  | .atl _ => true
  | .remAtl _ => true
  | _ => false

/-- The host, on this device or another (R446), and unlocked debug, which has its permissions (R422). -/
def isHost : Requester → Bool
  | .host => true
  | .remHost _ => true
  | .debug => true
  | _ => false

/-- Armature. -/
def isArm : Requester → Bool
  | .arm => true
  | _ => false

/-- Patina. -/
def isPat : Requester → Bool
  | .pat => true
  | _ => false

/-- The fabric addresses that the PCIe windows hold (R22, R23): BAR2 and BAR0. -/
def inBars (a : Nat) : Bool := a < 0x10000000 || (0x40000000 ≤ a && a < 0x44000000)

/-- DEBUG_POLICY (R393). -/
def debugPolicy (s : State) : Nat := bits (s.rd R.RST_OPT 1) 16 8

/-- Whether debug is unlocked (R422): policy 2 opens it while the device is BLANK; else an accepted token, but not in RETIRED (R408). -/
def debugOpen (s : State) : Bool := (debugPolicy s == 2 && s.get R.SEC_STAT_LC == 0) || (s.on R.SEC_STAT_DBG_UNLOCKED && s.get R.SEC_STAT_LC != 4)

/-- Whether an access to fabric address `a` reaches the device: a host's does not while its PCIe link is down (R306), nor outside the
PCIe windows (R22, R23). A quad-SPI frame carries any fabric address (R307). Debug reaches the fabric while it is unlocked (R422).
-/
def reaches (s : State) (r : Requester) (a : Nat) : Bool :=
  match r with
  | .host => s.on R.HIF_STAT_IF || (s.on R.HIF_STAT_LINK_UP && inBars a)
  | .debug => debugOpen s
  | _ => true

/-- A write of a register that has its own effect: the firewall first (R405), then the block's requester rule, whose
failure ignores the write; then the effect. -/
def guardedWrite (s : State) (r : Requester) (a : Nat) (may : Bool) (f : State → State) : State :=
  if !reaches s r a then s
  else if fwPass s r true a then
    let s := { s with bus := {} }
    if may then f s else s
  else fwRefuse s r a

/-- A read of a register: the firewall, then the value. -/
def guardedRead (s : State) (r : Requester) (a : Nat) (f : State → State) : State :=
  if !reaches s r a then s else if fwPass s r false a then f s else fwRefuse s r a

/-- The bits of a field after a write of `v` over `old` (both whole words), by the field's access code (spec/00, R489). -/
def fieldWrite (f : FldDesc) (old v : Nat) : Nat :=
  let o := bits old f.lo f.width
  let n := bits v f.lo f.width
  match f.acc with
  | .rw => n
  | .ro => o
  | .wo => 0
  | .w1c => o - (o &&& n)
  | .w1s => o ||| n
  | .rwl => if o = 0 then n else o
  | .cnt => if n = 2 ^ f.width - 1 then 0 else o

/-- The word of a register after a write of `v`, field by field; bits of no field stay 0 (R5). -/
def regWriteWord (r : Reg) (old v : Nat) : Nat :=
  r.fields.foldl (fun w f => setBits w f.lo f.width (fieldWrite f old v)) old

/-- An ordinary register write (R4): each field takes the word by its access code. -/
def State.regWrite (s : State) (r : Reg) (v : Nat) (i : Nat := 0) (j : Nat := 0) (k : Nat := 0) : State :=
  s.wr r (regWriteWord r (s.rd r i j k) v) i j k

/-- The word a read of a register returns by its access codes: WO fields read 0 (spec/00). -/
def regReadWord (r : Reg) (w : Nat) : Nat :=
  r.fields.foldl (fun w f => if f.acc = .wo then setBits w f.lo f.width 0 else w) w

end Sys2Proof.Machine
end

