-- ==== Sys2Proof/Machine/BankOps.lean ====
section
/-! DEFINITION. Access to the fabric's memories (R21, R37, R374, R380, R405): the bank behind an address, what an access to a bank
does to it, and the accesses that the agents inside the device make. -/
namespace Sys2Proof.Machine

/-- The bank slot that a fabric address lies in, for the memories that have one (R21, R374). -/
def slotOf (a : Nat) : Option Nat :=
  if a < 0x400000 then some (a / 0x40000)
  else if 0x2000000 ≤ a && a < 0x2400000 then some (71 + (a - 0x2000000) / 0x40000)
  else none

/-- Whether an address lies in the register blocks (R21). -/
def inBlocks (a : Nat) : Bool := 0x40000000 ≤ a && a < 0x40190000

/-- Whether an address lies in the image window (R21, R37). -/
def inImages (a : Nat) : Bool := 0x1000000 ≤ a && a < 0x11E0000

/-- BANK_POWER_ON (R380): the transition to ON completes. -/
def bankOn (s : State) (b : Nat) : State :=
  if s.on R.MEM_BK_STAT_TRANS b then (s.put R.MEM_BK_STAT_STATE 0 b).clr R.MEM_BK_STAT_TRANS b else s

/-- An access to a bank in RETENTION brings it ON (R380). -/
def bankTouch (s : State) (b : Nat) : State :=
  if s.get R.MEM_BK_STAT_STATE b = 1 then (s.put R.MEM_BK_STAT_STATE 0 b).put R.MEM_BK_PWR_STATE 0 b else s

/-- A memory at an address, ready for an access (R380): a bank in RETENTION comes ON, one on its way ON is waited for, one that
is OFF is as unassigned. -/
def memOpen (s : State) (a : Nat) : Option State :=
  if inImages a then some s
  else match slotOf a with
    | none => none
    | some k =>
      let b := s.get R.MEM_MAP_PHYS k
      let s := if s.get R.MEM_BK_PWR_STATE b = 0 then bankOn s b else s
      if s.get R.MEM_BK_STAT_STATE b = 2 then none else some (bankTouch s b)

/-- The memories under an access of `n` bytes: that of its first and that of its last byte. -/
def memSpan (s : State) (a n : Nat) : Option State := (memOpen s a).bind fun t => memOpen t (a + (n - 1))

/-- Whether the firewall passes every byte of an access (R405). -/
def fwSpan (s : State) (r : Requester) (wr : Bool) (a n : Nat) : Bool := (List.range (max 1 n)).all fun i => fwPass s r wr (a + i)

/-- A write of memory that the firewall has passed (R23, R37, R380). -/
def fabWrite (s : State) (r : Requester) (a : Nat) (bs : List Byte) : State :=
  if inImages a then addrErr s r
  else match memSpan s a bs.length with
    | none => addrErr s r
    | some s => s.setBytes .fabric a bs

/-- An access of `n` bytes as the fabric carries it: aligned words where they fit, bytes elsewhere. -/
def chunks : (fuel a n : Nat) → List (Nat × Nat)
  | 0, _, _ => []
  | f + 1, a, n =>
    if n = 0 then []
    else
      let m := if a % 4 = 0 && 4 ≤ n then 4 else 1
      (a, m) :: chunks f (a + m) (n - m)

/-! ### Agents inside the device

What Atelier does for a command (R318), Armature for a boot (R397) or a pack (R331), Patina's telemetry (R435) and the Maquette lists
(R92) reach memory over the fabric, in whole words where they can. They name memory: an address elsewhere is answered as an unassigned
one. DESIGN CHOICE (log 229) -/

/-- Whether every byte of a run is memory that stands ready and that the requester may write. -/
def memReady (s : State) (r : Requester) (a n : Nat) : Bool :=
  (List.range n).all fun i => fwPass s r true (a + i) && match slotOf (a + i) with
    | some k => s.get R.MEM_BK_STAT_STATE (s.get R.MEM_MAP_PHYS k) == 0 && !s.on R.MEM_BK_STAT_TRANS (s.get R.MEM_MAP_PHYS k)
    | none => false

/-- One access of a run. -/
def agentPiece (s : State) (r : Requester) (wr : Bool) (a n : Nat) (f : State → State) : State :=
  if fwSpan s r wr a n then f s else fwRefuse s r a

/-- An agent writes a run of bytes. -/
def agentWrite (s : State) (r : Requester) (a : Nat) (bs : List Byte) : State :=
  if memReady s r a bs.length then s.setBytes .fabric a bs
  else (chunks bs.length a bs.length).foldl (fun s x =>
    agentPiece s r true x.1 x.2 fun s => fabWrite s r x.1 ((bs.drop (x.1 - a)).take x.2)) s

/-- What an agent's read of a run does to the machine (R380, R406, R23). -/
def agentOpen (s : State) (r : Requester) (a n : Nat) : State :=
  if memReady s r a n then s
  else (chunks n a n).foldl (fun s x => agentPiece s r false x.1 x.2 fun s => (memSpan s x.1 x.2).getD (addrErr s r)) s

/-- The bytes that an agent's read of a run gives: 0 where the access is refused or finds no memory (R23). What a refused read gives is
not said beyond R406's bus error. DESIGN CHOICE (log 229) -/
def agentBytes (s : State) (r : Requester) (a n : Nat) : List Byte :=
  if memReady s r a n then s.bytes .fabric a n
  else (List.range n).map fun i => if fwPass s r false (a + i) && (memOpen s (a + i)).isSome then s.mrd .fabric (a + i) else 0

end Sys2Proof.Machine
end

