-- ==== Sys2Proof/Machine/NoteOps.lean ====
section
/-! DEFINITION. Atelier's acknowledges and notifications (R311, R314, R316, R324, R345), and what Patina notes when a substitution
completes (R429 to R431). -/
namespace Sys2Proof.Machine

/-- Status codes (R325). -/
def stOk : Nat := 0
def stBusy : Nat := 1
def stBadOp : Nat := 2
def stBadCh : Nat := 3
def stBadState : Nat := 4
def stNoResource : Nat := 5
def stDenied : Nat := 6
def stTimeout : Nat := 7
def stStale : Nat := 8
def stVerifyFail : Nat := 9
def stPartial : Nat := 10
def stRefusedGap : Nat := 11

/-- Atelier writes HMBn_ACK (R311): FULL clears and ACKV sets. -/
def hmbAck (s : State) (n v : Nat) : State :=
  ((s.wr R.HMB_ACK v n).clr R.HMB_STAT_FULL n).raise R.HMB_STAT_ACKV n

/-- Set bits of ADB (R316). -/
def adbSet (s : State) (v : Nat) : State :=
  let x := s.rd R.ADB_SET ||| v
  (s.wr R.ADB_SET x).wr R.ADB_CLR x

/-- The job of a mailbox. -/
def State.job (s : State) (n : Nat) : Job := tabGet .none s.cmd.jobs n

/-- Replace it. -/
def State.setJob (s : State) (n : Nat) (j : Job) : State :=
  { s with cmd := { s.cmd with jobs := tabSet .none s.cmd.jobs n j } }

/-- A command is acknowledged (R324, R311, R319): opcode, status, and a value with OK and PARTIAL only; its channel's
doorbell rings. -/
def ack (s : State) (n status value : Nat) : State :=
  let op := s.rd R.HMB_DATA n / 2 ^ 24
  let v := if status = stOk || status = stPartial then value % 65536 else 0
  let s := hmbAck s n (op * 2 ^ 24 + status * 2 ^ 16 + v)
  let bell := tabGet 0 s.cmd.ring n
  let s := if bell = 0 then s else adbSet s (2 ^ (bell - 1))
  { s with cmd := { s.cmd with
    order := s.cmd.order.filter fun k => k != n
    jobs := tabSet .none s.cmd.jobs n .none
    ring := tabSet 0 s.cmd.ring n 0 } }

/-- The mailboxes whose command waits for a job. -/
def jobBoxes (s : State) (j : Job) : List Nat := numsWhere 16 fun n => s.job n = j

/-- The job of a mailbox is at its end: acknowledged, or noted in the journal while Atelier restarts (R315, R344). -/
def ackOrNote (s : State) (n status value : Nat) : State :=
  if s.on R.HIF_STAT_ATL_RESTART then s.setJob n (.done status value) else ack s n status value

/-- Every command that waits for a job is at its end. -/
def ackJobs (s : State) (j : Job) (status value : Nat) : State :=
  (jobBoxes s j).foldl (fun s n => ackOrNote s n status value) s

/-- Queue a notification (R345): 256 wait at most, the others are counted. -/
def notify (s : State) (code ch detail : Nat) : State :=
  if s.cmd.notes.length < 256 then
    { s with cmd := { s.cmd with
      notes := s.cmd.notes ++ [w32 (code * 2 ^ 24 + ch % 4096 * 2 ^ 12 + detail % 4096)] } }
  else { s with cmd := { s.cmd with lost := min (s.cmd.lost + 1) 0xFFF } }

/-- Atelier writes AMBn_DATA (R314): refused with a bus error while FULL. -/
def ambWrite (s : State) (n v : Nat) : State :=
  if s.on R.AMB_STAT_FULL n then s.busError
  else (((s.wr R.AMB_DATA v n).raise R.AMB_STAT_FULL n).clr R.AMB_STAT_ACKV n).addWrap R.AMB_STAT_SEQ 1 n

/-- The next notification goes through AMB0 once it is free (R345); LOST follows when the queue has room. -/
def sendNote (s : State) : State :=
  if s.on R.AMB_STAT_FULL 0 || s.on R.HIF_STAT_ATL_RESTART then s
  else match s.cmd.notes with
    | [] => s
    | w :: ws =>
      let lost := s.cmd.lost
      let s := ambWrite { s with cmd := { s.cmd with notes := ws } } 0 w.toNat
      if lost = 0 then s else notify { s with cmd := { s.cmd with lost := 0 } } 0xFF 0 lost

/-- A substitution completes (R429, R430): SUB_DONE, the life record is to be rewritten, and a substitution made under AUTO
is reported with the ARG of R337. -/
def subDone (s : State) (auto : Bool) (arg : Nat) : State :=
  let s := s.raise R.PAT_EVT_SUB_DONE
  let s := { s with pat := { s.pat with recDue := true, look := true } }
  if auto then notify s 3 0 arg else s

/-- The ARG of SPARE_SWAP for a unit (R337). -/
def swapArg (kind unit : Nat) : Nat := kind + unit * 8

end Sys2Proof.Machine
end

