-- ==== Sys2Proof/Machine/Operands.lean ====
section
/-! DEFINITION. The engines' instructions as words (R104 to R106): what each word of instruction memory says, the word of an
instruction, and the operands that an instruction reads, each as the write-back rule leaves it (R93, R99). -/
namespace Sys2Proof.Machine

/-- An engine instruction with its operands (R104, R107 to R112, R123, R124). Register numbers are `wd`, `wa`, `wb`; `idx` is the
index register of an indexed I/O form; a bit-field width is one less than the field has. -/
inductive EngInstr where
  | add (wd wa wb : Fin 32)
  | adc (wd wa wb : Fin 32)
  | sub (wd wa wb : Fin 32)
  | sbc (wd wa wb : Fin 32)
  | cmp (wa wb : Fin 32)
  | and (wd wa wb : Fin 32)
  | or (wd wa wb : Fin 32)
  | xor (wd wa wb : Fin 32)
  | andn (wd wa wb : Fin 32)
  | tst (wa wb : Fin 32)
  | shl (wd wa wb : Fin 32)
  | shr (wd wa wb : Fin 32)
  | sar (wd wa wb : Fin 32)
  | ror (wd wa wb : Fin 32)
  | mul (wd wa wb : Fin 32)
  | mulh (wd wa wb : Fin 32)
  | mulhu (wd wa wb : Fin 32)
  | addi (wd wa : Fin 32) (imm : Fin 65536)
  | subi (wd wa : Fin 32) (imm : Fin 65536)
  | cmpi (wa : Fin 32) (imm : Fin 65536)
  | andi (wd wa : Fin 32) (imm : Fin 65536)
  | ori (wd wa : Fin 32) (imm : Fin 65536)
  | xori (wd wa : Fin 32) (imm : Fin 65536)
  | tsti (wa : Fin 32) (imm : Fin 65536)
  | lih (wd : Fin 32) (imm : Fin 65536)
  | shli (wd wa : Fin 32) (n : Fin 32)
  | shri (wd wa : Fin 32) (n : Fin 32)
  | sari (wd wa : Fin 32) (n : Fin 32)
  | rori (wd wa : Fin 32) (n : Fin 32)
  | ldw (wd wa : Fin 32) (imm : Fin 65536)
  | ldh (wd wa : Fin 32) (imm : Fin 65536)
  | ldhs (wd wa : Fin 32) (imm : Fin 65536)
  | ldb (wd wa : Fin 32) (imm : Fin 65536)
  | ldbs (wd wa : Fin 32) (imm : Fin 65536)
  | stw (wd wa : Fin 32) (imm : Fin 65536)
  | sth (wd wa : Fin 32) (imm : Fin 65536)
  | stb (wd wa : Fin 32) (imm : Fin 65536)
  | b (cond : Fin 16) (off : Fin 2097152)
  | bl (cond : Fin 16) (off : Fin 2097152)
  | nop
  | halt
  | wait (wd wa : Fin 32) (keep all : Bool)
  | waitt (wd wa : Fin 32) (dom : Fin 2)
  | evs (wa : Fin 32) (line : Fin 4)
  | jr (wa : Fin 32)
  | jalr (wd wa : Fin 32)
  | crcb (wd wa wb : Fin 32) (poly : Fin 6) (n : Fin 4)
  | bfx (wd wa : Fin 32) (sx : Bool) (w pos : Fin 32)
  | bfxr (wd wa wb : Fin 32) (sx : Bool) (w : Fin 32)
  | bfi (wd wa : Fin 32) (w : Fin 32) (byReg : Bool) (pos : Fin 32)
  | ioIn (wd : Fin 32) (io : Fin 4096) (idx : Option (Fin 32))
  | ioInw (wd : Fin 32) (io : Fin 4096) (idx : Option (Fin 32))
  | ioOut (wd : Fin 32) (io : Fin 4096) (idx : Option (Fin 32))
  | ioOutw (wd : Fin 32) (io : Fin 4096) (idx : Option (Fin 32))
  | undefined
  deriving DecidableEq, Repr

/-- Register field of a word. -/
def reg5 (w lo : Nat) : Fin 32 := Fin.ofNat 32 (bits w lo 5)

/-- A flag field of a word. -/
def bit1 (w lo : Nat) : Bool := bits w lo 1 == 1

/-- The group of major opcode 0x00 (R111). -/
def decodeSystem (w : Nat) : EngInstr :=
  let d := reg5 w 21
  let a := reg5 w 16
  match bits w 0 11 with
  | 0x000 => .nop
  | 0x010 => .halt
  | 0x020 => .wait d a false false
  | 0x021 => .wait d a true false
  | 0x022 => .wait d a false true
  | 0x023 => .wait d a true true
  | 0x030 => .waitt d a 0
  | 0x031 => .waitt d a 1
  | 0x040 => .evs a 0
  | 0x041 => .evs a 1
  | 0x042 => .evs a 2
  | 0x043 => .evs a 3
  | 0x050 => .jr a
  | 0x051 => .jalr d a
  | _ => .undefined

/-- The group of major opcode 0x01 (R107). -/
def decodeAlu (w : Nat) : EngInstr :=
  let d := reg5 w 21
  let a := reg5 w 16
  let b := reg5 w 11
  match bits w 0 11 with
  | 0x000 => .add d a b
  | 0x001 => .adc d a b
  | 0x002 => .sub d a b
  | 0x003 => .sbc d a b
  | 0x004 => .cmp a b
  | 0x008 => .and d a b
  | 0x009 => .or d a b
  | 0x00A => .xor d a b
  | 0x00B => .andn d a b
  | 0x00C => .tst a b
  | 0x010 => .shl d a b
  | 0x011 => .shr d a b
  | 0x012 => .sar d a b
  | 0x013 => .ror d a b
  | 0x018 => .mul d a b
  | 0x019 => .mulh d a b
  | 0x01A => .mulhu d a b
  | _ => .undefined

/-- The I/O format (R112): `m` is the mode without X. -/
def decodeIo (w : Nat) : EngInstr :=
  let d := reg5 w 21
  let io : Fin 4096 := Fin.ofNat 4096 (bits w 4 12)
  let a := reg5 w 16
  match bits w 0 4 with
  | 0 => .ioIn d io none
  | 1 => .ioInw d io none
  | 2 => .ioOut d io none
  | 3 => .ioOutw d io none
  | 4 => .ioIn d io (some a)
  | 5 => .ioInw d io (some a)
  | 6 => .ioOut d io (some a)
  | 7 => .ioOutw d io (some a)
  | _ => .undefined

/-- What a word of instruction memory says (R104 to R106): bits that an instruction does not use are ignored. -/
def decodeEngine (w : Nat) : EngInstr :=
  let d := reg5 w 21
  let a := reg5 w 16
  let b := reg5 w 11
  let imm : Fin 65536 := Fin.ofNat 65536 (bits w 0 16)
  match bits w 26 6 with
  | 0x00 => decodeSystem w
  | 0x01 => decodeAlu w
  | 0x02 => if h : bits w 8 3 < 6 then .crcb d a b ⟨bits w 8 3, h⟩ (Fin.ofNat 4 (bits w 0 2)) else .undefined
  | 0x03 => .bfx d a (bit1 w 10) (reg5 w 5) (reg5 w 0)
  | 0x04 => .bfi d a (reg5 w 5) (bit1 w 10) (if bit1 w 10 then b else reg5 w 0)
  | 0x05 => .bfxr d a b (bit1 w 10) (reg5 w 5)
  | 0x08 => .addi d a imm
  | 0x09 => .subi d a imm
  | 0x0A => .cmpi a imm
  | 0x0C => .andi d a imm
  | 0x0D => .ori d a imm
  | 0x0E => .xori d a imm
  | 0x0F => .tsti a imm
  | 0x10 => .lih d imm
  | 0x11 => .shli d a (reg5 w 0)
  | 0x12 => .shri d a (reg5 w 0)
  | 0x13 => .sari d a (reg5 w 0)
  | 0x14 => .rori d a (reg5 w 0)
  | 0x18 => .ldw d a imm
  | 0x19 => .ldh d a imm
  | 0x1A => .ldhs d a imm
  | 0x1B => .ldb d a imm
  | 0x1C => .ldbs d a imm
  | 0x1D => .stw d a imm
  | 0x1E => .sth d a imm
  | 0x1F => .stb d a imm
  | 0x20 => if bit1 w 21 then .bl (Fin.ofNat 16 (bits w 22 4)) (Fin.ofNat 2097152 (bits w 0 21))
    else .b (Fin.ofNat 16 (bits w 22 4)) (Fin.ofNat 2097152 (bits w 0 21))
  | 0x30 => decodeIo w
  | _ => .undefined

/-- A word of the register format. -/
def wordR (op : Nat) (wd wa wb : Fin 32) (fn : Nat) : Nat :=
  op * 2 ^ 26 + wd.val * 2 ^ 21 + wa.val * 2 ^ 16 + wb.val * 2 ^ 11 + fn

/-- A word of the immediate format. -/
def wordI (op : Nat) (wd wa : Fin 32) (imm : Nat) : Nat := op * 2 ^ 26 + wd.val * 2 ^ 21 + wa.val * 2 ^ 16 + imm

/-- A word of the branch format. -/
def wordB (cond : Fin 16) (link : Nat) (off : Fin 2097152) : Nat :=
  0x20 * 2 ^ 26 + cond.val * 2 ^ 22 + link * 2 ^ 21 + off.val

/-- A word of the I/O format: `m` is mode[1:0]. -/
def wordIo (m : Nat) (wd : Fin 32) (io : Fin 4096) (idx : Option (Fin 32)) : Nat :=
  match idx with
  | none => 0x30 * 2 ^ 26 + wd.val * 2 ^ 21 + io.val * 2 ^ 4 + m
  | some a => 0x30 * 2 ^ 26 + wd.val * 2 ^ 21 + a.val * 2 ^ 16 + io.val * 2 ^ 4 + (m + 4)

/-- The word of an instruction, its reserved fields 0 (R104 to R112); an undefined one has no word of its own, and the lowest
undefined system word stands for it. -/
def encodeEngine (i : EngInstr) : Nat :=
  match i with
  | .add wd wa wb => wordR 0x01 wd wa wb 0x000
  | .adc wd wa wb => wordR 0x01 wd wa wb 0x001
  | .sub wd wa wb => wordR 0x01 wd wa wb 0x002
  | .sbc wd wa wb => wordR 0x01 wd wa wb 0x003
  | .cmp wa wb => wordR 0x01 0 wa wb 0x004
  | .and wd wa wb => wordR 0x01 wd wa wb 0x008
  | .or wd wa wb => wordR 0x01 wd wa wb 0x009
  | .xor wd wa wb => wordR 0x01 wd wa wb 0x00A
  | .andn wd wa wb => wordR 0x01 wd wa wb 0x00B
  | .tst wa wb => wordR 0x01 0 wa wb 0x00C
  | .shl wd wa wb => wordR 0x01 wd wa wb 0x010
  | .shr wd wa wb => wordR 0x01 wd wa wb 0x011
  | .sar wd wa wb => wordR 0x01 wd wa wb 0x012
  | .ror wd wa wb => wordR 0x01 wd wa wb 0x013
  | .mul wd wa wb => wordR 0x01 wd wa wb 0x018
  | .mulh wd wa wb => wordR 0x01 wd wa wb 0x019
  | .mulhu wd wa wb => wordR 0x01 wd wa wb 0x01A
  | .addi wd wa imm => wordI 0x08 wd wa imm.val
  | .subi wd wa imm => wordI 0x09 wd wa imm.val
  | .cmpi wa imm => wordI 0x0A 0 wa imm.val
  | .andi wd wa imm => wordI 0x0C wd wa imm.val
  | .ori wd wa imm => wordI 0x0D wd wa imm.val
  | .xori wd wa imm => wordI 0x0E wd wa imm.val
  | .tsti wa imm => wordI 0x0F 0 wa imm.val
  | .lih wd imm => wordI 0x10 wd 0 imm.val
  | .shli wd wa n => wordI 0x11 wd wa n.val
  | .shri wd wa n => wordI 0x12 wd wa n.val
  | .sari wd wa n => wordI 0x13 wd wa n.val
  | .rori wd wa n => wordI 0x14 wd wa n.val
  | .ldw wd wa imm => wordI 0x18 wd wa imm.val
  | .ldh wd wa imm => wordI 0x19 wd wa imm.val
  | .ldhs wd wa imm => wordI 0x1A wd wa imm.val
  | .ldb wd wa imm => wordI 0x1B wd wa imm.val
  | .ldbs wd wa imm => wordI 0x1C wd wa imm.val
  | .stw wd wa imm => wordI 0x1D wd wa imm.val
  | .sth wd wa imm => wordI 0x1E wd wa imm.val
  | .stb wd wa imm => wordI 0x1F wd wa imm.val
  | .b cond off => wordB cond 0 off
  | .bl cond off => wordB cond 1 off
  | .nop => wordR 0x00 0 0 0 0x000
  | .halt => wordR 0x00 0 0 0 0x010
  | .wait wd wa keep all => wordR 0x00 wd wa 0 (0x020 + bit01 keep + 2 * bit01 all)
  | .waitt wd wa dom => wordR 0x00 wd wa 0 (0x030 + dom.val)
  | .evs wa line => wordR 0x00 0 wa 0 (0x040 + line.val)
  | .jr wa => wordR 0x00 0 wa 0 0x050
  | .jalr wd wa => wordR 0x00 wd wa 0 0x051
  | .crcb wd wa wb poly n => wordR 0x02 wd wa wb (poly.val * 2 ^ 8 + n.val)
  | .bfx wd wa sx w pos => wordR 0x03 wd wa 0 (bit01 sx * 2 ^ 10 + w.val * 2 ^ 5 + pos.val)
  | .bfxr wd wa wb sx w => wordR 0x05 wd wa wb (bit01 sx * 2 ^ 10 + w.val * 2 ^ 5)
  | .bfi wd wa w byReg pos =>
    if byReg then wordR 0x04 wd wa pos (2 ^ 10 + w.val * 2 ^ 5) else wordR 0x04 wd wa 0 (w.val * 2 ^ 5 + pos.val)
  | .ioIn wd io idx => wordIo 0 wd io idx
  | .ioInw wd io idx => wordIo 1 wd io idx
  | .ioOut wd io idx => wordIo 2 wd io idx
  | .ioOutw wd io idx => wordIo 3 wd io idx
  | .undefined => 0x001

/-! ### Registers, flags and write-backs -/

/-- A working register; w0 reads 0 (R93). -/
def Eng.reg (x : Eng) (r : Fin 32) : Word := if r = 0 then 0 else tabGet 0 x.w r

/-- Write a working register; a result for w0 is discarded (R93). -/
def Eng.setReg (x : Eng) (r : Nat) (v : Word) : Eng := if r = 0 then x else { x with w := tabSet 0 x.w r v }

/-- Apply a write-back: the register, and the flags it sets (R94, R99). -/
def Eng.applyWb (x : Eng) (b : Wb) : Eng :=
  let x := b.reg.elim x fun p => x.setReg p.1 p.2
  match b.flags with
  | none => x
  | some (z, c, n, v) => { x with z := z.getD x.z, c := c.getD x.c, n := n.getD x.n, v := v.getD x.v }

/-- The engine as an instruction at position `p` reads it (R99): the write-backs whose slot has come, in program order. -/
def Eng.readAt (x : Eng) (p : Nat) : Eng :=
  (x.wbs.filter fun b => b.slot ≤ p).foldl Eng.applyWb { x with wbs := x.wbs.filter fun b => p < b.slot }

/-- The engine with every pending write-back complete (R111, HALT). -/
def Eng.settled (x : Eng) : Eng := x.wbs.foldl Eng.applyWb { x with wbs := [] }

/-- A producer at position `q` with minimum distance `d` (R98, R99): its slot is no earlier than that of any before it. -/
def Eng.produce (x : Eng) (q d : Nat) (reg : Option (Nat × Word))
    (flags : Option (Option Bool × Option Bool × Option Bool × Option Bool)) : Eng :=
  let slot := max (q + d) x.lastW
  { x with lastW := slot, wbs := x.wbs ++ [⟨slot, reg, flags⟩] }

/-- The effective address of a load or store (R96): 13 bits of wa + the sign-extended immediate. -/
def effAddr (x : Eng) (wa : Fin 32) (imm : Fin 65536) : Nat :=
  ((x.reg wa).toNat + ((BitVec.ofNat 16 imm.val).signExtend 32).toNat) % 8192

/-- The I/O address of an access (R112). -/
def ioAddr (x : Eng) (io : Fin 4096) (idx : Option (Fin 32)) : Nat :=
  (io.val + idx.elim 0 fun r => (x.reg r).toNat) % 4096

/-- The I/O addresses at which an INW may have to wait (R71, R74, R256, R298). -/
def readWaits (a : Nat) : Bool :=
  [0x100, 0x104, 0x200, 0x204, 0x381, 0xB01].contains a || (0x800 ≤ a && a < 0x900 && a % 16 = 1)
    || (0x900 ≤ a && a < 0xA00 && a % 64 = 8)

/-- Whether an I/O address belongs to the writable words of an item slot (R44, R45). -/
def isSlotWrite (a : Nat) : Bool :=
  0x400 ≤ a && a < 0x700 && (a % 64 ≤ 1 || 32 ≤ a % 64)

/-- The I/O addresses at which an OUTW may have to wait (R45, R71, R74, R298). -/
def writeWaits (a : Nat) : Bool :=
  [0x110, 0x121, 0x210, 0x221, 0x380, 0xB00].contains a || (0x800 ≤ a && a < 0x900 && a % 16 = 0) || isSlotWrite a

/-- Whether every I/O write of an engine has taken effect (R113). -/
def ioIdle (x : Eng) : Bool := x.outQ.isEmpty && x.closing.isNone

/-- Whether four writes are undelivered (R113). A close counts until the write port has accepted it. DESIGN CHOICE (log 235) -/
def ioFull (x : Eng) : Bool := 4 ≤ x.outQ.length + bit01 x.closing.isSome

/-- The I/O addresses of the item slots, whose reads a close never stalls (R45). -/
def isSlot (a : Nat) : Bool := 0x400 ≤ a && a < 0x700

/-- Whether a read of address `a` waits for earlier writes (R113): a read of a slot that is BUSY does not wait for its close (R45). -/
def readStalls (x : Eng) (a : Nat) : Bool :=
  if isSlot a && (tabGet {} x.iw ((a - 0x400) / 64)).busy then !x.outQ.isEmpty else !ioIdle x

/-- Whether an I/O instruction cannot issue until a write is delivered (R113, R114); `x` is the engine as it reads. -/
def ioStalls (x : Eng) (i : EngInstr) : Bool :=
  match i with
  | .ioIn _ io idx => readStalls x (ioAddr x io idx)
  | .ioInw _ io idx => !readWaits (ioAddr x io idx) && readStalls x (ioAddr x io idx)
  | .ioOut _ _ _ => ioFull x
  | .ioOutw _ io idx => !writeWaits (ioAddr x io idx) && ioFull x
  | _ => false

end Sys2Proof.Machine
end

