-- ==== Sys2Proof/Machine/TimeOps.lean ====
section
/-! DEFINITION. The timebase's operations (spec/06): FRC and domain time, steps and skipped instants, the servo, the walk
between domains, the generators' schedules, SYNC pins and the timestamp FIFO. -/
namespace Sys2Proof.Machine

/-- A domain. -/
def State.dom (s : State) (d : Nat) : DomSt := if d = 0 then s.time.d0 else s.time.d1

/-- Replace a domain. -/
def State.setDom (s : State) (d : Nat) (x : DomSt) : State :=
  if d = 0 then { s with time := { s.time with d0 := x } } else { s with time := { s.time with d1 := x } }

/-- Domain time in units of 2^-40 ns: FRC + OFFS (R163), 64 bits of ns. -/
def domRaw (s : State) (d : Nat) : Nat :=
  (s.time.frc.toNat * 2 ^ 40 + (s.dom d).offs.toNat) % 2 ^ 104

/-- Domain time in whole ns (R163). -/
def domTime (s : State) (d : Nat) : Nat := domRaw s d / 2 ^ 40

/-- The visible fraction of a domain: the upper 32 bits of its 40 (R163). -/
def domFrac (s : State) (d : Nat) : Nat := domRaw s d % 2 ^ 40 / 2 ^ 8

/-- The 32-bit view of a domain's time. -/
def domView (s : State) (d : Nat) : Nat := domTime s d % 2 ^ 32

/-- Generator `n`. -/
def State.igen (s : State) (n : Nat) : IgSt := tabGet {} s.time.ig n

/-- The domain of generator `n`: DOM is taken when EN is set (R177). -/
def igDom (s : State) (n : Nat) : Nat :=
  if s.on R.TB_IG_CTL_EN n then (tabGet {} s.time.ig n).dom else s.get R.TB_IG_CTL_DOM n

/-- Replace generator `n`. -/
def State.setIgen (s : State) (n : Nat) (g : IgSt) : State :=
  { s with time := { s.time with ig := tabSet {} s.time.ig n g } }

/-- A time with 16 fraction bits, rounded up to whole ns (R176). -/
def ceil16 (t : Nat) : Nat := (t + 65535) / 65536

/-- Show the next scheduled time of generator `n` in its registers. -/
def showNext (s : State) (n : Nat) : State :=
  let g := s.igen n
  (s.put64 R.TB_IG_NEXT_LO R.TB_IG_NEXT_HI (ceil16 g.next) n).put R.TB_IG_STAT_RUN (bit01 g.armed) n

/-- The period of a generator in ns with 16 fraction bits: PERIOD below 100 is taken as 100, PFRAC is added (R176). -/
def igPeriod (s : State) (n : Nat) : Nat :=
  max (s.rd R.TB_IG_PERIOD n) 100 * 65536 + s.get R.TB_IG_PFRAC_V n

/-- How many of the times `t`, `t + p`, `t + 2p`, … rounded up to whole ns are less than `now` (p > 0). -/
def passedBefore (t p now : Nat) : Nat :=
  if ceil16 t < now then (now * 65536 - 65536 - t) / p + 1 else 0

/-- Enable generator `n` (R177): take its schedule; a START that has passed sets PAST_START. -/
def igEnable (s : State) (n : Nat) : State :=
  let mode := s.on R.TB_IG_CTL_MODE n
  let d := s.get R.TB_IG_CTL_DOM n
  let start := s.get64 R.TB_IG_START_LO R.TB_IG_START_HI n * 65536
  let p := igPeriod s n
  let now := domTime s d
  let past := ceil16 start < now
  let next := if past && mode then start + passedBefore start p now * p else start
  let s := s.setIgen n { armed := true, mode := mode, dom := d, period := p, next := next, fired := none }
  showNext (if past then s.raise R.TB_IG_STAT_PAST_START n else s) n

/-- Disable generator `n` (R177): a firing not yet made is cancelled. -/
def igDisable (s : State) (n : Nat) : State := showNext (s.setIgen n { s.igen n with armed := false }) n

/-- UPD on generator `n` (R177): the new period from the last firing, or from S_0 before the first. -/
def igUpdate (s : State) (n : Nat) : State :=
  let g := s.igen n
  if g.armed && g.mode then
    let p := igPeriod s n
    match g.fired with
    | none => s.setIgen n { g with period := p }
    | some t =>
      let next := t + p
      let now := domTime s g.dom
      let s' := s.setIgen n { g with period := p, next := next + passedBefore next p now * p }
      showNext (if ceil16 next < now then s'.raise R.TB_IG_STAT_PAST_START n else s') n
  else s

/-- SYNC pin `n`. -/
def State.syncPin (s : State) (n : Nat) : SyncPin := tabGet {} s.time.sync n

/-- Replace SYNC pin `n`. -/
def State.setSync (s : State) (n : Nat) (p : SyncPin) : State :=
  { s with time := { s.time with sync := tabSet {} s.time.sync n p } }

/-- What a write of PIN_EN or POL does to SYNC pin `n` (R179), given both before the write. -/
def syncConfig (s : State) (n : Nat) (oldEn oldPol : Bool) : State :=
  let en := s.on R.TB_IG_CTL_PIN_EN n
  let pol := s.on R.TB_IG_CTL_POL n
  if n < 4 && en && (!oldEn || oldPol != pol) then s.setSync n { level := pol, pulseEnd := none } else s

/-- The start or restart of a pulse on SYNC pin `n` (R179): 8 ns at least. -/
def syncPulse (s : State) (n : Nat) : State :=
  if n < 4 && s.on R.TB_IG_CTL_PIN_EN n then
    s.setSync n { level := !s.on R.TB_IG_CTL_POL n, pulseEnd := some (s.now + max 8 (s.get R.TB_IG_WIDTH_V n)) }
  else s

/-- The end of a pulse (R179, R395): the pin returns to the idle level of the POL in force, or that a SYSTEM reset found. -/
def syncEnd (s : State) (n : Nat) : State :=
  match (s.syncPin n).pulseEnd with
  | some t =>
    if t ≤ s.now then s.setSync n { level := (s.syncPin n).idle.getD (s.on R.TB_IG_CTL_POL n), pulseEnd := none } else s
  | none => s

/-- A write of TB_IGn_CTL (R177, R179). -/
def igCtlWrite (s : State) (n v : Nat) : State :=
  let was := s.on R.TB_IG_CTL_EN n
  let oldEn := s.on R.TB_IG_CTL_PIN_EN n
  let oldPol := s.on R.TB_IG_CTL_POL n
  let s := s.wr R.TB_IG_CTL (bits v 0 5) n
  let s := syncConfig s n oldEn oldPol
  let s := if v.testBit 0 && !was then igEnable s n else if !v.testBit 0 && was then igDisable s n else s
  if v.testBit 5 && v.testBit 0 && was then igUpdate s n else s

/-- After a forward step to domain time `now` (R178): a generator that was moved past several instants will fire once with
the latest of them, and the others are counted. -/
def igSkip (s : State) (n now : Nat) : State :=
  let g := s.igen n
  if g.armed && g.mode then
    let k := passedBefore g.next g.period (now + 1)
    if 2 ≤ k then
      let s := s.setIgen n { g with next := g.next + (k - 1) * g.period }
      ((showNext s n).addSat R.TB_IG_SKIP_V (k - 1) n).raise R.TB_EVT_IG_SKIP
    else s
  else s

/-- Whether domain `d` walks (R174): DIR = 0 makes D0 the working domain. -/
def walking (s : State) (d : Nat) : Bool := s.on R.TB_WALK_STAT_BUSY && s.get R.TB_WALK_CTL_DIR == d

/-- WALK_PPM × 10^-6 × 2^40, rounded to the nearest integer, WALK_PPM held within 1 to 100 (R174). -/
def walkMag (ppm : Nat) : Nat := (max 1 (min 100 ppm) * 2 ^ 41 + 1000000) / 2000000

/-- T − W in units of 2^-40 ns, signed (R174). -/
def walkDiff (s : State) : Int :=
  let w := s.get R.TB_WALK_CTL_DIR
  let x : Nat := (domRaw s (1 - w) + 2 ^ 104 - domRaw s w) % 2 ^ 104
  if x < 2 ^ 103 then (x : Int) else (x : Int) - (2 ^ 104 : Nat)

/-- TB_WALK_REM: T − W in whole ns, rounded down and saturating. -/
def walkRem (s : State) : Nat := u32 (sat32 (walkDiff s / 2 ^ 40))

/-- The working domain's rate follows the target's (R174). -/
def walkRefresh (s : State) : State :=
  if s.on R.TB_WALK_STAT_BUSY then
    let w := s.get R.TB_WALK_CTL_DIR
    let m : Int := walkMag (s.get R.TB_WALK_CTL_WALK_PPM)
    let r := s.gets R.TB_D_RATE_V (1 - w) + (if walkDiff s < 0 then -m else m)
    s.put R.TB_D_RATE_V (u32 (sat32 r)) w
  else s

/-- End a walk because its working domain was stepped or re-armed (R175). -/
def walkAbort (s : State) (d : Nat) : State :=
  if walking s d then ((walkRefresh s).clr R.TB_WALK_STAT_BUSY).raise R.TB_WALK_STAT_ABORTED else s

/-- A step of domain `d` to a new offset (R164, R178). -/
def domStep (s : State) (d : Nat) (offs : Nat) : State :=
  let before := domTime s d
  let s := s.setDom d { s.dom d with offs := BitVec.ofNat 104 offs }
  let s := (s.addWrap R.TB_D_STAT_STEPS 1 d).raise (if d = 0 then R.TB_EVT_STEP0 else R.TB_EVT_STEP1)
  let now := domTime s d
  let s := if before < now then
      (numsWhere 32 fun n => (s.igen n).dom = d).foldl (fun s n => igSkip s n now) s
    else s
  walkRefresh s

/-- Add a signed number of 2^-40 ns to an offset. -/
def addOffs (offs : Nat) (d : Int) : Nat := (((offs : Int) + d) % (2 ^ 104 : Int)).toNat

/-- Whether LOAD and ADJ are refused: a STEPRATE domain that is ACQUIRED (R172). -/
def stepRefused (s : State) (d : Nat) : Bool := s.get R.TB_D_CTL_MODE d == 2 && s.on R.TB_D_STAT_ACQUIRED d

/-- A write of TB_Dd_LOAD (R164, R172, R175). -/
def domLoad (s : State) (d : Nat) : State :=
  let s := walkAbort s d
  if stepRefused s d then s.raise R.TB_D_STAT_STEP_REF d
  else domStep s d ((s.get64 R.TB_D_OFFS_LO R.TB_D_OFFS_HI d) * 2 ^ 40 + s.rd R.TB_D_OFFS_FRAC d * 2 ^ 8)

/-- A write of TB_Dd_ADJ (R164, R172, R175): a signed number of ns. -/
def domAdj (s : State) (d : Nat) (v : Nat) : State :=
  let s := walkAbort s d
  if stepRefused s d then s.raise R.TB_D_STAT_STEP_REF d
  else domStep s d (addOffs (s.dom d).offs.toNat (s32 v * 2 ^ 40))

/-- ±RATE_MAX, values above 0x7FFF_FFFF taken as that (spec/06, TB_Dd_RATE_MAX). -/
def clampRate (s : State) (d : Nat) (x : Int) : Int :=
  let m : Int := min (s.rd R.TB_D_RATE_MAX d) 0x7FFFFFFF
  max (-m) (min m x)

/-- One servo update with measurement `e` (R171). The last 8 of LOCKED are those that reach it: neither a step nor an ignored one counts.
DESIGN CHOICE (log 238) -/
def servo (s : State) (d : Nat) (e : Int) : State :=
  let integ := clampRate s d
    (s.gets R.TB_D_INTEG_V d - (e * s.get R.TB_D_KI_KI d) / 2 ^ s.get R.TB_D_KI_KI_SH d)
  let rate := clampRate s d (integ - (e * s.get R.TB_D_KP_KP d) / 2 ^ s.get R.TB_D_KP_KP_SH d)
  let l := ((s.dom d).last8 ++ [e.natAbs]).drop ((s.dom d).last8.length + 1 - 8)
  let s := s.setDom d { s.dom d with last8 := l }
  let locked := l.length = 8 && l.all fun x => x < s.get R.TB_D_LOCK_THR_V d * 256
  walkRefresh (((s.put R.TB_D_INTEG_V (u32 integ) d).put R.TB_D_RATE_V (u32 rate) d).put R.TB_D_STAT_LOCKED
    (bit01 locked) d)

/-- A write of TB_Dd_MEAS (R171, R172, R175): `v` is a signed number of 2^-8 ns. MEAS_IGN is set during a walk in
every mode, FREE too. DESIGN CHOICE (log 238) -/
def measWrite (s : State) (d : Nat) (v : Nat) : State :=
  let e := s32 v
  let s := s.put R.TB_D_LASTE_V v d
  let mode := s.get R.TB_D_CTL_MODE d
  if walking s d then s.raise R.TB_D_STAT_MEAS_IGN d
  else if mode = 0 || mode = 3 then s
  else
    let offs := addOffs (s.dom d).offs.toNat (-(e * 2 ^ 32))
    let big := s.get R.TB_D_STEP_THR_V d * 256 < e.natAbs
    if mode = 2 && s.on R.TB_D_CTL_ACQ d then
      let s := ((s.clr R.TB_D_CTL_ACQ d).raise R.TB_D_STAT_ACQUIRED d).clr R.TB_D_STAT_PHASE_ERR d
      domStep s d offs
    else if mode = 1 && big then domStep s d offs
    else
      let s := if mode = 2 && big then (s.raise R.TB_D_STAT_PHASE_ERR d).raise R.TB_EVT_PHASE_ERR else s
      servo s d e

/-- A write of TB_Dd_CTL (R172, R175): a MODE other than STEPRATE clears ACQUIRED; ACQ arms the one step. -/
def domCtlWrite (s : State) (d v : Nat) : State :=
  let s := s.put R.TB_D_CTL_MODE v d
  let s := if bits v 0 2 = 2 then s else s.clr R.TB_D_STAT_ACQUIRED d
  if v.testBit 4 then (walkAbort s d).raise R.TB_D_CTL_ACQ d else s

/-- A write of TB_WALK_CTL (R174, R175): GO while BUSY is ignored. -/
def walkCtlWrite (s : State) (v : Nat) : State :=
  let busy := s.on R.TB_WALK_STAT_BUSY
  let s := if busy then s.put R.TB_WALK_CTL_WALK_PPM (bits v 8 8)
    else (s.put R.TB_WALK_CTL_WALK_PPM (bits v 8 8)).put R.TB_WALK_CTL_DIR (bits v 1 1)
  if v.testBit 0 && !busy then walkRefresh (s.raise R.TB_WALK_STAT_BUSY) else walkRefresh s

/-- A walk arrives (R174): within 1 ns the working domain takes the target's offset, rate and servo settings. -/
def walkDone (s : State) : State :=
  if s.on R.TB_WALK_STAT_BUSY && (walkDiff s).natAbs < 2 ^ 40 then
    let w := s.get R.TB_WALK_CTL_DIR
    let t := 1 - w
    let s := s.setDom w (s.dom t)
    let s := s.put R.TB_D_CTL_MODE (s.get R.TB_D_CTL_MODE t) w
    let s := [R.TB_D_RATE, R.TB_D_KP, R.TB_D_KI, R.TB_D_STEP_THR, R.TB_D_RATE_MAX, R.TB_D_INTEG, R.TB_D_LOCK_THR].foldl
      (fun s r => s.wr r (s.rd r t) w) s
    (s.clr R.TB_WALK_STAT_BUSY).raise R.TB_EVT_WALK_DONE
  else s

/-- The latch of TB_FRC_HI that a requester has (R162); remote accesses use their originator's kind. -/
def frcLatch : Requester → Nat
  | .atl c => c
  | .arm => 5
  | .host => 6
  | .dma => 7
  | .pat => 8
  | .remAtl d => 16 + d
  | .remHost d => 32 + d
  | .debug => 9

/-- A read of TB_FRC_LO (R162): the low word, and the upper half into the requester's latch. -/
def frcRead (s : State) (r : Requester) : State :=
  let f := s.time.frc.toNat
  let s := { s with time := { s.time with frcHi := tabSet 0 s.time.frcHi (frcLatch r) (w32 (f / 2 ^ 32)) } }
  s.answer f

/-- A write of 1 to TB_SNAP (R165). -/
def tbSnap (s : State) : State :=
  let s := s.put64 R.TB_SNAP_FRC_LO R.TB_SNAP_FRC_HI s.time.frc.toNat
  let s := (s.put64 R.TB_SNAP_D0_LO R.TB_SNAP_D0_HI (domTime s 0)).put R.TB_SNAP_D0_FRAC_V (domFrac s 0)
  let s := (s.put64 R.TB_SNAP_D1_LO R.TB_SNAP_D1_HI (domTime s 1)).put R.TB_SNAP_D1_FRAC_V (domFrac s 1)
  s.addWrap R.TB_SNAP_SEQ_V 1

/-- Whether a POR or a SYSTEM reset is asserted (R385, R389). -/
def inReset (s : State) : Bool := s.boot.phase = 0 && s.boot.reach.any (· < 2)

/-- Show the head of the timestamp FIFO in its registers (R169). -/
def tsfShow (s : State) : State :=
  let h := s.time.tsf.headD ⟨0, 0, 0⟩
  (((s.put R.TB_TSF_W0_V h.w0.toNat).put R.TB_TSF_W1_V h.w1.toNat).put R.TB_TSF_W2_V h.w2.toNat).put
    R.TB_TSF_STAT_COUNT s.time.tsf.length

/-- Add a record to the timestamp FIFO (R169): a full FIFO discards and counts it. -/
def tsfPush (s : State) (x : TsRec) : State :=
  if s.time.tsf.length < 256 then
    tsfShow { s with time := { s.time with tsf := s.time.tsf ++ [x] } }
  else (s.addSat R.TB_TSF_OVF_V 1).raise R.TB_EVT_TSF_OVF

/-- Discard the head record (R169). -/
def tsfPop (s : State) : State := tsfShow { s with time := { s.time with tsf := s.time.tsf.tail } }

/-- Receive and transmit corrections of a port in quarter ns (R168), by port code and by MAC speed setting: 0 10 Mbit/s,
1 100 Mbit/s, 2 1000BASE-X, 3 2500BASE-X, 4 10GBASE-R, 5 SGMII 1000, 6 SGMII 100, 7 SGMII 10. -/
def tsCorr (mode : Nat) : Nat × Nat :=
  match mode with
  | 0 => (6440, 1680)
  | 1 => (992, 384)
  | 2 => (474, 313)
  | 3 => (245, 168)
  | 4 => (154, 99)
  | 5 => (496, 322)
  | 6 => (4760, 3180)
  | 7 => (47360, 31800)
  | _ => (0, 0)

/-- What the PLL follows (R161): under REVERT an XREF that has been valid for 1 s; in holdover ALTREF, once it is enabled and valid. An
active ALTREF that is lost leaves the PLL at its last frequency, as XREF does. DEDUCED. HOLDOVER clears as soon as the PLL follows a
reference again. DESIGN CHOICE (log 237) -/
def refTrack (s : State) : State :=
  let away := s.on R.TB_STAT_REF_ACTIVE || s.on R.TB_STAT_HOLDOVER
  if s.on R.TB_STAT_XREF_OK && s.time.xrefAt + 1000000000 ≤ s.now && s.on R.TB_CTL_REVERT then
    if away then (s.clr R.TB_STAT_REF_ACTIVE).clr R.TB_STAT_HOLDOVER else s
  else if s.on R.TB_STAT_HOLDOVER && s.on R.TB_CTL_ALTREF_EN && s.on R.TB_STAT_ALTREF_OK then
    (s.raise R.TB_STAT_REF_ACTIVE).clr R.TB_STAT_HOLDOVER
  else if s.on R.TB_STAT_REF_ACTIVE && !s.on R.TB_STAT_ALTREF_OK then s.raise R.TB_STAT_HOLDOVER
  else s

/-- Whether ALTREF shows edges changes what the PLL follows (R161). -/
def altSeen (s : State) (altref : Bool) : State :=
  if s.on R.TB_STAT_ALTREF_OK == altref then refTrack s else refTrack (s.put R.TB_STAT_ALTREF_OK (bit01 altref))

/-- The offset of a segment of a domain's past at FRC `f` (R163). -/
def DomSeg.at (g : DomSeg) (f : Nat) : Nat := addOffs g.offs.toNat (g.rate * ((f : Int) - g.frc))

/-- The segments of a domain's past of which the last 2^22 ns still need one. -/
def trimSegs (old : Nat) : List DomSeg → List DomSeg
  | a :: b :: l => if b.frc ≤ old then trimSegs old (b :: l) else a :: b :: l
  | l => l

/-- A domain's past goes on: a new segment where the last one does not give the present offset and rate. -/
def noteSeg (l : List DomSeg) (f : Nat) (o : BitVec 104) (rate : Int) : List DomSeg :=
  let l := trimSegs (f - 2 ^ 22) l
  match l.getLast? with
  | some g => if g.rate = rate && g.at f = o.toNat then l else l ++ [⟨f, o, rate⟩]
  | none => [⟨f, o, rate⟩]

/-- A domain's time in whole ns at FRC `f`, which is not ahead (R163): from the segment of its past that holds it, and at the present
FRC, or before all that is kept, from the present offset and rate. -/
def domAt (s : State) (d f : Nat) : Nat :=
  let now := s.time.frc.toNat
  let o := if f = now then (s.dom d).offs.toNat else
    match ((tabGet [] s.time.past d).filter fun g => g.frc ≤ f).getLast? with
    | some g => g.at f
    | none => addOffs (s.dom d).offs.toNat (s.gets R.TB_D_RATE_V d * ((f : Int) - now))
  (f * 2 ^ 40 + o) % 2 ^ 104 / 2 ^ 40

/-- One tick of the timebase: 1 ns of the model's time; while the PLL is locked FRC counts and each offset takes its rate
(R160, R163). -/
def tick (s : State) : State :=
  let s := { s with now := s.now + 1 }
  if s.on R.TB_STAT_LOCK then
    let o0 := addOffs s.time.d0.offs.toNat (s.gets R.TB_D_RATE_V 0)
    let o1 := addOffs s.time.d1.offs.toNat (s.gets R.TB_D_RATE_V 1)
    let f := s.time.frc.toNat
    let p0 := noteSeg (tabGet [] s.time.past 0) f s.time.d0.offs (s.gets R.TB_D_RATE_V 0)
    let p1 := noteSeg (tabGet [] s.time.past 1) f s.time.d1.offs (s.gets R.TB_D_RATE_V 1)
    walkRefresh { s with time := { s.time with
      frc := s.time.frc + 1
      past := [(0, p0), (1, p1)]
      d0 := { s.time.d0 with offs := BitVec.ofNat 104 o0 }
      d1 := { s.time.d1 with offs := BitVec.ofNat 104 o1 } } }
  else s

end Sys2Proof.Machine
end

