-- ==== Sys2Proof/Machine/EngineOps.lean ====
section
/-! DEFINITION. The Chisel engines as hardware (spec/03): states, slack and cycles, event lines, start and stop, instant slots,
the loader, and the freeze estimate. -/
namespace Sys2Proof.Machine

/-- Engine LE`e`. -/
def State.eng (s : State) (e : Nat) : Eng := tabGet {} s.engs e

/-- Replace engine LE`e`. -/
def State.setEng (s : State) (e : Nat) (x : Eng) : State := { s with engs := tabSet {} s.engs e x }

/-- Change engine LE`e`. -/
def State.modEng (s : State) (e : Nat) (f : Eng → Eng) : State := s.setEng e (f (s.eng e))

/-- CE_STAT.STATE of an engine: 0 HALTED, 1 RUNNING, 2 WAITING, 3 STOPPING, 4 FROZEN, 5 STARTPEND, 6 SPARE, 7 RETIRED. -/
def engState (s : State) (e : Nat) : Nat := s.get R.CE_STAT_STATE e

/-- Whether an engine counts cycles and owns its windows: RUNNING, WAITING, STOPPING or FROZEN (R73, R81). -/
def engActive (s : State) (e : Nat) : Bool := 1 ≤ engState s e && engState s e ≤ 4

/-- Set an event line of an engine pending (R72). -/
def engLine (s : State) (e k : Nat) : State :=
  s.modEng e fun x => { x with events := x.events ||| w32 (2 ^ k) }

/-- Enter a slack value in an engine's telemetry (R19, R82): the smallest of the cycle; a negative one is late. -/
def engSlack (s : State) (e : Nat) (v : Int) : State :=
  let v := sat32 v
  let s := s.put R.CE_SLACK_CUR_V (u32 (min v (s.gets R.CE_SLACK_CUR_V e))) e
  if v < 0 then s.addSat R.CE_LATE_CNT_V 1 e else s

/-- A write of 1 to CE_SLACK_CLR (R81). -/
def slackClear (s : State) (e : Nat) : State := s.put R.CE_SLACK_MIN_V 0x7FFFFFFF e

/-- D of R88: distinct data words written, the largest of the last 16 complete cycles, or since the start. -/
def dirtyD (s : State) (e : Nat) : Nat :=
  let x := s.eng e
  min 2048 (if s.on R.CE_CYC_EN e then x.dirtyHist.foldl max 0 else x.dirtyAll.length)

/-- CE_FREEZE_EST (R88): (4,000 + 8 D) × 1,000 / PACE, rounded down. With PACE = 0 the rule states no value: a free one. -/
def freezeEst (s : State) (e : Nat) : Nat :=
  let p := s.rd R.CE_PACE e
  if p = 0 then (Config.freeValue (2 ^ 64 + e) 32).toNat else (4000 + 8 * dirtyD s e) * 1000 / p

/-- Show D and the freeze estimate in an engine's registers (R88). -/
def showDirty (s : State) (e : Nat) : State :=
  (s.put R.CE_DIRTY_HW_V (dirtyD s e) e).put R.CE_FREEZE_EST_V (freezeEst s e) e

/-- Clear the owner-table entries that name an engine (R84): their VALID bits. -/
def clearOwner (s : State) (e : Nat) : State :=
  (List.range 24).foldl (fun s p => (List.range 4).foldl (fun s k =>
    if s.get R.SW_P_OWN_LE p k = e then s.clr R.SW_P_OWN_VALID p k else s) s) s

/-- An engine enters HALTED (R80, R84, R85): HALT is recorded. -/
def engHalt (s : State) (e : Nat) : State :=
  ((s.put R.CE_STAT_STATE 0 e).raise R.CE_ERR_HALT e).modEng e fun x =>
    { x with wait := .none, startDue := false, haltDue := false }

/-- The instruction at an engine's program counter (R95). -/
def engNext (s : State) (e : Nat) : EngInstr := decodeEngine (s.mword (.imem e) (4 * (s.eng e).pc.toNat))

/-- Whether an engine is stalled or waiting: what STOP_FORCED records at the halt of a stop (R84). -/
def engStuck (s : State) (e : Nat) : Bool :=
  let x := s.eng e
  decide (x.wait ≠ .none) || ioStalls (x.readAt x.pos) (engNext s e)

/-- The halt of a stop (R84, R85): forced if the engine was stalled or waiting; its port windows close, and a DONE that has not
been delivered is not sent. -/
def stopHalt (s : State) (e : Nat) : State :=
  let s := if engStuck s e then s.raise R.CE_STAT_STOP_FORCED e else s
  clearOwner ((engHalt s e).modEng e fun x => { x with outQ := x.outQ.filter fun p => p.1 != 0x701 }) e

/-- Instant slot `k` of an engine. -/
def Eng.islot (x : Eng) (k : Nat) : ISlot := tabGet {} x.slots k

/-- Replace instant slot `k`. -/
def Eng.setIslot (x : Eng) (k : Nat) (v : ISlot) : Eng := { x with slots := tabSet {} x.slots k v }

/-- The slots forget the firings of the cycle that ends (R82). -/
def Eng.newCycle (x : Eng) : Eng :=
  (List.range 8).foldl (fun x k => x.setIslot k { x.islot k with firstInCycle := none }) x

/-- An engine starts at address 0 (R80, R81, R84, R119); no cycle and no word of an earlier run counts for it (R82, R86, R88). -/
def engBegin (s : State) (e : Nat) : State :=
  let s := ((s.put R.CE_STAT_STATE 1 e).clr R.CE_STAT_STOP_FORCED e).put R.CE_PC_V 0 e
  let s := (s.put R.CE_CYC_CNT_V 0 e).put R.CE_SLACK_CUR_V 0x7FFFFFFF e
  showDirty (s.modEng e fun x => { x.newCycle with
    w := [], z := false, c := false, n := false, v := false, pc := 0, npc := 1, pos := 0, lastW := 0, wbs := []
    wait := .none, events := 0, startDue := false, haltDue := false, stopPend := false, dirtyNow := [], dirtyHist := []
    dirtyAll := [], cycAt := none, sdci := [] }) e

/-- A write of CE_CTL.RUN (R80): a HALTED engine starts, or waits in STARTPEND for an instant of START_IG. -/
def engRun (s : State) (e : Nat) : State :=
  if engState s e = 0 then
    if s.on R.CE_CTL_START_AT_IG e then s.put R.CE_STAT_STATE 5 e else engBegin s e
  else s

/-- The target of a migration returns to the spares (R89, R90). -/
def migRelease (s : State) : State :=
  (s.addWrap R.CE_SPARES_FREE 1).raise R.PAT_CE_SPARE s.engArr.mig.target

/-- CE_MIG_CTL.CANCEL (R90): before the freeze. STATE then shows IDLE, and a SPARE_SWAP that waits is acknowledged with
REFUSED_GAP. DESIGN CHOICE -/
def migCancel (s : State) : State :=
  let m := s.get R.CE_MIG_STAT_STATE
  if m = 1 || m = 2 then
    ackJobs ((migRelease s).put R.CE_MIG_STAT_STATE 0) (.engine (s.get R.CE_MIG_CTL_LE)) stRefusedGap 0
  else s

/-- A write of CE_CTL.STOP (R84, R85, R90): a STOP before the freeze cancels the engine's migration. -/
def engStop (s : State) (e : Nat) : State :=
  let st := engState s e
  let s := if s.get R.CE_MIG_CTL_LE = e && st != 0 then migCancel s else s
  if st = 5 then clearOwner (engHalt s e) e
  else if st = 1 || st = 2 then
    if s.on R.CE_CYC_EN e then s.put R.CE_STAT_STATE 3 e else stopHalt s e
  else if st = 4 then s.modEng e fun x => { x with stopPend := true }
  else s

/-- A write of CE_CTL (R80): RUN and STOP together act as STOP alone. -/
def engCtlWrite (s : State) (e v : Nat) : State :=
  let s := (s.put R.CE_CTL_START_AT_IG (bits v 2 1) e).put R.CE_CTL_START_IG (bits v 3 5) e
  if v.testBit 1 then engStop s e else if v.testBit 0 then engRun s e else s

/-- A write of CE_CYC (R85): EN = 0 makes a STOPPING engine halt at once. -/
def engCycWrite (s : State) (e v : Nat) : State :=
  let s := s.regWrite R.CE_CYC v e
  if !s.on R.CE_CYC_EN e && engState s e = 3 then stopHalt s e else showDirty s e

/-- Whether an engine is stopping, frozen or not (R84, R86). -/
def engStopping (s : State) (e : Nat) : Bool := engState s e == 3 || (engState s e == 4 && s.engArr.mig.was == 3)

/-- A cycle boundary of an engine (R81, R84, R88); `t` is the scheduled time of the instant. -/
def cycleBoundary (s : State) (e t : Nat) : State :=
  let cur := s.gets R.CE_SLACK_CUR_V e
  let s := s.put R.CE_SLACK_LAST_V (u32 cur) e
  let s := s.put R.CE_SLACK_MIN_V (u32 (min cur (s.gets R.CE_SLACK_MIN_V e))) e
  let s := (s.put R.CE_SLACK_CUR_V 0x7FFFFFFF e).addWrap R.CE_CYC_CNT_V 1 e
  let s := s.modEng e fun x => { x.newCycle with
    cycAt := some t
    haltDue := x.haltDue || engStopping s e
    dirtyHist := (x.dirtyNow.length :: x.dirtyHist).take 16
    dirtyNow := [] }
  showDirty s e

/-- A slot fires (R181): its event line, the scheduled time, and the first firing of the cycle (R82). -/
def slotFires (x : Eng) (k : Nat) (t : Nat) (disarm : Bool) : Eng :=
  let sl := x.islot k
  let x := x.setIslot k { sl with
    last := w32 t, firstInCycle := sl.firstInCycle.or (some t), armed := sl.armed && !disarm }
  { x with events := x.events ||| w32 (2 ^ k) }

/-- The mode of an instant slot: 0 off, 1 follow generator, 2 one-shot, 3 acts as off (R181). -/
def slotMode (sl : ISlot) : Nat := bits sl.ctl 0 2

/-- Whether a 32-bit target has been reached at view `t` (R120). -/
def reached (t target : Nat) : Bool := (t + 2 ^ 32 - target % 2 ^ 32) % 2 ^ 32 < 2 ^ 31

/-- A write of ISk_CTL (R181): leaving one-shot disarms the slot; entering it arms nothing. -/
def slotConfig (s : State) (e k v : Nat) : State :=
  s.modEng e fun x =>
    let sl := x.islot k
    x.setIslot k { sl with ctl := bits v 0 7 + 256 * bits v 8 1, armed := sl.armed && bits v 0 2 == 2 }

/-- A one-shot slot reaches its target (R181, R178): it fires once and disarms. -/
def slotFire (s : State) (e k : Nat) : State :=
  let x := s.eng e
  let sl := x.islot k
  if slotMode sl = 2 && sl.armed && reached (domView s (bits sl.ctl 8 1)) sl.time.toNat then
    s.setEng e (slotFires x k sl.target true)
  else s

/-- A write of ISk_TIME (R181): in mode 2 it arms the slot, and a target already passed fires at once. The target is the time
nearest to the present whose low 32 bits are the word (R120). -/
def slotArm (s : State) (e k : Nat) (v : Word) : State :=
  let x := s.eng e
  let sl := x.islot k
  let now := domTime s (bits sl.ctl 8 1)
  let target := (BitVec.ofInt 64 (now + diff32 v.toNat now)).toNat
  let s := s.setEng e (x.setIslot k { sl with time := v, target := target, armed := slotMode sl == 2 })
  if slotMode sl = 2 then slotFire s e k else s

/-- The time S of a JOB_MARK on slot `k` (R82), if it names one: none for a slot that is off, for a one-shot slot neither fired nor
armed, for one that follows a generator with EN = 0, and for one whose one-shot generator has fired and has no next time, of which R82
does not speak. DESIGN CHOICE (log 233) -/
def jobTime (s : State) (e k : Nat) : Option Nat :=
  let sl := (s.eng e).islot k
  let m := slotMode sl
  let n := bits sl.ctl 2 5
  if m = 0 || m = 3 || (m = 1 && !s.on R.TB_IG_CTL_EN n) then none
  else match sl.firstInCycle with
    | some t => some t
    | none =>
      if m = 2 then if sl.armed then some sl.target else none
      else if (s.igen n).armed then some (ceil16 (s.igen n).next) else none

/-- The domain that times slot `k`: its own DOM for one-shot, its generator's otherwise. -/
def slotDom (s : State) (e k : Nat) : Nat :=
  let sl := (s.eng e).islot k
  if slotMode sl = 2 then bits sl.ctl 8 1 else igDom s (bits sl.ctl 2 5)

/-- An engine writes JOB_MARK (R82): S − t is entered, if the slot names a time S. -/
def jobMark (s : State) (e k : Nat) : State :=
  match jobTime s e k with
  | some t => engSlack s e (diff64 t (domTime s (slotDom s e k)))
  | none => s

/-- An engine reads T0_LO (R181): the other words are latched at the same tick. -/
def engTimeRead (s : State) (e : Nat) : State :=
  let t0 := domTime s 0
  let t1 := domTime s 1
  let f := s.time.frc.toNat
  s.modEng e fun x => { x with
    tlat := [w32 (t0 / 2 ^ 32), w32 t1, w32 (t1 / 2 ^ 32), w32 f, w32 (f / 2 ^ 32)] }

/-- Whether the loader accepts an access (R79): READY, a logical engine, HALTED, and a data address within 8 KiB. -/
def loaderOk (s : State) (addr : Bool) : Bool :=
  let e := s.get R.CE_LD_SEL_LE
  s.on R.CE_GSTAT_READY && e < 48 && engState s e == 0
    && (!addr || !s.on R.CE_LD_SEL_SPACE || s.get R.CE_LD_ADDR_V < 2048)

/-- The space and byte address that the loader selects. -/
def loaderAt (s : State) : Space × Nat :=
  let e := s.get R.CE_LD_SEL_LE
  (if s.on R.CE_LD_SEL_SPACE then .dmem e else .imem e, 4 * s.get R.CE_LD_ADDR_V)

/-- The clear of a space completes (R79). -/
def loaderZeroDone (s : State) : State :=
  match s.engArr.zero with
  | none => s
  | some (e, data) =>
    let s := if data then s.zero (.dmem e) 0 8192
      else (s.zero (.imem e) 0 16384).modEng e fun x => { x with bad := [] }
    { (s.clr R.CE_LD_STAT_BUSY).clr R.CE_LD_SEL_ZERO with engArr := { s.engArr with zero := none } }

/-- An accepted access of the loader: a clear that is in progress completes first (R79). DEDUCED -/
def loaderTurn (s : State) : State := loaderZeroDone s

/-- A write of CE_LD_DATA (R79): a word loaded into instruction memory is the pack's word from then on (R69). -/
def loaderWrite (s : State) (v : Nat) : State :=
  if loaderOk s true then
    let s := loaderTurn s
    let p := loaderAt s
    let s := if s.on R.CE_LD_SEL_SPACE then s
      else s.modEng (s.get R.CE_LD_SEL_LE) fun x => { x with bad := tabClear x.bad (s.get R.CE_LD_ADDR_V) (s.get R.CE_LD_ADDR_V + 1) }
    (s.setMword p.1 p.2 v).addWrap R.CE_LD_ADDR_V 1
  else s.raise R.CE_LD_STAT_DENIED

/-- A read of CE_LD_DATA (R79). -/
def loaderRead (s : State) : State :=
  if loaderOk s true then
    let s := loaderTurn s
    let p := loaderAt s
    (s.addWrap R.CE_LD_ADDR_V 1).answer (s.mword p.1 p.2)
  else (s.raise R.CE_LD_STAT_DENIED).answer 0

/-- A write of CE_LD_SEL (R79): ZERO starts clearing the selected space. -/
def loaderSel (s : State) (v : Nat) : State :=
  let s := (s.put R.CE_LD_SEL_LE (bits v 0 6)).put R.CE_LD_SEL_SPACE (bits v 8 1)
  if v.testBit 9 then
    if loaderOk s false then
      let s := loaderTurn s
      { (s.raise R.CE_LD_STAT_BUSY).raise R.CE_LD_SEL_ZERO with
        engArr := { s.engArr with zero := some (s.get R.CE_LD_SEL_LE, s.on R.CE_LD_SEL_SPACE) } }
    else s.raise R.CE_LD_STAT_DENIED
  else s

/-- An ECC error in a word of an engine memory (R69): a corrected one counts; an uncorrectable one sets its flag, and the word as
stored is a free value, which the engine goes on with. The word of the pack image is remembered, and waits for the next migration where
CE_ERR_EN lets the error raise the engine's event source. -/
def engEcc (s : State) (e : Nat) (at_ : EccWord) (corrected : Bool) : State :=
  if corrected then s.addSat R.CE_ECC_CNT_V 1 e
  else
    let r := s.draw 32
    match at_ with
    | .data word => (r.2.setMword (.dmem e) (4 * word) r.1.toNat).raise R.CE_ERR_DMEM_ECC e
    | .code word =>
      let old := w32 (s.mword (.imem e) (4 * word))
      let x := s.eng e
      let due := (s.rd R.CE_ERR_EN e).testBit 1
      let was := (x.bad.find? fun p => p.1 == word.val).map (·.2)
      let y := { x with bad := tabPut x.bad word ((was.map (·.1)).getD old, due || (was.map (·.2)).getD false) }
      ((r.2.setEng e y).setMword (.imem e) (4 * word) r.1.toNat).raise R.CE_ERR_IMEM_ECC e

/-- The instruction words that wait for a migration, and the others that ECC has lost. -/
def badDue (x : Eng) : Tab (Word × Bool) := x.bad.filter (·.2.2)
def badKept (x : Eng) : Tab (Word × Bool) := x.bad.filter fun p => !p.2.2

/-- Patina reloads the instruction words of the pack image that wait for it (R69). -/
def reloadBad (s : State) (e : Nat) : State :=
  ((badDue (s.eng e)).foldl (fun s p => s.setMword (.imem e) (4 * p.1) p.2.1.toNat) s).modEng e fun x => { x with bad := badKept x }

/-- A write of CE_ERR_EN (R69): with IMEM_ECC set it raises the source, and every word lost so far waits for the next migration. DEDUCED
(log 239) -/
def engErrEnWrite (s : State) (e v : Nat) : State :=
  let s := s.regWrite R.CE_ERR_EN v e
  if (s.rd R.CE_ERR_EN e).testBit 1 && s.on R.CE_ERR_IMEM_ECC e then
    s.modEng e fun x => { x with bad := x.bad.map fun p => (p.1, p.2.1, true) }
  else s

end Sys2Proof.Machine
end

