-- ==== Sys2Proof/Machine/CanOps.lean ====
section
/-! DEFINITION. The CAN controllers' operations (spec/09): transmit buffers, the choice between them, attempts, error counters
and bus states, filters and the receive FIFO, triggers, and time-triggered operation. -/
namespace Sys2Proof.Machine

/-- Controller CB`n` outside its registers. -/
def State.cb (s : State) (n : Nat) : CanSt := tabGet {} s.can n

/-- Replace it. -/
def State.setCb (s : State) (n : Nat) (x : CanSt) : State := { s with can := tabSet {} s.can n x }

/-- TXB_STAT.STATE: 0 IDLE, 1 PENDING, 2 TX, 3 SENT, 4 FAILED, 5 ABORTED. -/
def txbState (s : State) (n k : Nat) : Nat := s.get R.TXB_STAT_STATE n k

/-- Whether a buffer may be written (R246): not PENDING and not TX. -/
def txbFree (s : State) (n k : Nat) : Bool := txbState s n k != 1 && txbState s n k != 2

/-- Show the head of the receive FIFO in the registers (R252). -/
def canShow (s : State) (n : Nat) : State :=
  let l := (s.cb n).rx
  let h := l.headD ⟨0, 0, 0, 0, 0, []⟩
  let s := (s.put R.CAN_RXF_STAT_COUNT l.length n).put R.CAN_RXF_STAT_FREE
    (16384 - l.foldl (fun k m => k + m.data.length) 0) n
  let s := ((s.wr R.CAN_RX_ID h.id.toNat n).wr R.CAN_RX_FMT h.fmt.toNat n).wr R.CAN_RX_AF h.af.toNat n
  (s.wr R.CAN_RX_TS h.ts.toNat n).wr R.CAN_RX_INFO h.info.toNat n

/-- Word `j` of the head message's data. -/
def canRxWord (s : State) (n j : Nat) : Nat := leNat ((((s.cb n).rx.headD ⟨0, 0, 0, 0, 0, []⟩).data.drop (4 * j)).take 4)

/-- CAN_RX_POP (R252): the head message goes and RXD starts anew. -/
def canPop (s : State) (n : Nat) : State :=
  let x := s.cb n
  canShow (s.setCb n { x with rx := x.rx.tail, rdPos := 0 }) n

/-- TX_DONE of a controller (R249), with line 25 of the engine that owns it (R256). -/
def canTxDone (s : State) (n k : Nat) : State :=
  let s := (s.raise R.CAN_EVT_TX_DONE n).wr R.TXB_TS (tabGet 0 (s.cb n).sof k).toNat n k
  if s.on R.CAN_CTL_OWNER_EN n then engLine s (s.get R.CAN_CTL_OWNER_LE n) 25 else s

/-- REQ (R246): from the four free states, to PENDING with ATTEMPTS clear. -/
def txbRequest (s : State) (n k : Nat) : State :=
  if txbFree s n k then (s.put R.TXB_STAT_STATE 1 n k).put R.TXB_STAT_ATTEMPTS 0 n k else s

/-- ABORT (R249). -/
def txbAbort (s : State) (n k : Nat) : State :=
  if txbState s n k = 1 then canTxDone (s.put R.TXB_STAT_STATE 5 n k) n k
  else if txbState s n k = 2 then s.setCb n { s.cb n with abort := tabSet false (s.cb n).abort k true }
  else s

/-- A write of TXB_CTL (R246, R249): REQ and ABORT together act as ABORT alone. -/
def txbCtlWrite (s : State) (n k v : Nat) : State :=
  let s := (s.put R.TXB_CTL_LIMIT (bits v 8 8) n k).put R.TXB_CTL_CNT_ARB (bits v 16 1) n k
  let s := (s.put R.TXB_CTL_TRIG_EN (bits v 17 1) n k).put R.TXB_CTL_TRIG_IG (bits v 18 5) n k
  if v.testBit 1 then txbAbort s n k else if v.testBit 0 then txbRequest s n k else s

/-- A write of a buffer's identifier, format, acceptance field or data (R246). -/
def txbWrite (s : State) (n k : Nat) (f : State → State) : State :=
  if txbFree s n k then f s else s.raise R.TXB_STAT_WR_ERR n k

/-- Write byte-wide data word `j` of a buffer. -/
def txbData (s : State) (n k j v : Nat) : State := txbWrite s n k fun s => s.wr R.CAN_TX_DATA v n k j

/-- TXk_D (R256): append one data word; TXk_ID starts anew. -/
def txbAppend (s : State) (n k v : Nat) : State :=
  if txbFree s n k then
    let j := tabGet 0 (s.cb n).txPos k
    let s := if j < 512 then s.wr R.CAN_TX_DATA v n k j else s
    s.setCb n { s.cb n with txPos := tabSet 0 (s.cb n).txPos k (j + 1) }
  else s.raise R.TXB_STAT_WR_ERR n k

/-- A write of TXk_ID. -/
def txbId (s : State) (n k v : Nat) : State :=
  txbWrite s n k fun s =>
    (s.wr R.TXB_ID v n k).setCb n { s.cb n with txPos := tabSet 0 (s.cb n).txPos k 0 }

/-- The arbitration field of a frame as a number: the lower wins (ISO 11898-1: dominant bits first). PRESUMED -/
def arbKey (id : Nat) : Nat :=
  if id.testBit 29 then bits id 18 11 * 2 ^ 21 + 3 * 2 ^ 19 + bits id 0 18 * 2 + bits id 30 1
  else bits id 0 11 * 2 ^ 21 + bits id 30 1 * 2 ^ 20

/-- Whether a controller is time master (R257): in CC mode, level 1 or 2. -/
def ttMaster (s : State) (n : Nat) : Bool :=
  s.get R.CAN_CTL_FMT n == 0 && (s.get R.CAN_TT_CTL_LEVEL n == 1 || s.get R.CAN_TT_CTL_LEVEL n == 2) && s.on R.CAN_TT_CTL_ROLE n

/-- Whether it is time receiver. -/
def ttReceiver (s : State) (n : Nat) : Bool :=
  s.get R.CAN_CTL_FMT n == 0 && (s.get R.CAN_TT_CTL_LEVEL n == 1 || s.get R.CAN_TT_CTL_LEVEL n == 2) && !s.on R.CAN_TT_CTL_ROLE n

/-- Whether the controller transmits the format of buffer `k` (R243). -/
def txbFits (s : State) (n k : Nat) : Bool := s.rd R.TXB_FMT n k % 4 ≤ min (s.get R.CAN_CTL_FMT n) 2

/-- The arbitration field with which buffer `k` would go on the bus: TXB0 of a time master sends REF_ID (R247, R257). -/
def txbKey (s : State) (n k : Nat) : Nat :=
  if k = 0 && ttMaster s n then arbKey (s.get R.CAN_TT_REF_ID_V n) else arbKey (s.rd R.TXB_ID n k)

/-- The PENDING buffer that the controller chooses (R247). A buffer whose format the controller does not transmit (R243) is
never chosen and stays PENDING. DESIGN CHOICE -/
def txbChoice (s : State) (n : Nat) : Option Nat :=
  ((List.range 3).filter fun k => txbState s n k == 1 && txbFits s n k).foldl (fun b k => match b with
    | none => some k
    | some j => if !s.on R.CAN_CTL_TXORD n && txbKey s n k < txbKey s n j then some k else some j) none

/-- NTU of a controller in ns, held within 100 to 100,000 (R257). -/
def canNtu (s : State) (n : Nat) : Nat := max 100 (min 100000 (s.get R.CAN_TT_NTU_V n))

/-- Domain time in NTU with 3 fraction bits, 19 bits (R257). -/
def canGlobal (s : State) (n : Nat) : Nat := domTime s (s.get R.CAN_TT_CTL_DOM n) * 8 / canNtu s n % 2 ^ 19

/-- The reference message of a time master as it is sent (R257): REF_ID, the cycle count in byte 0, and at level 2 the
fraction in byte 1 and the mark in bytes 2 and 3. The places follow ISO 11898-4. PRESUMED A message that is sent again keeps its
cycle count, which advances when one succeeds (`txbSent`). DESIGN CHOICE -/
def ttFill (s : State) (n : Nat) : State :=
  let x := s.cb n
  let old := s.rd R.CAN_TX_DATA n 0 0
  let w := setBits old 0 6 x.cycle
  let g := canGlobal s n
  let w := if s.get R.CAN_TT_CTL_LEVEL n = 2 then setBits (setBits w 9 3 g) 16 16 (g / 8) else w
  (s.wr R.TXB_ID (s.get R.CAN_TT_REF_ID_V n) n 0).wr R.CAN_TX_DATA w n 0 0

/-- A start-of-frame time `age` ns ago, on the 25 ns grid of the kernel clock (R244, R252). -/
def canStamp (s : State) (d age : Nat) : Nat :=
  (domTime s d + 2 ^ 64 - age - (s.time.frc.toNat + 2 ^ 64 - age) % 25) % 2 ^ 64

/-- Whether an attempt of buffer `k` has a data phase with a bit rate of its own: an XL frame, or an FD frame with BRS. -/
def txbFast (s : State) (n k : Nat) : Bool :=
  let f := s.rd R.TXB_FMT n k
  f % 4 == 2 || (f % 4 == 1 && f.testBit 2)

/-- Whether the data phase of buffer `k` goes out with transceiver mode switching (R245): PWM coded, with error signalling off. -/
def txbQuiet (s : State) (n k : Nat) : Bool := s.on R.CAN_CTL_TMS n && s.rd R.TXB_FMT n k % 4 == 2

/-- The controller's pins (R255). CANn_TX is recessive (high) but while a frame is on the bus, and stays so with LOOP = 1;
CANn_EN is high while the controller is out of INIT. DESIGN CHOICE -/
def canPins (s : State) (n : Nat) : State :=
  let quiet := s.on R.CAN_CTL_LOOP n || (List.range 3).all fun k => txbState s n k != 2
  s.setCb n { s.cb n with tx := quiet, en := !s.on R.CAN_STAT_INIT n }

/-- TX_BUFFER_CHOICE (R247, R257): with no attempt in progress, on a controller that takes part in the bus. -/
def canChoose (s : State) (n : Nat) : State :=
  if s.on R.CAN_STAT_INIT n || s.get R.CAN_STAT_BUS n = 2 || s.on R.CAN_CTL_MON n || !s.on R.CAN_CTL_RUN n
      || (List.range 3).any (fun k => txbState s n k == 2) then s
  else match txbChoice s n with
    | none => s
    | some k =>
      let s := if k = 0 && ttMaster s n then ttFill s n else s
      let t := w32 (canStamp s (s.get R.CAN_CTL_TS_DOM n) 0)
      let ssp := if s.on R.CAN_TDC_EN n && txbFast s n k then some ((Config.canDelay n).toNat + s.get R.CAN_TDC_SSPOFF n) else none
      let pwm := if txbQuiet s n k then some (bits (s.rd R.CAN_PWM n) 0 6, bits (s.rd R.CAN_PWM n) 8 6, bits (s.rd R.CAN_PWM n) 16 6) else none
      let x := { s.cb n with sof := tabSet 0 (s.cb n).sof k t, ssp := ssp, pwm := pwm }
      canPins ((s.setCb n x).put R.TXB_STAT_STATE 2 n k) n

/-! ### Errors and bus states -/

/-- Give the error counters their values, and the bus its state (R253, ISO 11898-1). -/
def canErrors (s : State) (n tec rec_ : Nat) : State :=
  let s := (s.put R.CAN_ERRC_TEC (min tec 255) n).put R.CAN_ERRC_REC (min rec_ 255) n
  let bus := if s.get R.CAN_STAT_BUS n = 2 || 256 ≤ tec then 2 else if 128 ≤ tec || 128 ≤ rec_ then 1 else 0
  if bus = s.get R.CAN_STAT_BUS n then s
  else
    let s := (s.put R.CAN_STAT_BUS bus n).raise R.CAN_EVT_BUS_CHG n
    if bus = 2 && s.on R.CAN_CTL_AUTO_REC n then s.raise R.CAN_STAT_RECOVERING n else s

/-- The end of an attempt of buffer `k` that did not succeed (R248, R249). -/
def txbFailed (s : State) (n k : Nat) (counts : Bool) : State :=
  let s := if counts then s.addSat R.TXB_STAT_ATTEMPTS 1 n k else s
  let x := s.cb n
  let lim := s.get R.TXB_CTL_LIMIT n k
  if tabGet false x.abort k then
    canTxDone ((s.setCb n { x with abort := tabSet false x.abort k false }).put R.TXB_STAT_STATE 5 n k) n k
  else if lim != 0 && lim ≤ s.get R.TXB_STAT_ATTEMPTS n k then
    canTxDone ((s.put R.TXB_STAT_STATE 4 n k).raise R.CAN_EVT_TX_FAIL n) n k
  else s.put R.TXB_STAT_STATE 1 n k

/-- The buffers in TX. -/
def txbSending (s : State) (n : Nat) : List Nat := (List.range 3).filter fun k => txbState s n k == 2

/-- New error counts (R253): on entry to BUS_OFF the attempt in progress ends in an error. -/
def canBusError (s : State) (n tec rec_ : Nat) : State :=
  let was := s.get R.CAN_STAT_BUS n
  let s := canErrors s n tec rec_
  if was != 2 && s.get R.CAN_STAT_BUS n = 2 && !(txbSending s n).isEmpty then
    canPins ((txbSending s n).foldl (fun s k => txbFailed s n k true) s) n
  else s

/-- RECOVER (R253). -/
def canRecover (s : State) (n : Nat) : State :=
  if s.get R.CAN_STAT_BUS n = 2 then s.raise R.CAN_STAT_RECOVERING n else s

/-- Recovery is complete (R253). -/
def canRecovered (s : State) (n : Nat) : State :=
  if s.on R.CAN_STAT_RECOVERING n then
    let s := (s.clr R.CAN_STAT_RECOVERING n).put R.CAN_STAT_BUS 0 n
    ((s.put R.CAN_ERRC_TEC 0 n).put R.CAN_ERRC_REC 0 n).raise R.CAN_EVT_BUS_CHG n
  else s

/-! ### Reception -/

/-- Whether filter `f` is valid and matches a message (R251); TYPE 3 is not defined and matches nothing. -/
def fltHit (s : State) (n f : Nat) (m : CanMsg) : Bool :=
  let ctl := s.rd R.CAN_FLT n f 2
  let ide := m.id.getLsbD 29
  let xl := m.fmt.toNat % 4 = 2
  let field := match ctl % 4 with
    | 0 => if ide && !xl then none else some (bits m.id.toNat 0 11)
    | 1 => if ide && !xl then some (bits m.id.toNat 0 29) else none
    | 2 => if xl then some m.af.toNat else none
    | _ => none
  match field with
  | some x => ctl.testBit 4 && x &&& s.rd R.CAN_FLT n f 1 == s.rd R.CAN_FLT n f 0 &&& s.rd R.CAN_FLT n f 1
  | none => false

/-- A valid reference message at a time receiver (R257): the mark, the local time, and at level 2 the measurement. -/
def ttReference (s : State) (n : Nat) (m : CanMsg) (age : Nat) : State :=
  if ttReceiver s n then
    let d := s.get R.CAN_TT_CTL_DOM n
    let loc := canStamp s d age
    let mark := bits (byteAt4 m.data 1) 1 3 + 8 * (byteAt4 m.data 2 + 256 * byteAt4 m.data 3)
    let two := s.get R.CAN_TT_CTL_LEVEL n = 2
    let s := ((s.setCb n { s.cb n with missed := 0 }).raise R.CAN_EVT_TT_REF n).wr R.CAN_TT_RX_TS loc n
    let s := if two then s.put R.CAN_TT_RX_MARK_V mark n else s
    if two && s.on R.CAN_TT_CTL_AUTO_MEAS n then
      let ntu := canNtu s n
      let k := loc * 8 / ntu
      let x : Nat := (mark + 2 ^ 19 - k % 2 ^ 19) % 2 ^ 19
      let ext : Int := (k : Int) + (if x < 2 ^ 18 then (x : Int) else (x : Int) - (2 ^ 19 : Nat))
      measWrite s d (u32 (sat32 ((loc : Int) * 256 - ext * ntu * 32)))
    else s
  else s
where
  byteAt4 (l : List Byte) (i : Nat) : Nat := (l.getD i 0).toNat

/-- Store a message in the receive FIFO, or discard it for want of room (R252). -/
def canStore (s : State) (n : Nat) (m : CanMsg) : State :=
  let x := s.cb n
  if x.rx.length < 64 && x.rx.foldl (fun k m => k + m.data.length) 0 + m.data.length ≤ 16384 then
    canShow ((s.setCb n { x with rx := x.rx ++ [m] }).raise R.CAN_EVT_RX n) n
  else (s.addSat R.CAN_RX_OVF_V 1 n).raise R.CAN_EVT_RX_OVF n

/-- A frame received without error goes through the filters (R251); ACTION 3 is not defined and acts as 0. -/
def canFilter (s : State) (n id fmt af age : Nat) (data : List Byte) : State :=
  let ts := w32 (canStamp s (s.get R.CAN_CTL_TS_DOM n) age)
  let m : CanMsg := ⟨w32 id, w32 (setBits fmt 4 12 data.length), w32 af, ts, 0, data⟩
  match (List.range 128).find? fun f => fltHit s n f m with
  | some f =>
    let act := bits (s.rd R.CAN_FLT n f 2) 2 2
    if act = 1 then s
    else
      let s := if act = 2 then ttReference s n m age else s
      canStore s n { m with info := w32 (f + 2 ^ 8 * bit01 (act == 2)) }
  | none => if s.on R.CAN_CTL_NOMATCH_ACC n then canStore s n { m with info := w32 (2 ^ 7) } else s

/-- CAN_FRAME_RECEIVE (R243, R251 to R254): a controller in INIT or BUS_OFF takes no part; a format its FMT does not receive
is a form error. The counts follow ISO 11898-1. PRESUMED -/
def canReceive (s : State) (n id fmt af age : Nat) (data : List Byte) : State :=
  if s.on R.CAN_STAT_INIT n || s.get R.CAN_STAT_BUS n = 2 then s
  else
    let tec := s.get R.CAN_ERRC_TEC n
    let rec_ := s.get R.CAN_ERRC_REC n
    let mode := min (s.get R.CAN_CTL_FMT n) 2
    if mode < fmt % 4 then canBusError s n tec (rec_ + 1)
    else canFilter (canErrors s n tec (if 127 < rec_ then 127 else rec_ - 1)) n id fmt af age data

/-- Buffer `k` succeeded (R248, R249); a time master's reference message advances its cycle count (R257). -/
def txbSent (s : State) (n k : Nat) : State :=
  let x := s.cb n
  let c := if k = 0 && ttMaster s n then (x.cycle + 1) % 64 else x.cycle
  canTxDone ((s.setCb n { x with abort := tabSet false x.abort k false, cycle := c }).put R.TXB_STAT_STATE 3 n k) n k

/-- TEC after an attempt that ended in an error (R253, R245, ISO 11898-1): 8 more, but not at an error-passive transmitter that
nothing acknowledges and that sees no dominant bit during its error flag, not at a stuff error during arbitration whose recessive
stuff bit was seen dominant, and not where error signalling is off. PRESUMED -/
def tecAfter (s : State) (n k : Nat) (o : TxOutcome) : Nat :=
  let tec := s.get R.CAN_ERRC_TEC n
  match o with
  | .ackError => if s.get R.CAN_STAT_BUS n = 1 then tec else tec + 8
  | .dataError => if txbQuiet s n k then tec else tec + 8
  | .stuffError => tec
  | _ => tec + 8

/-- TX_ATTEMPT_END (R248, R249, R251): success, lost arbitration, or error. The counts follow ISO 11898-1. PRESUMED -/
def canAttemptEnd (s : State) (n : Nat) (o : TxOutcome) (age : Nat) : State :=
  match txbSending s n with
  | [] => s
  | k :: _ =>
    let tec := s.get R.CAN_ERRC_TEC n
    let rec_ := s.get R.CAN_ERRC_REC n
    match o with
    | .success =>
      let s := canPins (txbSent (canErrors s n (tec - 1) rec_) n k) n
      if s.on R.CAN_CTL_LOOP n then
        let f := s.rd R.TXB_FMT n k
        let len := min (bits f 4 12) 2048
        canFilter s n (s.rd R.TXB_ID n k) f (s.rd R.TXB_AF n k) age
          (((List.range ((len + 3) / 4)).flatMap fun j => leBytes 4 (s.rd R.CAN_TX_DATA n k j)).take len)
      else s
    | .lost => canPins (txbFailed s n k (s.on R.TXB_CTL_CNT_ARB n k)) n
    | .error | .ackError | .dataError | .stuffError => canPins (txbFailed (canErrors s n (tecAfter s n k o) rec_) n k true) n

/-- CAN_INIT_ENTRY (R254). -/
def canInit (s : State) (n : Nat) : State :=
  if !s.on R.CAN_CTL_RUN n && !s.on R.CAN_STAT_INIT n && (txbSending s n).isEmpty then
    let s := s.raise R.CAN_STAT_INIT n
    canPins (((List.range 3).filter fun k => txbState s n k == 1).foldl (fun s k => txbAbort s n k) s) n
  else s

/-- A write of CAN_CTL (R253, R254): FMT and TMS change in INIT only; RUN leaves INIT. -/
def canCtlWrite (s : State) (n v : Nat) : State :=
  let init := s.on R.CAN_STAT_INIT n
  let fmt := s.get R.CAN_CTL_FMT n
  let tms := s.get R.CAN_CTL_TMS n
  let s := s.wr R.CAN_CTL (setBits v 8 1 0 % 2 ^ 18) n
  let s := if init then s else (s.put R.CAN_CTL_FMT fmt n).put R.CAN_CTL_TMS tms n
  let s := canPins (if v.testBit 0 then s.clr R.CAN_STAT_INIT n else s) n
  if v.testBit 8 then canRecover s n else s

/-- TT_MISS (R257): two cycles of a time receiver have gone by without a reference message, and the count of such cycles
starts anew. A receiver's cycles are those of generator CAN_TT_CTL.IG (`canInstant`). DESIGN CHOICE -/
def ttMiss (s : State) (n : Nat) : State :=
  if ttReceiver s n && 2 ≤ (s.cb n).missed then ((s.setCb n { s.cb n with missed := 0 }).addSat R.CAN_TT_MISS_V 1 n).raise R.CAN_EVT_TT_MISS n else s

/-- An instant of generator `g` at a controller (R250, R257): triggered buffers, the master's reference message, and the end of
a receiver's cycle. -/
def canInstant (s : State) (n g : Nat) : State :=
  let x := s.cb n
  let s := if ttReceiver s n && s.get R.CAN_TT_CTL_IG n = g then s.setCb n { x with missed := x.missed + 1 } else s
  let s := if ttMaster s n && s.get R.CAN_TT_CTL_IG n = g then txbRequest s n 0 else s
  (List.range 3).foldl (fun s k =>
    if s.on R.TXB_CTL_TRIG_EN n k && s.get R.TXB_CTL_TRIG_IG n k = g then
      if txbFree s n k then txbRequest s n k else s.raise R.CAN_EVT_TRIG_MISS n
    else s) s

/-! ### YPCO's objects (R153) -/

/-- The most bytes of a PDO on a bus of a format of CAN_CTL.FMT (R152, R153). -/
def pdoMax (fmt : Nat) : Nat :=
  match fmt with
  | 0 => 8
  | 1 => 64
  | _ => 256

/-- The identifier, format and acceptance field with which YPCO sends object `id` of `len` bytes on a bus of a format (R153): in XL
mode SDU type 0xE0, VCID 0 and the identifier in the acceptance field. -/
def ypcoWords (fmt id len : Nat) : Nat × Nat × Nat :=
  match fmt with
  | 0 => (id % 2048, 16 * len, 0)
  | 1 => (id % 2048, 1 + 16 * len, 0)
  | _ => (id % 2048, 2 + 16 * len + 2 ^ 16 * 0xE0, id % 2048)

/-- Whether a buffer holds an object as R153 lays it out: BRS and ESI apart, its words are those of its identifier and length. -/
def ypcoLaid (s : State) (n k : Nat) : Bool :=
  let f := s.rd R.TXB_FMT n k
  (s.rd R.TXB_ID n k, setBits f 2 2 0, s.rd R.TXB_AF n k)
    == ypcoWords (min (s.get R.CAN_CTL_FMT n) 2) (s.rd R.TXB_ID n k) (bits f 4 12)

end Sys2Proof.Machine
end

