-- ==== Sys2Proof/Machine/Can.lean ====
section
/-! DEFINITION. Meanings of the CAN controllers' commands (spec/09). -/
namespace Sys2Proof.Machine

/-- Whether a requester may work an owned controller's buffers and FIFO (R256): Atelier alone. -/
def canMay (s : State) (r : Requester) (n : Nat) : Bool := !s.on R.CAN_CTL_OWNER_EN n || isAtl r

/-- Whether engine `e` owns a controller (R256). -/
def canOwned (s : State) (e n : Nat) : Bool := s.on R.CAN_CTL_OWNER_EN n && s.get R.CAN_CTL_OWNER_LE n == e

/-- A write of TXB_CTL by a requester (R256). -/
def txbBus (s : State) (r : Requester) (n k v : Nat) : State :=
  guardedWrite s r (R.TXB_CTL.addr n k 0) (canMay s r n) fun s => txbCtlWrite s n k v

/-- TXB_REQUEST (R246, R249). -/
def execTxbRequest (r : Requester) (n : Fin 4) (k : Fin 3) (v : Word) (s : State) :
    Host.Outcome State Fault Refusal := .next (txbBus s r n k (setBits v.toNat 0 1 1))

/-- TXB_ABORT (R249). -/
def execTxbAbort (r : Requester) (n : Fin 4) (k : Fin 3) (v : Word) (s : State) : Host.Outcome State Fault Refusal :=
  .next (txbBus s r n k (setBits v.toNat 1 1 1))

/-- TX_BUFFER_CHOICE (R247, R257). -/
def execTxBufferChoice (n : Fin 4) (s : State) : Host.Outcome State Fault Refusal := .next (canChoose s n)

/-- TX_ATTEMPT_END (R248, R249, R251, R253). -/
def execTxAttemptEnd (n : Fin 4) (o : TxOutcome) (age : BitVec 32) (s : State) : Host.Outcome State Fault Refusal :=
  .next (canAttemptEnd s n o age.toNat)

/-- BUS_OFF_RECOVER (R253): CAN_CTL with RECOVER set. -/
def execBusOffRecover (r : Requester) (n : Fin 4) (v : Word) (s : State) : Host.Outcome State Fault Refusal :=
  .next (guardedWrite s r (R.CAN_CTL.addr n 0 0) true fun s => canCtlWrite s n (setBits v.toNat 8 1 1))

/-- BUS_OFF_RECOVERY_DONE (R253). -/
def execBusOffRecoveryDone (n : Fin 4) (s : State) : Host.Outcome State Fault Refusal := .next (canRecovered s n)

/-- CAN_FRAME_RECEIVE (R243, R251, R252, R254, R257). -/
def execCanFrameReceive (n : Fin 4) (id fmt af : Word) (age : BitVec 32) (data : List Byte) (s : State) :
    Host.Outcome State Fault Refusal := .next (canReceive s n id.toNat fmt.toNat af.toNat age.toNat data)

/-- TT_MISS (R257). -/
def execTtMiss (n : Fin 4) (s : State) : Host.Outcome State Fault Refusal := .next (ttMiss s n)

/-- CAN_RX_POP (R252, R256). -/
def execCanRxPop (r : Requester) (n : Fin 4) (s : State) : Host.Outcome State Fault Refusal :=
  .next (guardedWrite s r (R.CAN_RX_POP.addr n 0 0) (canMay s r n) fun s => canPop s n)

/-- CAN_INIT_ENTRY (R254). -/
def execCanInitEntry (n : Fin 4) (s : State) : Host.Outcome State Fault Refusal := .next (canInit s n)

/-- CAN_TX_DATA_APPEND (R256): at a slot the engine does not own, the write is one to a reserved address (R70). -/
def execCanTxDataAppend (e : Fin 48) (n : Fin 4) (k : Fin 3) (v : Word) (s : State) :
    Host.Outcome State Fault Refusal :=
  .next (if canOwned s e n then txbAppend s n k v.toNat else s.raise R.CE_ERR_IO_RSVD e)

/-- CAN_BUS_ERROR (R253). -/
def execCanBusError (n : Fin 4) (tec : Fin 512) (rec_ : Fin 256) (s : State) : Host.Outcome State Fault Refusal :=
  .next (if s.on R.CAN_STAT_INIT n then s else canBusError s n tec rec_)

end Sys2Proof.Machine
end

