-- ==== Sys2Proof/Machine/Evh.lean ====
section
/-! DEFINITION. The event hub's commands (spec/15): a source's signal, software events, claims, ends of service, masks and
their fence, retargeting, and the move to a fallback. -/
namespace Sys2Proof.Machine

/-- Who may write the registers of target `t` (spec/15, "Registers"): its receiver, and Atelier for targets 4 and 7. Target
4 is used by Patina for core self-test, and R23 gives Patina an address-error source of its own. DEDUCED -/
def mayTarget (r : Requester) (t : Nat) : Bool :=
  if t < 4 then (match r with | .atl c => c.val == t | _ => false)
  else if t = 4 then isAtl r || isPat r
  else if t = 5 then isArm r
  else if t = 6 then isHost r
  else isAtl r

/-- EVENT_SIGNAL (R364): an edge source signals once; a level source while its level is asserted. -/
def execEventSignal (n : Fin 512) (s : State) : Host.Outcome State Fault Refusal :=
  .next (if isLevelSource n && !levelNow s n then s else evhEvent s n)

/-- SOFTWARE_EVENT (R363): EVH_SWSET raises source 448 + value; the block's text names no requester for it. DEDUCED -/
def execSoftwareEvent (r : Requester) (v : BitVec 6) (s : State) : Host.Outcome State Fault Refusal :=
  .next (guardedWrite s r (R.EVH_SWSET.addr 0 0 0) true fun s => evhEvent s (448 + v.toNat))

/-- EVENT_CLAIM (R367). -/
def execEventClaim (r : Requester) (t : Fin 8) (n : Fin 512) (s : State) : Host.Outcome State Fault Refusal :=
  .next (guardedWrite s r (R.EVH_T_CLAIM.addr t 0 0) (mayTarget r t) fun s => evhClaim s t n)

/-- EVENT_EOI (R367). -/
def execEventEoi (r : Requester) (t : Fin 8) (n : Fin 512) (s : State) : Host.Outcome State Fault Refusal :=
  .next (guardedWrite s r (R.EVH_T_EOI.addr t 0 0) (mayTarget r t) fun s => evhEoi s t n)

/-- EVENT_MASK (R368): accepted from Atelier and Armature. -/
def execEventMask (r : Requester) (w : Fin 16) (v : Word) (s : State) : Host.Outcome State Fault Refusal :=
  .next (guardedWrite s r (R.EVH_MASK.addr w 0 0) (isAtl r || isArm r) fun s => evhMask s w v.toNat)

/-- MASK_FENCE (R369): every delivery is complete within the command that began it, so the read returns 0 at once. -/
def execMaskFence (r : Requester) (s : State) : Host.Outcome State Fault Refusal :=
  .next (guardedRead s r (R.EVH_MASK_FENCE.addr 0 0 0) fun s => s.answer 0)

/-- EVENT_RETARGET (R370): accepted from Atelier and Armature. -/
def execEventRetarget (r : Requester) (n : Fin 512) (v : Word) (s : State) : Host.Outcome State Fault Refusal :=
  .next (guardedWrite s r (R.EVH_SRC_CFG.addr n 0 0) (isAtl r || isArm r) fun s => evhRetarget s n v.toNat)

/-- FALLBACK_MOVE (R371). -/
def execFallbackMove (n : Fin 512) (s : State) : Host.Outcome State Fault Refusal :=
  .next (evhFallback s n)

end Sys2Proof.Machine
end

