-- ==== Sys2Proof/Machine/Crc.lean ====
section
/-! DEFINITION. The CRC step of the engines (R123) and the frame check sequence built on it. -/
namespace Sys2Proof.Machine

/-- Width, reflected order, and the constant of the step of polynomial POLY (R123, "CRCB polynomials"). -/
def crcPoly (poly : Nat) : Nat × Bool × Nat :=
  match poly with
  | 0 => (32, true, 0xEDB88320)
  | 1 => (32, true, 0x82F63B78)
  | 2 => (16, true, 0xA001)
  | 3 => (16, false, 0x1021)
  | 4 => (8, false, 0x1D)
  | _ => (8, false, 0x07)

/-- One bit of a reflected CRC. -/
def crcBitR (k st : Nat) : Nat := if st % 2 = 1 then st / 2 ^^^ k else st / 2

/-- One bit of a CRC of width `w` in normal order. -/
def crcBitN (w k st : Nat) : Nat :=
  if st / 2 ^ (w - 1) % 2 = 1 then (2 * st ^^^ k) % 2 ^ w else 2 * st % 2 ^ w

/-- Apply a function `n` times. -/
def times {α : Type} (f : α → α) : Nat → α → α
  | 0, x => x
  | n + 1, x => times f n (f x)

/-- One byte of a CRC (R123). -/
def crcByte (poly st b : Nat) : Nat :=
  let p := crcPoly poly
  if p.2.1 then times (crcBitR p.2.2) 8 (st ^^^ b)
  else times (crcBitN p.1 p.2.2) 8 (st ^^^ b * 2 ^ (p.1 - 8))

/-- CRCB (R123): advance the state by `n` bytes of `data`, the lowest byte first. -/
def crcb (state data poly : Nat) : Nat → Nat
  | 0 => state % 2 ^ (crcPoly poly).1
  | n + 1 => crcb (crcByte poly (state % 2 ^ (crcPoly poly).1) (data % 256)) (data / 256) poly n

/-- The IEEE 802.3 CRC state after a byte string, from all ones. -/
def crc32State (f : List Byte) : Nat := f.foldl (fun st b => crcByte 0 st b.toNat) 0xFFFFFFFF

/-- Whether a frame with its FCS checks (R123: the final state is 0xDEBB20E3). -/
def fcsOk (f : List Byte) : Bool := crc32State f == 0xDEBB20E3

/-- The FCS of a frame without one, as sent on the wire. -/
def fcsOf (f : List Byte) : List Byte := leBytes 4 (0xFFFFFFFF - crc32State f)

/-- A frame's bytes without its FCS. -/
def dropFcs (f : List Byte) : List Byte := f.take (f.length - 4)

/-- Give a frame (without FCS) its FCS; an invalid one on request (R77, R227). -/
def withFcs (f : List Byte) (good : Bool) : List Byte :=
  f ++ (if good then fcsOf f else (fcsOf f).map fun b => ~~~b)

end Sys2Proof.Machine
end

