-- ==== Sys2Proof/Machine/Frame.lean ====
section
/-! DEFINITION. Reading Ethernet frames: addresses, the 802.1Q tag, IEEE 1588 event messages (R169), the R-tag (R241), and
the edits the ports make (R170, R222, R241, the VLAN untagged set). -/
namespace Sys2Proof.Machine

/-- The byte at an offset; 0 beyond the end. -/
def byteAt (f : List Byte) (i : Nat) : Nat := (f.getD i 0).toNat

/-- A big-endian number of `n` bytes at an offset. -/
def beAt (f : List Byte) (i : Nat) : Nat → Nat
  | 0 => 0
  | n + 1 => byteAt f i * 256 ^ n + beAt f (i + 1) n

/-- `n` bytes of a number, most significant first. -/
def beBytes (n v : Nat) : List Byte := (leBytes n v).reverse

/-- Destination and source address. -/
def frameDa (f : List Byte) : Nat := beAt f 0 6
def frameSa (f : List Byte) : Nat := beAt f 6 6

/-- Whether an 802.1Q tag is present; 802.1ad tags are not interpreted. -/
def tagged (f : List Byte) : Bool := beAt f 12 2 == 0x8100

/-- The tag control word of a tagged frame. -/
def tci (f : List Byte) : Nat := beAt f 14 2

/-- The offset of the EtherType behind an 802.1Q tag. -/
def typeAt (f : List Byte) : Nat := if tagged f then 16 else 12

/-- Multicast and broadcast addresses have the group bit. -/
def isGroupAddr (mac : Nat) : Bool := mac / 2 ^ 40 % 2 == 1

/-- The offset of the IEEE 1588 message in a frame, on EtherType 0x88F7 or on UDP port 319 (R169). -/
def ptpAt (f : List Byte) : Option Nat :=
  let t := typeAt f
  let ty := beAt f t 2
  let p := t + 2
  if ty = 0x88F7 then some p
  else if ty = 0x0800 then
    let u := p + 4 * (byteAt f p % 16)
    if byteAt f (p + 9) = 17 && beAt f (u + 2) 2 = 319 then some (u + 8) else none
  else if ty = 0x86DD then
    if byteAt f (p + 6) = 17 && beAt f (p + 42) 2 = 319 then some (p + 48) else none
  else none

/-- Where the UDP checksum of a PTP message on UDP stands, if it is on UDP. -/
def udpSumAt (f : List Byte) : Option Nat :=
  match ptpAt f with
  | some m => if beAt f (typeAt f) 2 = 0x88F7 then none else some (m - 2)
  | none => none

/-- Whether a frame carries an IEEE 1588 event message: message types 0 to 3 (R169). -/
def ptpEvent (f : List Byte) : Option Nat :=
  match ptpAt f with
  | some m => if byteAt f m % 16 < 4 then some m else none
  | none => none

/-- Replace bytes at an offset. -/
def patch (f : List Byte) (i : Nat) (bs : List Byte) : List Byte := f.take i ++ bs ++ f.drop (i + bs.length)

/-- One's-complement sum of 16-bit words. -/
def sum16 (n : Nat) : Nat := n % 65536 + n / 65536

/-- Sum of the 16-bit words of `n` bytes at an offset. -/
def words16 (f : List Byte) (i : Nat) : Nat → Nat
  | 0 => 0
  | n + 1 => beAt f i 2 + words16 f (i + 2) n

/-- Overwrite `bs` (an even number of bytes at an even place of the UDP payload) and update the UDP checksum, if the frame
carries one (R170). -/
def patchUdp (f : List Byte) (i : Nat) (bs : List Byte) : List Byte :=
  let g := patch f i bs
  match udpSumAt f with
  | none => g
  | some c =>
    let old := beAt f c 2
    if old = 0 then g
    else
      let k := bs.length / 2
      let x := (65535 - old) + (k * 65535 - words16 f i k) + words16 g i k
      let y := 65535 - sum16 (sum16 (sum16 x))
      patch g c (beBytes 2 (if y = 0 then 65535 else y))

/-- A Sync sent with ONESTEP (R170): the transmit time as originTimestamp, 48 bits of s and 32 of ns. -/
def oneStep (f : List Byte) (t : Nat) : List Byte :=
  match ptpEvent f with
  | some m =>
    if byteAt f m % 16 = 0 then patchUdp f (m + 34) (beBytes 6 (t / 1000000000) ++ beBytes 4 (t % 1000000000)) else f
  | none => f

/-- A residence time in quarter ns added to correctionField, in units of 2^-16 ns (R170). -/
def addResidence (f : List Byte) (q : Int) : List Byte :=
  match ptpEvent f with
  | some m => patchUdp f (m + 8) (beBytes 8 ((((beAt f (m + 8) 8 : Nat) : Int) + q * 16384) % (2 ^ 64 : Nat)).toNat)
  | none => f

/-- Insert an 802.1Q tag. -/
def addTag (f : List Byte) (tci : Nat) : List Byte := f.take 12 ++ beBytes 2 0x8100 ++ beBytes 2 tci ++ f.drop 12

/-- Remove an 802.1Q tag. -/
def dropTag (f : List Byte) : List Byte := if tagged f then f.take 12 ++ f.drop 16 else f

/-- The R-tag of a frame, EtherType 0xF1C1 behind any 802.1Q tag: its sequence number (R241). -/
def rtagSeq (f : List Byte) : Option Nat :=
  if beAt f (typeAt f) 2 = 0xF1C1 then some (beAt f (typeAt f + 4) 2) else none

/-- Insert an R-tag with a sequence number. -/
def addRtag (f : List Byte) (seq : Nat) : List Byte :=
  f.take (typeAt f) ++ beBytes 2 0xF1C1 ++ beBytes 2 0 ++ beBytes 2 seq ++ f.drop (typeAt f)

/-- Remove the R-tag. -/
def dropRtag (f : List Byte) : List Byte :=
  if beAt f (typeAt f) 2 = 0xF1C1 then f.take (typeAt f) ++ f.drop (typeAt f + 6) else f

/-- Words of a byte string, four bytes each, the first in the low byte. -/
def toWords : List Byte → List Word
  | a :: b :: c :: d :: r => w32 (leNat [a, b, c, d]) :: toWords r
  | [] => []
  | l => [w32 (leNat l)]

end Sys2Proof.Machine
end

