-- ==== Sys2Proof/Machine/ArbOps.lean ====
section
/-! DEFINITION. Arbiters (R30 to R33): starvation counters, reserved shares over windows of 1,024 grants, and the order of the three
grounds on which a round grants. Arbiter 0 is the store's write port, arbiter 1 the DMA arbiter. -/
namespace Sys2Proof.Machine

/-- The starvation counter of a requester at an arbiter (R32). -/
def starveCount (s : State) (arb who : Nat) : Nat := tabGet 0 s.starve (arb * 256 + who)

/-- The lowest-numbered of the requesters that ask and have been denied in 64 consecutive rounds (R32). -/
def starved (s : State) (arb : Nat) (asking : List Nat) : Option Nat :=
  (List.range 256).find? fun w => asking.contains w && decide (64 ≤ starveCount s arb w)

/-- The grants and shares of an arbiter. -/
def State.arb (s : State) (arb : Nat) : ArbSt := tabGet {} s.arbs arb

/-- The reserved share of an activity in units of 0.25%, given the word of PAT_SHARE in force (R30): 0 the control path, 1 scrubbing,
2 the transparent test, 3 calibration, 4 wear measurement, 5 telemetry. -/
def actShare (w k : Nat) : Nat :=
  match k with
  | 0 => 16
  | 1 => bits w 0 5
  | 2 => bits w 8 4
  | 3 => 2
  | 4 => bits w 16 3
  | _ => bits w 24 3

/-- The requester that stands for an activity at an arbiter: Atelier's port is the control path of the write port, and elsewhere
the activities are requesters 250 to 255. The spec numbers none. DESIGN CHOICE -/
def actWho (arb k : Nat) : Nat := if arb = 0 && k = 0 then 49 else 250 + k

/-- The most grants from one grant of an activity to its next, so that every window of 1,024 grants holds its share (R30). -/
def actPeriod (w k : Nat) : Nat := 1024 / max 1 ((1024 * actShare w k + 399) / 400)

/-- The rounds that an activity can still be passed over, six of them left for the other activities that fall due with it; none
when its turn has come. -/
def actLeft (s : State) (arb k : Nat) : Nat :=
  actPeriod (s.arb arb).share.toNat k - tabGet 0 (s.arb arb).since k - 6

/-- The activity that asks and whose reserved share falls due at this round (R30, R33): the one with the least left, the first
of equals. -/
def shareDue (s : State) (arb : Nat) (asking : List Nat) : Option Nat :=
  let due := numsWhere 6 fun k => asking.contains (actWho arb k) && actLeft s arb k == 0
  (due.foldl (fun b k => match b with
    | none => some k
    | some j =>
      if actPeriod (s.arb arb).share.toNat k - tabGet 0 (s.arb arb).since k
          < actPeriod (s.arb arb).share.toNat j - tabGet 0 (s.arb arb).since j then some k else some j) none).map (actWho arb)

/-- Whom a round grants ahead of priority (R33): a reserved share that falls due, else a starving requester. -/
def arbAhead (s : State) (arb : Nat) (asking : List Nat) : Option Nat := (shareDue s arb asking).or (starved s arb asking)

/-- A grant counts for the windows of the shares (R30, R423): each activity that asked and was not granted is passed over once more,
and PAT_SHARE is taken anew where a window of 1,024 grants begins. -/
def shareRound (s : State) (arb : Nat) (asking : List Nat) (granted : Nat) : State :=
  let a := s.arb arb
  let since := (List.range 6).foldl (fun t k => tabSet 0 t k
    (if asking.contains (actWho arb k) && actWho arb k != granted then tabGet 0 t k + 1 else 0)) a.since
  let n := (a.grants + 1) % 1024
  let b : ArbSt := { grants := n, share := if n = 0 then w32 (s.rd R.PAT_SHARE) else a.share, since := since }
  { s with arbs := tabSet {} s.arbs arb b }

/-- A round of an arbiter (R32): the requesters that ask and are not granted are denied once more, the others have not been
denied in consecutive rounds. -/
def arbRound (s : State) (arb : Nat) (asking : List Nat) (granted : Nat) : State :=
  { shareRound s arb asking granted with starve := (List.range 256).foldl (fun t w =>
      tabSet 0 t (arb * 256 + w)
        (if asking.contains w && w != granted then min 64 (tabGet 0 t (arb * 256 + w) + 1) else 0)) s.starve }

end Sys2Proof.Machine
end

