-- ==== Sys2Proof/Machine/StoreOps.lean ====
section
/-! DEFINITION. The Signal Store's operations (spec/02): items and their bits, read views and merge bases, the write port
with collisions and through casts, triggers, cuts, processing with commit casts, presentation, DONE and slack, indirect
access and the software write ports. -/
namespace Sys2Proof.Machine

/-- The item-map entry of a handle (R38). -/
def State.item (s : State) (h : Nat) : BitVec 64 := tabGet 0 s.store.items h

def itOffset (x : BitVec 64) : Nat := bits x.toNat 0 23
def itWidth (x : BitVec 64) : Nat := bits x.toNat 23 10 + 1
def itCg (x : BitVec 64) : Nat := bits x.toNat 33 8
def itCast (x : BitVec 64) : Nat := bits x.toNat 41 16
def itValid (x : BitVec 64) : Bool := x.getLsbD 57
def itLive (x : BitVec 64) : Bool := x.getLsbD 58
def itHostW (x : BitVec 64) : Bool := x.getLsbD 60
def itStalePol (x : BitVec 64) : Nat := bits x.toNat 61 2
def itMultiW (x : BitVec 64) : Bool := x.getLsbD 63

/-- The cast-table entry at an index (R57). -/
def State.cast (s : State) (i : Nat) : BitVec 64 := tabGet 0 s.store.casts i

def caDst (x : BitVec 64) : Nat := bits x.toNat 0 18
def caDoff (x : BitVec 64) : Nat := bits x.toNat 18 10
def caSoff (x : BitVec 64) : Nat := bits x.toNat 28 10
def caLen (x : BitVec 64) : Nat := bits x.toNat 38 10 + 1
def caInv (x : BitVec 64) : Bool := x.getLsbD 48
def caThrough (x : BitVec 64) : Bool := x.getLsbD 49
def caLast (x : BitVec 64) : Bool := x.getLsbD 50
def caDev (x : BitVec 64) : Nat := bits x.toNat 51 3
def caRemote (x : BitVec 64) : Bool := x.getLsbD 54
def caValid (x : BitVec 64) : Bool := x.getLsbD 55

/-- The run of casts from an index on (R58): to the first entry with LAST = 1; it stops before an entry not in use and at
index 0xFFFF, which is never used. The bound is the length of the list of entries. -/
def castRunFrom (s : State) (i : Nat) : Nat → List (BitVec 64)
  | 0 => []
  | n + 1 =>
    let x := s.cast i
    if 65535 ≤ i || !caValid x then []
    else if caLast x then [x]
    else x :: castRunFrom s (i + 1) n

/-- The casts of an item, in table order (R58); CAST = 0xFFFF means none. -/
def castRun (s : State) (x : BitVec 64) : List (BitVec 64) :=
  castRunFrom s (itCast x) (s.store.casts.length)

/-- The fabric address of an image's first byte (R36). -/
def imageBase (img : Nat) : Nat := 0x01000000 + img * 0xA0000

/-- A run of signals of an image as a number (R36). -/
def imageBits (s : State) (img off w : Nat) : Nat :=
  leNat (s.bytes .fabric (imageBase img + off / 8) ((off % 8 + w + 7) / 8)) / 2 ^ (off % 8) % 2 ^ w

/-- Write a run of signals of an image. -/
def setImageBits (s : State) (img off w v : Nat) : State :=
  let a := imageBase img + off / 8
  let n := (off % 8 + w + 7) / 8
  s.setBytes .fabric a (leBytes n (setBits (leNat (s.bytes .fabric a n)) (off % 8) w v))

/-- An item's value in an image (R39). -/
def itemIn (s : State) (img : Nat) (x : BitVec 64) : Nat := imageBits s img (itOffset x) (itWidth x)

/-- The key of an item's written bit in an image's map. -/
def wrKey (img h : Nat) : Nat := img * 262144 + h

/-- An item's written bit in an image. -/
def isWritten (s : State) (img h : Nat) : Bool := tabGet false s.store.written (wrKey img h)

/-- Set or clear an item's written bit in an image. -/
def setWritten (s : State) (img h : Nat) (b : Bool) : State :=
  { s with store := { s.store with written := tabSet false s.store.written (wrKey img h) b } }

/-- The image that plays each role for a group (SS_CG_STAT). -/
def cgBack (s : State) (g : Nat) : Nat := s.get R.SS_CG_STAT_BACK g
def cgFront (s : State) (g : Nat) : Nat := s.get R.SS_CG_STAT_FRONT g
def cgReady (s : State) (g : Nat) : Nat := s.get R.SS_CG_STAT_READY g

/-- Whether a commit of the group is under way: cut and not yet presented (R41, R47). DEDUCED -/
def cgInCommit (s : State) (g : Nat) : Bool := s.on R.SS_CG_STAT_PROC g

/-- An item's age (R52). -/
def itemAge (s : State) (h : Nat) : Nat := tabGet 0 s.store.age h

/-- Set an item's age. -/
def setAge (s : State) (h a : Nat) : State :=
  { s with store := { s.store with age := tabSet 0 s.store.age h a } }

/-- An item is stale when its written bit in the front image is 0 (R52). -/
def itemStale (s : State) (h : Nat) (x : BitVec 64) : Bool := !isWritten s (cgFront s (itCg x)) h

/-- The latest applied value of an item (R41): in the back image if written there, else in the ready image of a commit
under way that cut it, else the front value. It is the merge base of a write and the value of a LIVE read (R46). -/
def latestImage (s : State) (h : Nat) (x : BitVec 64) : Nat :=
  let g := itCg x
  if isWritten s (cgBack s g) h then cgBack s g
  else if cgInCommit s g && isWritten s (cgReady s g) h then cgReady s g
  else cgFront s g

/-- STALE_POL applied to a value with a stale flag and an age (R38, R46); the reserved policy acts as hold (R39). -/
def stalePolicy (s : State) (x : BitVec 64) (stale : Bool) (age v : Nat) : Nat :=
  match itStalePol x with
  | 1 => if stale then 0 else v
  | 2 => if s.get R.SS_CG_CTL_AGE_LIMIT (itCg x) ≤ age then 0 else v
  | _ => v

/-- The read view of an item (R46). An item that is not valid reads 0. -/
def readView (s : State) (h : Nat) : Nat :=
  let x := s.item h
  if itValid x then
    let img := if itLive x then latestImage s h x else cgFront s (itCg x)
    stalePolicy s x (itemStale s h x) (itemAge s h) (itemIn s img x)
  else 0

/-- The valid items of a group, in ascending handle order. -/
def groupItems (s : State) (g : Nat) : List (Nat × BitVec 64) :=
  s.store.items.filter fun p => itValid p.2 && itCg p.2 == g

/-- A remote unit leaves for its device, or is discarded for want of a route (R61, R62). -/
def sendRemote (s : State) (dev : Nat) (items : List (Nat × ItemBits × ItemBits)) : State :=
  if s.bitAt R.PK_STAT (8 + dev) then
    { s with store := { s.store with remoteOut := s.store.remoteOut ++ [⟨dev, items⟩] } }
  else (s.addSat R.SS_REMOTE_CNT_V items.length).raise R.SS_EVT_REMOTE_FAIL

/-- The destination bits and mask of a cast of the source value `v` (R57). -/
def castBits (c : BitVec 64) (v : Nat) : ItemBits × ItemBits :=
  let m := 2 ^ caLen c - 1
  let b := bits v (caSoff c) (caLen c)
  let b := if caInv c then m - b else b
  (BitVec.ofNat 1024 (b * 2 ^ caDoff c), BitVec.ofNat 1024 (m * 2 ^ caDoff c))

/-- Whether the write port takes a write to an item (R40): the item is valid, and a host write needs HOST_W. -/
def mayWrite (x : BitVec 64) (host : Bool) : Bool := itValid x && (!host || itHostW x)

/-- Apply an item write to the back image (R41, R42, R56): merged with the merge base, written bit set, collisions
recorded, whole. -/
def storeItem (s : State) (h : Nat) (x : BitVec 64) (data mask : ItemBits) : State :=
  let g := itCg x
  let b := cgBack s g
  let base := BitVec.ofNat 1024 (itemIn s (latestImage s h x) x)
  let v := (data &&& mask) ||| (base &&& ~~~mask)
  let s := if isWritten s b h && !itMultiW x then
      ((s.addSat R.SS_CG_COLLIDE_V 1 g).put R.SS_CG_LASTCOL_V h g).raise R.SS_EVT_COLLIDE
    else s
  let s := setWritten (setImageBits s b (itOffset x) (itWidth x) v.toNat) b h true
  let s := { s with store := { s.store with hurt := tabSet false s.store.hurt h false } }
  s.addWrap R.SS_WR_CNT_V 1

/-- Apply an accepted item write and its through casts (R42, R60); `fuel` is 5 less the write's depth, so the through
casts of a write at depth 4 are not run. Answers the state and whether the write was applied (R40, R491). -/
def applyWrite (s : State) (h : Nat) (data mask : ItemBits) (host : Bool) : Nat → State × Bool
  | 0 => (s, false)
  | fuel + 1 =>
    let x := s.item h
    if !s.on R.SS_CTL_EN then (s, false)
    else if !mayWrite x host then (s.raise R.SS_EVT_PORT_ERR, false)
    else
      let s := storeItem s h x data mask
      let run := (castRun s x).filter caThrough
      if run.isEmpty || !s.on R.SS_CTL_THRU_EN then (s, true)
      else if fuel = 0 then ((s.addSat R.SS_THRU_DEPTH_V 1).raise R.SS_EVT_THRU_DEPTH, true)
      else
        let v := itemIn s (cgBack s (itCg x)) x
        (run.foldl (fun s c =>
          let s := s.addWrap R.SS_THRU_CNT_V 1
          let p := castBits c v
          if caRemote c then sendRemote s (caDev c) [(caDst c, p.1, p.2)]
          else (applyWrite s (caDst c) p.1 p.2 false fuel).1) s, true)

/-- A write made directly by a writer (R60: depth 0). -/
def directWrite (s : State) (h : Nat) (data mask : ItemBits) (host : Bool) : State × Bool :=
  applyWrite s h data mask host 5

/-- Queue an item write at the store's write port (R42). -/
def queueWrite (s : State) (w : PortWrite) : State :=
  { s with store := { s.store with portQ := s.store.portQ ++ [w] } }

/-- Slot `k` of an engine's item window. -/
def Eng.iwSlot (x : Eng) (k : Nat) : IwSlot := tabGet {} x.iw k

/-- Replace a slot of an engine's item window. -/
def Eng.setIw (x : Eng) (k : Nat) (v : IwSlot) : Eng := { x with iw := tabSet {} x.iw k v }

/-- A write to a busy slot that did not wait is discarded and sets ERR (R45). -/
def iwBusy (s : State) (e k : Nat) : State :=
  (s.modEng e fun x => x.setIw k { x.iwSlot k with err := true }).raise R.SS_EVT_PORT_ERR

/-- IW_HANDLE (R43, R44): select the item; staged words are discarded. -/
def iwHandle (s : State) (e k : Nat) (v : Word) : State :=
  if ((s.eng e).iwSlot k).busy then iwBusy s e k
  else s.modEng e fun x => x.setIw k { x.iwSlot k with handle := v.toNat % 262144, data := 0, mask := 0 }

/-- Put word `j` into staged bits. -/
def stageWord (data mask : ItemBits) (j : Nat) (v : Word) : ItemBits × ItemBits :=
  let m := BitVec.ofNat 1024 (0xFFFFFFFF * 2 ^ (32 * j))
  ((data &&& ~~~m) ||| BitVec.ofNat 1024 (v.toNat * 2 ^ (32 * j)), mask ||| m)

/-- IW_DATAj (R41, R43). -/
def iwData (s : State) (e k j : Nat) (v : Word) : State :=
  if ((s.eng e).iwSlot k).busy then iwBusy s e k
  else s.modEng e fun x =>
    let sl := x.iwSlot k
    let p := stageWord sl.data sl.mask j v
    x.setIw k { sl with data := p.1, mask := p.2 }

/-- IW_CLOSE = 1 (R43): the staged words go to the write port as one unit; the slot is BUSY until they are applied. -/
def iwApply (s : State) (e : Fin 48) (k : Fin 12) : State :=
  let sl := (s.eng e).iwSlot k
  if sl.busy then iwBusy s e k
  else
    let s := s.modEng e fun x => x.setIw k { sl with data := 0, mask := 0, busy := true }
    queueWrite s ⟨.engine e k, [(sl.handle, sl.data, sl.mask)]⟩

/-- IW_CLOSE = 2 (R43). -/
def iwDiscard (s : State) (e k : Nat) : State :=
  if ((s.eng e).iwSlot k).busy then iwBusy s e k
  else s.modEng e fun x => x.setIw k { x.iwSlot k with data := 0, mask := 0 }

/-- IW_STAT of a slot (R44): AGE, STALE, LIVE, WRITTEN, BUSY, ERR. -/
def iwStat (s : State) (e k : Nat) : Nat :=
  let sl := (s.eng e).iwSlot k
  let x := s.item sl.handle
  itemAge s sl.handle + 2 ^ 8 * bit01 (itemStale s sl.handle x) + 2 ^ 9 * bit01 (itLive x)
    + 2 ^ 10 * bit01 (isWritten s (cgBack s (itCg x)) sl.handle) + 2 ^ 11 * bit01 sl.busy + 2 ^ 12 * bit01 sl.err

/-- The number of a writer as a requester of the write port: engines by number, the host's port 48, Atelier's 49, remote
devices from 50 on. DESIGN CHOICE -/
def writerNum : Writer → Nat
  | .engine e _ => e
  | .host => 48
  | .atl => 49
  | .remote d => 50 + d

/-- Remove the oldest write of a requester from the queue: an engine's writes are taken in the order of its closes (R43). -/
def takeWrite (k : Nat) : List PortWrite → Option (PortWrite × List PortWrite)
  | [] => none
  | p :: ps =>
    if writerNum p.writer = k then some (p, ps)
    else match takeWrite k ps with
      | some (q, qs) => some (q, p :: qs)
      | none => none

/-- A write of a software write port that does not wait (R493): HANDLE, DATA or CTL at offset `off`. -/
def wrPortNow (s : State) (awr : Bool) (off : Nat) (v : Word) : State :=
  let p := if awr then s.store.awr else s.store.hwr
  let setP := fun (s : State) (p : WrPort) =>
    if awr then { s with store := { s.store with awr := p } } else { s with store := { s.store with hwr := p } }
  if off = 0 then
    setP (s.wr (if awr then R.SS_AWR_HANDLE else R.SS_HWR_HANDLE) (v.toNat % 262144)) { p with data := 0, mask := 0 }
  else if off = 4 then
    if v.toNat % 4 = 1 then
      let s := s.raise (if awr then R.SS_AWR_STAT_BUSY else R.SS_HWR_STAT_BUSY)
      let h := s.rd (if awr then R.SS_AWR_HANDLE else R.SS_HWR_HANDLE)
      queueWrite (setP s { p with data := 0, mask := 0 }) ⟨if awr then .atl else .host, [(h, p.data, p.mask)]⟩
    else if v.toNat % 4 = 2 then setP s { p with data := 0, mask := 0 }
    else s
  else
    let j := (off - 0x80) / 4
    let q := stageWord p.data p.mask j v
    setP (s.wr (if awr then R.SS_AWR_DATA else R.SS_HWR_DATA) v.toNat j) { p with data := q.1, mask := q.2 }

/-- Whether a software write port is busy (R493). -/
def wrPortBusy (s : State) (awr : Bool) : Bool := s.on (if awr then R.SS_AWR_STAT_BUSY else R.SS_HWR_STAT_BUSY)

/-- A write of a software write port: held in order while STAT.BUSY = 1 (R493). -/
def wrPortWrite (s : State) (awr : Bool) (off : Nat) (v : Word) : State :=
  if wrPortBusy s awr then
    if awr then { s with store := { s.store with awr := { s.store.awr with held := s.store.awr.held ++ [(off, v)] } } }
    else { s with store := { s.store with hwr := { s.store.hwr with held := s.store.hwr.held ++ [(off, v)] } } }
  else wrPortNow s awr off v

/-- The writes held at a port take effect in the order written until the port is busy again (R493). -/
def wrPortRelease (s : State) (awr : Bool) : List (Nat × Word) → State
  | [] => s
  | (off, v) :: l => wrPortRelease (wrPortWrite s awr off v) awr l

/-- The end of an apply at a software write port (R493): BUSY clears, ERR tells whether it was discarded, and the held
writes take effect. -/
def wrPortDone (s : State) (awr ok : Bool) : State :=
  let s := if awr then (s.clr R.SS_AWR_STAT_BUSY).put R.SS_AWR_STAT_ERR (bit01 !ok)
    else (s.clr R.SS_HWR_STAT_BUSY).put R.SS_HWR_STAT_ERR (bit01 !ok)
  let held := if awr then s.store.awr.held else s.store.hwr.held
  let s := if awr then { s with store := { s.store with awr := { s.store.awr with held := [] } } }
    else { s with store := { s.store with hwr := { s.store.hwr with held := [] } } }
  wrPortRelease s awr held

/-- The write port accepts the oldest waiting write of a requester and applies it whole (R42). Its result is the slot's ERR from then on,
also where a write while BUSY had set it (R45). DESIGN CHOICE (log 231) -/
def acceptWrite (s : State) (k : Nat) : State :=
  match takeWrite k s.store.portQ with
  | none => s
  | some (p, rest) =>
    let s := { s with store := { s.store with portQ := rest } }
    let r := p.items.foldl (fun (r : State × Bool) i =>
      let q := directWrite r.1 i.1 i.2.1 i.2.2 (p.writer == .host)
      (q.1, r.2 && q.2)) (s, true)
    match p.writer with
    | .engine e k => r.1.modEng e fun x =>
        { x.setIw k { x.iwSlot k with busy := false, err := !r.2 } with
          closing := if x.closing = some k.val then none else x.closing }
    | .host => wrPortDone r.1 false r.2
    | .atl => wrPortDone r.1 true r.2
    | .remote _ => r.1

/-- The requesters that wait at the write port. -/
def portAsking (s : State) : List Nat := numsWhere 58 fun k => s.store.portQ.any fun p => writerNum p.writer == k

/-- Whether it can be a requester's turn (R42): no other one waits since before its last grant. The order of the round within
these is not given; the commands' order gives it. DESIGN CHOICE -/
def portTurn (s : State) (k : Nat) : Bool :=
  (portAsking s).all fun j => j == k || !(tabGet [] s.store.turns j).contains k

/-- A grant of the write port for the turns (R42): those that go on waiting have seen it, and the requester starts anew. -/
def turnTaken (s : State) (k : Nat) : State :=
  { s with store := { s.store with turns := tabSet [] ((portAsking s).foldl (fun t j =>
      if j = k || (tabGet [] t j).contains k then t else tabSet [] t j (k :: tabGet [] t j)) s.store.turns) k [] } }

/-- A round of the write port that grants a requester: its oldest write is accepted. -/
def portGrant (s : State) (k : Nat) : State :=
  acceptWrite (turnTaken (arbRound s 0 (portAsking s) k) k) k

/-- A round of the write port (R42, R33) that grants a writer: it is the oldest write of its requester (R43), no reserved share or
starving requester goes first, and else its turn can have come. -/
def portRound (s : State) (w : Writer) : State :=
  let k := writerNum w
  if (s.store.portQ.find? fun p => writerNum p.writer == k).any (fun p => p.writer == w)
      && (match arbAhead s 0 (portAsking s) with
        | some j => j == k
        | none => portTurn s k) then portGrant s k
  else s

/-- A grant of the write port ahead of its turn (R32, R33): the oldest write of the requester concerned. -/
def portAhead (s : State) : State :=
  match arbAhead s 0 (portAsking s) with
  | some k => portGrant s k
  | none => s

/-- The triggers that wait for a group's cut (R47, R50). -/
def State.triggers (s : State) (g : Nat) : List Trigger := tabGet [] s.store.triggers g

/-- Replace a group's triggers. -/
def State.setTriggers (s : State) (g : Nat) (l : List Trigger) : State :=
  { s with store := { s.store with triggers := tabSet [] s.store.triggers g l } }

/-- A group records LATE (R53). -/
def recordLate (s : State) (g : Nat) : State := (s.addSat R.SS_CG_LATE_V 1 g).raise R.SS_EVT_LATE

/-- A trigger of a group arrives at the store (R48, R50, R491): one that comes before the previous commit is presented is
deferred and counted. -/
def cgTrigger (s : State) (g sched : Nat) : State :=
  if s.on R.SS_CTL_EN && s.on R.SS_CG_CTL_EN g then
    let l := s.triggers g
    let d := cgInCommit s g || !l.isEmpty
    let s := s.setTriggers g (l ++ [⟨s.now, sched, d⟩])
    if d then recordLate (((s.addSat R.SS_CG_OVR_V 1 g).raise R.SS_EVT_OVR).raise R.SS_CG_STAT_DEFERRED g) g else s
  else s

/-- The domain that times a group: that of the generator named in its IG field (R177). -/
def cgDom (s : State) (g : Nat) : Nat := igDom s (s.get R.SS_CG_CTL_IG g)

/-- A commit command for a group (R48): it acts with TRIG = 1 only. -/
def cgCommand (s : State) (g : Nat) : State :=
  if s.on R.SS_CG_CTL_TRIG g then cgTrigger s g (domTime s (cgDom s g)) else s

/-- Place a cut in the commit unit's queue: in order of arrival, those that arrived together by group number (R49). -/
def cutInsert (c : CutSt) : List CutSt → List CutSt
  | [] => [c]
  | d :: l => if c.at_ = d.at_ && c.group < d.group && !d.processed then c :: d :: l else d :: cutInsert c l

/-- Triggers whose cut falls due while the store is out of service (R491): no cut is taken, and none is made up. DEDUCED -/
def cgForget (s : State) (g : Nat) : State :=
  if s.on R.SS_CTL_EN then s else (s.setTriggers g []).clr R.SS_CG_STAT_DEFERRED g

/-- The cut of a group (R47, R49, R53, R64, R491): roles turn, written bits of the new back image clear, SEQ increments. A deferred
cut reaches the unit when it is taken. A commit that is late on both grounds (R50 and R53) counts twice in SS_CG_LATE, once for each
ground. DESIGN CHOICE -/
def cgCut (s : State) (g : Nat) : State :=
  match s.triggers g with
  | [] => s
  | t :: rest =>
    if cgInCommit s g then s
    else if !s.on R.SS_CTL_EN then cgForget s g
    else
      let b := cgBack s g
      let r := cgReady s g
      let s := s.setTriggers g rest
      let s := ((s.put R.SS_CG_STAT_READY b g).put R.SS_CG_STAT_BACK r g).raise R.SS_CG_STAT_PROC g
      let s := if rest.isEmpty then s.clr R.SS_CG_STAT_DEFERRED g else s
      let s := (groupItems s g).foldl (fun s p =>
        let s := setWritten s r p.1 false
        if tabGet false s.store.hurt p.1 then
          let s := setWritten s b p.1 false
          { s with store := { s.store with hurt := tabSet false s.store.hurt p.1 false } }
        else s) s
      let late := s.on R.SS_CG_CTL_WRITERS g && tabGet 0 s.store.done g < s.get R.SS_CG_CTL_WRITERS g
      let s := if late then recordLate s g else s
      let s := (s.addWrap R.SS_CG_SEQ_V 1 g).put R.SS_CG_TIME_V t.sched g
      { s.raise R.SS_STAT_CU_BUSY with store := { s.store with
          done := tabSet 0 s.store.done g 0
          cutTime := tabSet 0 s.store.cutTime g t.sched
          cutQ := cutInsert ⟨g, if t.deferred then s.now else t.at_, s.now, false⟩ s.store.cutQ } }

/-- Processing of one item of a cut group (R47): written gives age 0; else its front value is kept and it ages. -/
def processItem (s : State) (g : Nat) (p : Nat × BitVec 64) : State :=
  let r := cgReady s g
  if isWritten s r p.1 then setAge s p.1 0
  else
    let s := setImageBits s r (itOffset p.2) (itWidth p.2) (itemIn s (cgFront s g) p.2)
    setAge s p.1 (min (itemAge s p.1 + 1) 255)

/-- The commit casts of one item (R59): each reads the ready value under STALE_POL with the flag and age just given, and
writes its destination; those to other devices are gathered by device. No write triggers a commit cast, so its write has depth 1, as
if a direct write had. DESIGN CHOICE -/
def commitCasts (s : State) (g : Nat) (p : Nat × BitVec 64)
    (out : List (Nat × Nat × ItemBits × ItemBits)) : State × List (Nat × Nat × ItemBits × ItemBits) :=
  let r := cgReady s g
  ((castRun s p.2).filter fun c => !caThrough c).foldl (fun (s, out) c =>
    let v := stalePolicy s p.2 (!isWritten s r p.1) (itemAge s p.1) (itemIn s r p.2)
    let b := castBits c v
    if caRemote c then (s, out ++ [(caDev c, caDst c, b.1, b.2)])
    else ((applyWrite s (caDst c) b.1 b.2 false 4).1, out)) (s, out)

/-- The commit unit processes a group (R47, R49, R59, R61, R491). -/
def cgProcess (s : State) (g : Nat) : State :=
  match s.store.cutQ with
  | [] => s
  | c :: rest =>
    if c.group = g && !c.processed then
      let s := { s with store := { s.store with cutQ := { c with processed := true } :: rest } }
      let items := groupItems s g
      let s := items.foldl (fun s p => processItem s g p) s
      let s := s.put R.SS_CG_STALE_V (items.filter fun p => !isWritten s (cgReady s g) p.1).length g
      if s.on R.SS_CTL_EN then
        let r := items.foldl (fun (s, out) p => commitCasts s g p out) (s, [])
        (List.range 8).foldl (fun s d =>
          let l := r.2.filter fun q => q.1 = d
          if l.isEmpty then s else sendRemote s d (l.map fun q => q.2)) r.1
      else s
    else s

/-- A DONE for a group (R53, R54, R55): one with the next tag counts; the slack of an engine's job goes to its telemetry.
The instant of a job that is in time is the one that has triggered but not cut, else its generator's next; a late one before the group's
first cut is measured against time 0. DESIGN CHOICE (log 232) -/
def cgDone (s : State) (w : DoneWriter) (g tag : Nat) : State :=
  let seq := s.rd R.SS_CG_SEQ g
  let now := domTime s (cgDom s g)
  let slack := fun (s : State) (t : Nat) => match w with
    | .engine e => if s.on R.SS_CG_CTL_TRIG g then s else engSlack s e (diff64 t now)
    | .bus _ => s
  if tag = (seq + 1) % 256 then
    let s := { s with store := { s.store with done := tabSet 0 s.store.done g (tabGet 0 s.store.done g + 1) } }
    match s.triggers g with
    | t :: _ => slack s t.sched
    | [] =>
      let ig := s.igen (s.get R.SS_CG_CTL_IG g)
      if ig.armed then slack s (ceil16 ig.next) else s
  else if tag = seq % 256 then slack s (tabGet 0 s.store.cutTime g)
  else s

/-- A remote device's write arrives (R61): it waits at the write port as one unit. -/
def remoteArrives (s : State) (dev : Fin 8) (ws : List RemoteItem) : State :=
  queueWrite s ⟨.remote dev, ws.map fun w => (w.handle.val, w.data, w.mask)⟩

/-- The part of a presentation that the store itself does (R47, R491): the ready image becomes front, the former front the
third image, and the engines that watch the group see line 26 (R72). Answers none when the group has no processed commit. -/
def cgPresent (s : State) (g : Nat) : Option State :=
  match s.store.cutQ with
  | [] => none
  | c :: rest =>
    if c.group = g && c.processed then
      let f := cgFront s g
      let r := cgReady s g
      let s := ((s.put R.SS_CG_STAT_FRONT r g).put R.SS_CG_STAT_READY f g).clr R.SS_CG_STAT_PROC g
      let s := (s.addWrap R.SS_CG_PSEQ_V 1 g).put R.SS_CG_PTIME_V (s.now - c.cutAt) g
      let s := s.put R.SS_STAT_CU_BUSY (bit01 !rest.isEmpty)
      let s := cgForget { s with store := { s.store with cutQ := rest } } g
      some ((numsWhere 48 fun e => (s.eng e).cgSel = g).foldl (fun s e => engLine s e 26) s)
    else none

/-- An uncorrectable error in a 64-bit word of an image (R64): the items that touch it count as not written at their next
cut, unless they are written meanwhile. The first of them is the one with the lowest handle. DESIGN CHOICE -/
def imageEcc (s : State) (word : Nat) : State :=
  let touch := s.store.items.filter fun p => itValid p.2 && itOffset p.2 < 64 * word + 64
    && 64 * word < itOffset p.2 + itWidth p.2
  match touch with
  | [] => s.raise R.SS_EVT_ECC_UNCORR
  | p :: _ =>
    let s := (s.put R.SS_ECC_HANDLE_V p.1).raise R.SS_EVT_ECC_UNCORR
    touch.foldl (fun s p => { s with store := { s.store with hurt := tabSet false s.store.hurt p.1 true } }) s

/-- An item becomes stale from the start: age 255, written bits clear in all three images (R52). -/
def freshStart (s : State) (h : Nat) : State :=
  setWritten (setWritten (setWritten (setAge s h 255) 0 h false) 1 h false) 2 h false

/-- Signals from `lo` up to but not including `hi` are in no item any more: they read 0 in every image (R39). -/
def freeSignals (s : State) (lo hi : Nat) : State :=
  if lo < hi then (List.range 3).foldl (fun s k => setImageBits s k lo (hi - lo) 0) s else s

/-- Write an item-map entry (R52): an entry that becomes valid defines its item; signals that an item leaves read 0 (R39). -/
def setItem (s : State) (h : Nat) (x : BitVec 64) : State :=
  let old := s.item h
  let lo := itOffset old
  let hi := lo + itWidth old
  let lo' := if itValid x then max lo (min hi (itOffset x)) else hi
  let hi' := if itValid x then min hi (max lo (itOffset x + itWidth x)) else hi
  let s := if itValid old then freeSignals (freeSignals s lo lo') (max lo' hi') hi else s
  let s := { s with store := { s.store with items := tabSet 0 s.store.items h x } }
  if itValid x && !itValid old then freshStart s h else s

/-- Write a cast-table entry: its reserved bits stay 0 (R57, R5). -/
def setCast (s : State) (i : Nat) (x : BitVec 64) : State :=
  { s with store := { s.store with casts := tabSet 0 s.store.casts i (x &&& 0xFFFFFFFFFFFFFF) } }

/-- SS_IND_CMD = 0b01 (R492). -/
def indRead (s : State) : State :=
  let i := s.get R.SS_IND_SEL_INDEX
  let v : Nat := match s.get R.SS_IND_SEL_TABLE with
    | 0 => if i < 262144 then (s.item i).toNat else 0
    | 1 => if i < 65535 then (s.cast i).toNat else 0
    | 2 => if i < 262144 then itemAge s i else 0
    | _ => 0
  s.put64 R.SS_IND_DATA_LO R.SS_IND_DATA_HI v

/-- SS_IND_CMD = 0b10 from Atelier (R492). -/
def indWrite (s : State) : State :=
  let i := s.get R.SS_IND_SEL_INDEX
  let v := s.get64 R.SS_IND_DATA_LO R.SS_IND_DATA_HI
  match s.get R.SS_IND_SEL_TABLE with
  | 0 => if i < 262144 then setItem s i (BitVec.ofNat 64 v) else s
  | 1 => if i < 65535 then setCast s i (BitVec.ofNat 64 v) else s
  | 2 => if i < 262144 then setAge s i (v % 256) else s
  | _ => s

/-- A write of SS_CG_CTL (R52): enabling a group makes its items stale; a disabled group's triggers are dropped. -/
def cgCtlWrite (s : State) (g v : Nat) : State :=
  let was := s.on R.SS_CG_CTL_EN g
  let s := s.regWrite R.SS_CG_CTL v g
  let now := s.on R.SS_CG_CTL_EN g
  if now && !was then (groupItems s g).foldl (fun s p => freshStart s p.1) s
  else if !now && was then (s.setTriggers g []).clr R.SS_CG_STAT_DEFERRED g
  else s

end Sys2Proof.Machine
end

