-- ==== Sys2Proof/Machine/SwitchOps.lean ====
section
/-! DEFINITION. The ports and the switch core (spec/08): port states and links, pause and its watchdog, gate lists and the
owner of a port's time, the tables, the cell buffer with its limits and drops, and a frame's way from ingress to queue and
from queue to wire. -/
namespace Sys2Proof.Machine

/-! ### Ports and their counters -/

/-- The port's part outside its registers. -/
def State.port (s : State) (p : Nat) : PortSt := tabGet {} s.sw.ports p

/-- Replace it. -/
def State.setPort (s : State) (p : Nat) (x : PortSt) : State :=
  { s with sw := { s.sw with ports := tabSet {} s.sw.ports p x } }

/-- Add to counter `i` of a port (MAC counters, saturating). -/
def macCount (s : State) (p i n : Nat) : State := s.addSat R.MAC_CNT_V n p i

/-- MAC_CTL.STATE with the reserved value 3 acting as DISABLED (R216). -/
def portState (s : State) (p : Nat) : Nat := s.get R.MAC_CTL_STATE p % 3

/-- Whether a port is in a Maquette mode (R91). -/
def inMaquette (s : State) (p : Nat) : Bool := s.on R.CE_MQ_PORT_MODE p

/-- Whether a port receives and transmits: ENABLED with its link up, or in a Maquette mode (R91, R216). -/
def portLive (s : State) (p : Nat) : Bool :=
  portState s p == 1 && (s.on R.MAC_STAT_LINK p || inMaquette s p)

/-- Whether a port is in Type 8 serial mode (R215). -/
def type8 (s : State) (p : Nat) : Bool := 16 ≤ p && s.get R.MAC_CTL_MODE p == 2

/-- The bit time of a port in Type 8 serial mode in ns (R212). -/
def t8Bit (s : State) (p : Nat) : Nat := if s.on R.MAC_CTL_T8_RATE p then 500 else 2000

/-- The rate of a port in Mbit/s by MAC_STAT.SPEED. -/
def portRate (s : State) (p : Nat) : Nat :=
  match s.get R.MAC_STAT_SPEED p with
  | 0 => 10
  | 1 => 100
  | 2 => 1000
  | 3 => 2500
  | _ => 10000

/-- The wire time of a frame in ns, with preamble, SFD and inter-frame gap (R214, R237). -/
def wireTime (rate len : Nat) : Nat := (len + 20) * 8000 / rate

/-- The inter-frame gap of a port's wire in ns, after a frame that was cut as after a whole one (R214). -/
def gapNs (s : State) (p : Nat) : Nat := if type8 s p then 0 else 12 * 8000 / portRate s p

/-- How long `len` bytes take on a port's wire: a Type 8 ring has no preamble and no gap (R215). -/
def wireNs (s : State) (p len : Nat) : Nat :=
  if type8 s p then len * 8 * t8Bit s p else wireTime (portRate s p) len

/-- The speed code of a mode: fixed by the mode, but for SGMII, which takes the partner's (R212). -/
def speedOf (p mode partner : Nat) : Nat :=
  if p < 16 then (match mode with | 0 => partner | 1 => 2 | 2 => 3 | _ => 4)
  else (match mode with | 0 => 1 | _ => 0)

/-- The row of R168 that a port's mode and speed select. -/
def tsMode (s : State) (p : Nat) : Nat :=
  let m := s.get R.MAC_CTL_MODE p
  if p < 16 then
    match m with
    | 0 => (match s.get R.MAC_STAT_SPEED p with | 0 => 7 | 1 => 6 | _ => 5)
    | 1 => 2
    | 2 => 3
    | _ => 4
  else (match m with | 0 => 1 | 1 => 0 | _ => 8)

/-- A signed 16-bit number. -/
def s16 (n : Nat) : Int := (BitVec.ofNat 16 n).toInt

/-- Domain time now, in quarter ns: PHY ports resolve 1 ns, line lanes 0.25 ns (R167). -/
def quarterNow (s : State) (p d : Nat) : Nat :=
  if p < 16 then domRaw s d / 2 ^ 38 else domTime s d * 4

/-- A receive timestamp in quarter ns of domain `d`, corrected (R167). -/
def rxStamp (s : State) (p d : Nat) : Int :=
  (quarterNow s p d : Int) - ((tsCorr (tsMode s p)).1 + s16 (s.get R.TB_PORT_RXADJ_V p))

/-- A transmit timestamp in quarter ns of domain `d`, corrected (R167). -/
def txStamp (s : State) (p d : Nat) : Int :=
  (quarterNow s p d : Int) + ((tsCorr (tsMode s p)).2 + s16 (s.get R.TB_PORT_TXADJ_V p))

/-- What the MAC of a port takes as the SFD passes (R167, R169): `q` is the corrected time in the domain of TB_PORTn_CFG. -/
def stampOf (s : State) (p : Nat) (q : Nat → Int) : Stamp :=
  let d := s.get R.TB_PORT_CFG_DOM p
  { q := q d, dom := d, steps := s.get R.TB_D_STAT_STEPS d % 256, at_ := s.now }

/-- The stamp of a frame that is received now, and of one that is sent now. -/
def rxNow (s : State) (p : Nat) : Stamp := stampOf s p (rxStamp s p)
def txNow (s : State) (p : Nat) : Stamp := stampOf s p (txStamp s p)

/-- The record of an IEEE 1588 event message on a port with TS_EN (R169): STEPS and DOM are those at capture. -/
def tsRec (s : State) (p : Nat) (tx : Bool) (f : List Byte) (x : Stamp) : Option TsRec :=
  match ptpEvent f with
  | some m =>
    if s.on R.TB_PORT_CFG_TS_EN p && !type8 s p then
      let w0 := p + 2 ^ 5 * bit01 tx + 2 ^ 6 * x.dom + 2 ^ 7 * (if p < 16 then (x.q % 4).toNat else 0)
        + 2 ^ 12 * (byteAt f m % 16) + 2 ^ 16 * beAt f (m + 30) 2
      some ⟨w32 w0, w32 (u32 (x.q / 4)), w32 (byteAt f (m + 4) + 2 ^ 8 * x.steps)⟩
    else none
  | none => none

/-- A received event message places its record (R169). -/
def tsRecord (s : State) (p : Nat) (f : List Byte) (x : Stamp) : State := (tsRec s p false f x).elim s fun r => tsfPush s r

/-- What a port sent has its end on the wire: the records of transmitted event messages are placed, which a frame that R13 cuts does not
do (R169). -/
def recEnd (s : State) (p : Nat) : State :=
  if (s.port p).tsOut.isEmpty then s
  else (s.port p).tsOut.foldl tsfPush (s.setPort p { s.port p with tsOut := [] })

/-! ### Maquette capture -/

/-- Append a record to a list of frames in shared scratch: a time word, a length word, the bytes in whole words. The
layout is not given, nor the firewall class of these accesses: Atelier's, who programs them. DESIGN CHOICE (log 229) -/
def mqAppend (s : State) (base len pos t : Nat) (f : List Byte) : State × Nat :=
  let n := 8 + 4 * ((f.length + 3) / 4)
  if pos + n ≤ len then
    (agentWrite s (.atl 0) (base + pos) (leBytes 4 t ++ leBytes 4 f.length ++ f), pos + n)
  else (s, pos)

/-- The ports whose receive path a port's transmit path feeds in Maquette mode (R91): itself in LOOP, the partners in PAIR. -/
def mqPeers (s : State) (p : Nat) : List Nat :=
  numsWhere 24 fun q =>
    (s.get R.CE_MQ_PORT_MODE p == 1 && q == p)
      || (s.get R.CE_MQ_PORT_MODE p == 2 && s.get R.CE_MQ_PORT_PARTNER p == q)
      || (s.get R.CE_MQ_PORT_MODE q == 2 && s.get R.CE_MQ_PORT_PARTNER q == p)

/-- The bytes of a frame that R13 cuts, as the wire carries them: a line lane ends them with an error code group, a PHY port with an
invalid FCS. -/
def cutBytes (s : State) (p : Nat) (f : List Byte) : List Byte := if p < 16 || type8 s p then f else withFcs f false

/-- A frame with stamp `x` goes onto a port's transmit wire, whole or cut (R13): counted, carried by a Maquette loop, and captured
where CAPTURE asks for it (R91, R92): one that was open on the wire before a Maquette mode was entered completes on that wire alone
(R217). A Type 8 ring has no MAC that counts (R215). -/
def putWire (s : State) (p : Nat) (f : List Byte) (cut : Bool) (x : Stamp) : State :=
  let from_ := s.port p
  let s := if cut then (macCount s p 8 1).raise R.MAC_EVT_UNDERRUN p
    else if type8 s p then s else macCount (macCount s p 6 1) p 7 f.length
  let y := s.port p
  let g := if cut then cutBytes s p f else f
  let s := s.setPort p { y with
    txAt := x.at_, txEnd := if cut then s.now + gapNs s p else max s.now (x.at_ + wireNs s p f.length)
    txOpen := false, txStamp := {}, txCut := cut, txCls := none, wire := g, ctFrom := none, pre := false }
  let l := if cut && !type8 s p then withFcs f false else g
  let peers := (mqPeers s p).filter fun q => !from_.txOpen || from_.mqTo.contains q
  let s := peers.foldl (fun s q => s.setPort q { s.port q with loop := (s.port q).loop ++ [l] }) s
  if inMaquette s p && (!from_.txOpen || from_.mqOn) && s.on R.CE_MQ_PORT_CAPTURE p && !cut then
    let r := mqAppend s (s.rd R.CE_MQ_CAP_BASE) (s.get R.CE_MQ_CAP_LEN_V) s.engArr.capPos (u32 (x.q / 4)) f
    { r.1 with engArr := { r.1.engArr with capPos := r.2 } }
  else s

/-- A frame whose end has not come begins on a port's transmit wire, with the Maquette loops that it feeds (R91). -/
def openWire (s : State) (p : Nat) : State :=
  s.setPort p { s.port p with txOpen := true, txStamp := txNow s p, mqOn := inMaquette s p, mqTo := mqPeers s p }

/-- A whole frame goes onto a port's transmit wire now. -/
def startTx (s : State) (p : Nat) (f : List Byte) : State := putWire s p f false (txNow s p)

/-- The bytes of the frame on a port's wire that have been sent by now, preamble and SFD apart. -/
def sentBytes (s : State) (p : Nat) : Nat :=
  let dt := s.now - (s.port p).txAt
  if type8 s p then dt / (8 * t8Bit s p) else dt * portRate s p / 8000 - 8

/-- Whether a whole frame is still on a port's wire. -/
def onWire (s : State) (p : Nat) : Bool :=
  let x := s.port p
  !x.txOpen && s.now < x.txEnd && !x.txCut && sentBytes s p < x.wire.length

/-- The frame on a port's wire is cut short as an underflow cuts it (R13); a Maquette loop carries what was sent. -/
def cutWire (s : State) (p : Nat) : State :=
  let x := s.port p
  if onWire s p then
    let f := x.wire.take (sentBytes s p)
    let l := if type8 s p then f else withFcs f false
    let s := (mqPeers s p).foldl (fun s q =>
      let y := s.port q
      if y.loop.getLast? = some x.wire then s.setPort q { y with loop := y.loop.dropLast ++ [l] } else s) s
    ((macCount s p 8 1).raise R.MAC_EVT_UNDERRUN p).setPort p { s.port p with
      txCut := true, txEnd := s.now + gapNs s p, wire := cutBytes s p f, ctFrom := none, pre := false, tsOut := []
      tsRest := if x.pre then none else x.tsRest, rest := if x.pre then 0 else x.rest }
  else s

/-! ### Gate lists and ownership -/

/-- The gate list of a port. -/
def State.gcl (s : State) (p : Nat) : GclSt := tabGet {} s.sw.gcl p

/-- Replace it. -/
def State.setGcl (s : State) (p : Nat) (g : GclSt) : State :=
  { s with sw := { s.sw with gcl := tabSet {} s.sw.gcl p g } }

/-- Word `w` of entry `e` of a port's operative list (R234). -/
def gclWord (s : State) (p e w : Nat) : Nat :=
  if s.on R.SW_GCL_STAT_OPER p then s.rd R.SW_GCL_B p e w else s.rd R.SW_GCL_A p e w

/-- Whether the port's list is running (R235). -/
def gclOn (s : State) (p : Nat) : Bool := s.on R.SW_GCL_CTL_EN p && (s.gcl p).running && p < 24

/-- The present entry's word 0: all gates open and OWNER 7 when no list runs (R235). -/
def gateWord (s : State) (p : Nat) : Nat := if gclOn s p then gclWord s p (s.get R.SW_GCL_STAT_IDX p) 0 else 0x7FF

/-- CYCLE, held at its least value. -/
def gclCycle (s : State) (p : Nat) : Nat := max 100 (s.rd R.SW_GCL_CYCLE p)

/-- INTERVAL of an entry; values below 100 are taken as 100 (R234). -/
def gclInterval (s : State) (p e : Nat) : Nat := max 100 (gclWord s p e 1)

/-- When the present entry ends (R235): the last entry lasts until the cycle ends, and the list is cut there. -/
def entryEnd (s : State) (p : Nat) : Nat :=
  let g := s.gcl p
  let e := s.get R.SW_GCL_STAT_IDX p
  let c := g.cycle + gclCycle s p
  if g.len ≤ e + 1 then c else min c (g.entry + gclInterval s p e)

/-- The engines that bind a port through CE_BIND (R73). -/
def boundA (s : State) (e p : Nat) : Bool :=
  s.on R.CE_BIND_A_EN e && s.get R.CE_BIND_PORT_A e == p && p < 24
def boundB (s : State) (e p : Nat) : Bool :=
  s.on R.CE_BIND_B_EN e && s.get R.CE_BIND_PORT_B e == p && p < 24
def binds (s : State) (e p : Nat) : Bool := boundA s e p || boundB s e p
def binders (s : State) (p : Nat) : List Nat := numsWhere 48 fun e => binds s e p

/-- The engine that owner-table entry `k` of a port gives, while the entry is valid and the engine is active (R73). -/
def ownerEntry (s : State) (p k : Nat) : Option Nat :=
  let e := s.get R.SW_P_OWN_LE p k
  if s.on R.SW_P_OWN_VALID p k && e < 48 && engActive s e && binds s e p then some e else none

/-- The owner of a port at this moment (R73, R236). A port that two or more engines bind has no owner while it has no gate list:
the rule gives it to a single binder only. DESIGN CHOICE -/
def portOwner (s : State) (p : Nat) : Option Nat :=
  if gclOn s p then
    let k := bits (gateWord s p) 8 3
    if k < 4 then ownerEntry s p k else none
  else match binders s p with
    | [e] => (List.range 4).findSome? fun k => if ownerEntry s p k = some e then some e else none
    | _ => none

/-- The engine whose SPL_CTL directs a frame in a time without an owner (R85): the binding engine whose entry names that
time, or last named it. In a time of OWNER 4 to 7, and on a port that several engines bind without a gate list, no engine's entry
names it: such a frame is dropped and counted in RX_NOFWD. DESIGN CHOICE -/
def timeEngine (s : State) (p : Nat) : Option Nat :=
  if gclOn s p then
    let k := bits (gateWord s p) 8 3
    if k < 4 && binds s (s.get R.SW_P_OWN_LE p k) p then some (s.get R.SW_P_OWN_LE p k) else none
  else match binders s p with
    | [e] => some e
    | _ => none

/-- Whether the switch core may transmit class `c` at a port by the gates and the owner (R236). -/
def gateOpen (s : State) (p c : Nat) : Bool :=
  24 ≤ p || ((portOwner s p).isNone && (gateWord s p).testBit c)

/-- Word `w` of entry `e` of a port's operative list, or of the written one. -/
def listWord (s : State) (p : Nat) (written : Bool) (e w : Nat) : Nat :=
  if s.on R.SW_GCL_STAT_OPER p != written then s.rd R.SW_GCL_B p e w else s.rd R.SW_GCL_A p e w

/-- The length of a port's operative or written list. -/
def listLen (s : State) (p : Nat) (written : Bool) : Nat :=
  if written then max 1 (min 256 (s.get R.SW_GCL_LEN_V p)) else (s.gcl p).len

/-- For how long from domain time `t` on class `c` stays open: entries are followed until one closes the gate or gives
the port to an engine; where a list change is pending, the written list is followed from its time on (R238). The count of entries
looked at is bounded by two cycles' worth. -/
def openUntil (s : State) (p c : Nat) : (fuel : Nat) → (written : Bool) → (e t cyc : Nat) → Nat
  | 0, _, _, t, _ => t + 10 ^ 10
  | n + 1, written, e, t, cyc =>
    let w := listWord s p written e 0
    let k := bits w 8 3
    if !w.testBit c || (k < 4 && (ownerEntry s p k).isSome) then t
    else
      let ce := cyc + gclCycle s p
      let iv := max 100 (listWord s p written e 1)
      let te := if listLen s p written ≤ e + 1 then ce else min ce (t + iv)
      let chg := (s.gcl p).chgAt
      if !written && s.on R.SW_GCL_STAT_PEND p && chg ≤ te then openUntil s p c n true 0 (max t chg) (max t chg)
      else if te = ce then openUntil s p c n written 0 ce ce else openUntil s p c n written (e + 1) te cyc

/-- Whether `need` ns fit before class `c` closes or the owner changes (R237). -/
def fits (s : State) (p c need : Nat) : Bool :=
  if !gclOn s p then true
  else
    let g := s.gcl p
    let now := domTime s (s.get R.SW_GCL_CTL_DOM p)
    now + need ≤ openUntil s p c 512 false (s.get R.SW_GCL_STAT_IDX p) g.entry g.cycle

/-- When the time began for which a port's entries have given it to one engine without interruption: entries are followed
backwards, over two cycles at most. -/
def ownedSince (s : State) (p e : Nat) : (fuel i t cyc : Nat) → Nat
  | 0, _, t, _ => t
  | n + 1, i, t, cyc =>
    -- the entry before entry `i`, which starts at `t` in the cycle that starts at `cyc`
    let j := if i = 0 then (s.gcl p).len - 1 else i - 1
    let c := if i = 0 then cyc - gclCycle s p else cyc
    let start := min t (c + ((List.range j).foldl (fun a k => a + gclInterval s p k) 0))
    let k := bits (gclWord s p j 0) 8 3
    if k < 4 && ownerEntry s p k = some e then ownedSince s p e n j start c else t

/-- Whether the gate window in which an engine's instant lay is still open (R83): the engine owns the port, and has owned it for the
`age` ns since the instant. -/
def windowOpen (s : State) (p e age : Nat) : Bool :=
  decide (portOwner s p = some e) && (!gclOn s p ||
    decide (age + ownedSince s p e 512 (s.get R.SW_GCL_STAT_IDX p) (s.gcl p).entry (s.gcl p).cycle
      ≤ domTime s (s.get R.SW_GCL_CTL_DOM p)))

/-! ### Tables -/

/-- Word `w` of entry `e` of table `t` (0 FDB, 1 VLAN, 2 group, 3 stream filter, 4 meter, 5 FRER). -/
def swWord (s : State) (t e w : Nat) : Nat := (tabGet 0 s.sw.tables (t * 2 ^ 24 + e * 8 + w)).toNat

/-- Write a table word. -/
def setSwWord (s : State) (t e w v : Nat) : State :=
  { s with sw := { s.sw with tables := tabSet 0 s.sw.tables (t * 2 ^ 24 + e * 8 + w) (w32 v) } }

/-- Add to a counter word of a table, saturating. -/
def countSwWord (s : State) (t e w n : Nat) : State := setSwWord s t e w (satAdd 32 (swWord s t e w) n)

/-- The entries of a table (spec/08, "Indirect entries"). -/
def swEntries (t : Nat) : Nat :=
  match t with
  | 0 => 32768
  | 1 => 4096
  | 2 => 1024
  | 3 => 1024
  | 4 => 1024
  | 5 => 512
  | _ => 0

/-- FDB entry fields. -/
def fdbValid (s : State) (i : Nat) : Bool := (swWord s 0 i 2).testBit 13
def fdbStatic (s : State) (i : Nat) : Bool := (swWord s 0 i 2).testBit 12
def fdbKey (s : State) (i : Nat) : Nat × Nat :=
  (swWord s 0 i 0 + 2 ^ 32 * bits (swWord s 0 i 1) 0 16, bits (swWord s 0 i 1) 16 12)

/-- The age of a dynamic entry in s (R224). -/
def fdbAge (s : State) (i : Nat) : Nat := (s.now - tabGet 0 s.sw.fdbAt i) / 1000000000

/-- The four ways of the set of a key (R223). -/
def fdbWays (mac fid : Nat) : List Nat := (List.range 4).map fun w => 4 * (Config.fdbHash mac fid).val + w

/-- The entry that holds a key. -/
def fdbFind (s : State) (mac fid : Nat) : Option Nat :=
  (fdbWays mac fid).find? fun i => fdbValid s i && fdbKey s i == (mac, fid)

/-- The way a new entry takes: its own, a free one, else the oldest dynamic one; none when all are static (R224). -/
def fdbVictim (s : State) (mac fid : Nat) : Option Nat :=
  match fdbFind s mac fid with
  | some i => some i
  | none =>
    match (fdbWays mac fid).find? fun i => !fdbValid s i with
    | some i => some i
    | none => ((fdbWays mac fid).filter fun i => !fdbStatic s i).foldl (fun b i => match b with
        | none => some i
        | some j => if fdbAge s j < fdbAge s i then some i else some j) none

/-- Write an FDB entry: words 0 to 3, and the time its age counts from. -/
def fdbWrite (s : State) (i w0 w1 w2 w3 age : Nat) : State :=
  let s := setSwWord (setSwWord (setSwWord (setSwWord s 0 i 0 w0) 0 i 1 w1) 0 i 2 (w2 % 65536)) 0 i 3 w3
  { s with sw := { s.sw with fdbAt := tabSet 0 s.sw.fdbAt i (s.now - age * 1000000000) } }

/-- Learn or refresh a source address (R224). -/
def fdbLearn (s : State) (mac fid port : Nat) : State :=
  match fdbFind s mac fid with
  | some i =>
    if fdbStatic s i then s
    else fdbWrite s i (mac % 2 ^ 32) (mac / 2 ^ 32 + fid * 65536) (port * 4 + 2 ^ 13) (swWord s 0 i 3) 0
  | none =>
    match fdbVictim s mac fid with
    | some i => fdbWrite s i (mac % 2 ^ 32) (mac / 2 ^ 32 + fid * 65536) (port * 4 + 2 ^ 13) 0 0
    | none => s.addSat R.SW_LEARN_FAIL_V 1

/-- A dynamic entry past SW_AGE goes (R224): SW_AGE is held within 1 to 1,000,000. -/
def fdbAgeOut (s : State) (i : Nat) : State :=
  if fdbValid s i && !fdbStatic s i && max 1 (min 1000000 (s.get R.SW_AGE_V)) < fdbAge s i then
    { setSwWord s 0 i 2 0 with sw := { (setSwWord s 0 i 2 0).sw with fdbAt := tabSet 0 s.sw.fdbAt i 0 } }
  else s

/-- Load an entry into SW_IND_DATA; a dynamic FDB entry shows its age. -/
def swLoad (s : State) (t e : Nat) : State :=
  (List.range 8).foldl (fun s w =>
    let v := swWord s t e w
    let v := if t = 0 && w = 2 && fdbValid s e && !fdbStatic s e then v % 65536 + 65536 * min 65535 (fdbAge s e) else v
    s.wr R.SW_IND_DATA v w) s

/-- SW_IND_CMD 1 (spec/08): an access that names no entry loads zeros. -/
def swIndRead (s : State) : State :=
  let t := s.get R.SW_IND_SEL_TABLE
  let e := s.get R.SW_IND_SEL_INDEX
  if e < swEntries t then swLoad s t e else (List.range 8).foldl (fun s w => s.wr R.SW_IND_DATA 0 w) s

/-- The words of a table's entries that hold read-only counters ("Indirect entries"). -/
def swRoWord (t w : Nat) : Bool := (t == 3 && 4 ≤ w) || (t == 5 && 2 ≤ w && w ≤ 6)

/-- SW_IND_CMD 2: the counters of an entry keep their values. -/
def swIndWrite (s : State) : State :=
  let t := s.get R.SW_IND_SEL_TABLE
  let e := s.get R.SW_IND_SEL_INDEX
  if e < swEntries t then
    if t = 0 then
      fdbWrite s e (s.rd R.SW_IND_DATA 0) (s.rd R.SW_IND_DATA 1) (s.rd R.SW_IND_DATA 2) (s.rd R.SW_IND_DATA 3)
        (s.rd R.SW_IND_DATA 2 / 65536)
    else (List.range 8).foldl (fun s w => if swRoWord t w then s else setSwWord s t e w (s.rd R.SW_IND_DATA w)) s
  else s

/-- The key in SW_IND_DATA0 and 1. -/
def indKey (s : State) : Nat × Nat :=
  (s.rd R.SW_IND_DATA 0 + 2 ^ 32 * bits (s.rd R.SW_IND_DATA 1) 0 16, bits (s.rd R.SW_IND_DATA 1) 16 12)

/-- SW_IND_CMD 3: insert by key; four static ways set ERR. -/
def fdbInsert (s : State) : State :=
  let k := indKey s
  match fdbVictim s k.1 k.2 with
  | some i =>
    (fdbWrite s i (s.rd R.SW_IND_DATA 0) (s.rd R.SW_IND_DATA 1) (s.rd R.SW_IND_DATA 2) (s.rd R.SW_IND_DATA 3)
      (s.rd R.SW_IND_DATA 2 / 65536)).clr R.SW_IND_STAT_ERR
  | none => s.raise R.SW_IND_STAT_ERR

/-- SW_IND_CMD 4: delete by key. -/
def fdbDelete (s : State) : State :=
  let k := indKey s
  match fdbFind s k.1 k.2 with
  | some i => (setSwWord s 0 i 2 (swWord s 0 i 2 - 2 ^ 13)).clr R.SW_IND_STAT_ERR
  | none => s.clr R.SW_IND_STAT_ERR

/-- SW_IND_CMD 5: look up by key; a miss sets ERR. -/
def fdbLookup (s : State) : State :=
  let k := indKey s
  match fdbFind s k.1 k.2 with
  | some i => (swLoad s 0 i).clr R.SW_IND_STAT_ERR
  | none => s.raise R.SW_IND_STAT_ERR

/-! ### The cell buffer -/

/-- A queue of a port and class. -/
def State.queue (s : State) (p c : Nat) : List SwFrame := tabGet [] s.sw.queues (p * 8 + c)

/-- The cells a list of frames holds. -/
def cellsOf (l : List SwFrame) : Nat := l.foldl (fun n f => n + f.shared + f.rsv) 0

/-- Replace a queue; SW_Pp_QCNTc shows its cells. -/
def State.setQueue (s : State) (p c : Nat) (l : List SwFrame) : State :=
  ({ s with sw := { s.sw with queues := tabSet [] s.sw.queues (p * 8 + c) l } }).put R.SW_P_QCNT_V (cellsOf l) p c

/-- Count a drop of kind `r` at a port and class (SW_Pp_DROPrc). -/
def swDrop (s : State) (p r c : Nat) : State := s.addSat R.SW_P_DROP_V 1 p r c

/-- The PCP-to-class map of a port (SW_Pp_PCPMAP). -/
def pcpClass (s : State) (p pcp : Nat) : Nat := bits (s.get R.SW_P_PCPMAP_V p) (3 * pcp) 3

/-- A pause frame, or with MAC_CTL.PFC a PFC frame for the priorities of class `c` (R219, R220), without its padding's content. The
layout is that of 802.3 and 802.1Q. PRESUMED -/
def pauseBytes (s : State) (p c quanta : Nat) : List Byte :=
  let ks := numsWhere 8 fun k => pcpClass s p k == c
  let body := if s.on R.MAC_CTL_PFC p then
      beBytes 2 0x0101 ++ beBytes 2 (ks.foldl (fun n k => n + 2 ^ k) 0)
        ++ (List.range 8).flatMap fun k => beBytes 2 (if ks.contains k then quanta else 0)
    else beBytes 2 1 ++ beBytes 2 quanta
  let f := beBytes 6 0x0180C2000001 ++ beBytes 6 (s.rd R.MAC_ADDR_LO p + 2 ^ 32 * s.get R.MAC_ADDR_HI_V p)
    ++ beBytes 2 0x8808 ++ body
  withFcs (f ++ List.replicate (60 - f.length) 0) true

/-- A port sends pause or its release for a class (R220): it waits for the wire, which it takes at the next frame boundary. The rule
does not give the number of quanta of a pause, which is a free value from 1 on; a release has none. -/
def pauseQueue (s : State) (p c : Nat) (off : Bool) : State :=
  if portLive s p && !type8 s p then
    let r := s.draw 16
    let s := if off then r.2 else s
    let f := pauseBytes s p c (if off then max 1 r.1.toNat else 0)
    (macCount s p 10 1).setPort p { s.port p with ctl := (s.port p).ctl ++ [f] }
  else s

/-- The port sends pause or its release as an ingress count crosses its thresholds (R220). -/
def pauseSend (s : State) (p c : Nat) : State :=
  if p < 24 && s.on R.MAC_CTL_PAUSE_TX p then
    let n := tabGet 0 s.sw.ingress (p * 8 + c)
    let off := tabGet false s.sw.xoff (p * 8 + c)
    if !off && s.get R.SW_P_PFC_XOFF p < n then
      pauseQueue { s with sw := { s.sw with xoff := tabSet false s.sw.xoff (p * 8 + c) true } } p c true
    else if off && n < s.get R.SW_P_PFC_XON p then
      pauseQueue { s with sw := { s.sw with xoff := tabSet false s.sw.xoff (p * 8 + c) false } } p c false
    else s
  else s

/-- Change the ingress count of a port and class (R220). -/
def ingressCount (s : State) (p c : Nat) (f : Nat → Nat) : State :=
  if p < 24 then
    pauseSend { s with sw := { s.sw with
      ingress := tabSet 0 s.sw.ingress (p * 8 + c) (f (tabGet 0 s.sw.ingress (p * 8 + c))) } } p c
  else s

/-- The shared cells that no queue holds (R229): 32,768 less those that are reserved. -/
def poolFree (s : State) : Nat :=
  32768 - (List.range 30).foldl (fun n q => n + s.get R.SW_P_RSV_V q) 0
    - s.sw.queues.foldl (fun n q => q.2.foldl (fun n f => n + f.shared) n) 0

/-- A frame's cells return: shared ones to the pool, as far as they are not reserved by then (R229). -/
def freeCells (s : State) (x : SwFrame) : State :=
  ingressCount (s.put R.SW_POOL_FREE_V (min (s.get R.SW_POOL_FREE_V + x.shared) (poolFree s))) x.ingress x.cls
    fun n => n - (x.shared + x.rsv)

/-- The reserved cells that a port's queues hold (R229). -/
def reservedUsed (s : State) (p : Nat) : Nat :=
  (List.range 8).foldl (fun n c => n + (s.queue p c).foldl (fun n f => n + f.rsv) 0) 0

/-- The cells that are free to a port's queues (R228, R229): its reserved ones and the shared pool's. -/
def freeTo (s : State) (p : Nat) : Nat := (s.get R.SW_P_RSV_V p - reservedUsed s p) + s.get R.SW_POOL_FREE_V

/-- Whether `k` cells are free to a port's queues. -/
def claimable (s : State) (p k : Nat) : Bool := k ≤ freeTo s p

/-- A write of SW_Pp_RSV (R229): read-only on external ports; the shared pool is what is not reserved. -/
def rsvWrite (s : State) (p v : Nat) : State :=
  if p < 24 then s
  else
    let s := s.put R.SW_P_RSV_V v p
    s.put R.SW_POOL_FREE_V (poolFree s)

/-- Push-out (R232): evict the tail frame of the lowest non-empty class below `c`, until `need` cells are free to the port. -/
def pushOut (s : State) (p c need : Nat) : Nat → State
  | 0 => s
  | n + 1 =>
    if claimable s p need then s
    else match (List.range c).find? fun k => !(s.queue p k).isEmpty with
      | none => s
      | some k =>
        match (s.queue p k).getLast? with
        | none => s
        | some x => pushOut (swDrop (freeCells (s.setQueue p k (s.queue p k).dropLast) x) p 5 k) p c need n

/-- WRED (R233): the average takes its step, and the colour's profile decides. The average has 16 fraction bits. -/
def wredTest (s : State) (p c colour depth : Nat) : State × Bool :=
  let q := 8 * p + c
  let a0 : Int := ((tabGet (0:Nat) s.sw.wred q : Nat) : Int)
  let a := (a0 + ((depth * 65536 : Nat) - a0) / (2 ^ s.get R.SW_WRED_W q : Nat)).toNat
  let s := { s with sw := { s.sw with wred := tabSet 0 s.sw.wred q a } }
  let mn := s.get R.SW_WRED_MIN_V q colour * 65536
  let mx := s.get R.SW_WRED_MAX_V q colour * 65536
  if mn = 0x7FFF * 65536 && mx = 0x7FFF * 65536 then (s, false)
  else if a < mn then (s, false)
  else if mx ≤ a then (s, true)
  else
    let d := s.draw 32
    let pr := bits (s.rd R.SW_WRED_MAXP q) (8 * colour) 8
    (d.2, decide (d.1.toNat * 256 * (mx - mn) < pr * (a - mn) * 2 ^ 32))

/-- Credit of a shaped class brought up to now (R239), in bits × 10^6: it grows at IDLE_SLOPE while the class's gate is open
and no engine owns the window, and a positive credit is lost when the queue is empty and no frame of the class is on the wire. `creditAt` is the time of the last step plus
one; a class that has just been shaped starts without credit. -/
def cbsUpdate (s : State) (p c : Nat) : State :=
  let k := p * 8 + c
  if p < 24 && s.on R.SW_CBS_EN (8 * p + c) then
    let cr := tabGet (0 : Int) s.sw.credit k
    let at_ := tabGet 0 s.sw.creditAt k
    let dt := if at_ = 0 then 0 else s.now + 1 - at_
    let y := s.port p
    let sending := (y.txCls == some c && s.now < y.txEnd && !y.txCut) || (y.rest != 0 && y.preCls == c)
    let empty := (s.queue p c).isEmpty && !sending
    let grown := if gateOpen s p c && (!empty || cr < 0) then
        let x := cr + (s.get R.SW_CBS_IDLE_SLOPE (8 * p + c) * dt : Nat)
        if empty then min 0 x else x
      else if empty then min 0 cr else cr
    { s with sw := { s.sw with
      credit := tabSet 0 s.sw.credit k grown, creditAt := tabSet 0 s.sw.creditAt k (s.now + 1) } }
  else if tabGet 0 s.sw.creditAt k = 0 then s
  else { s with sw := { s.sw with credit := tabSet 0 s.sw.credit k 0, creditAt := tabSet 0 s.sw.creditAt k 0 } }

/-- Bring every class of a port up to now. -/
def cbsPort (s : State) (p : Nat) : State := (List.range 8).foldl (fun s c => cbsUpdate s p c) s

/-- Bring every class of every port up to now, before the time goes on. -/
def cbsAll (s : State) : State := (List.range 24).foldl cbsPort s

/-- The classes of a transmitter that received pause or PFC holds (R219). -/
def pausedTill (s : State) (p c : Nat) : Nat := (tabGet {} s.sw.pause (p * 8 + c)).till

/-- What becomes of a frame at its end: good, its FCS bad (R227), or longer than MAC_MAXLEN and discarded there (R214). -/
inductive Fate where
  | good
  | badFcs
  | long
  deriving DecidableEq, Repr

/-- The admission test of a copy (R217, R228, R233): the kind of drop, if it is dropped. The average takes its step at every test. -/
def admitTest (s : State) (p c colour : Nat) : State × Option Nat :=
  let depth := cellsOf (s.queue p c)
  if p < 24 && portState s p != 1 then (s, some 3)
  else
    let w := wredTest s p c colour depth
    (w.1, if s.get R.SW_P_LIM_V p c ≤ depth then some 0 else if w.2 then some 2 else none)

/-- The claims of a copy of `n` cells, one by one (R228, R232): how many succeed, and the kind of drop if not all do; the limit counts
where it is reached first. -/
def claimTest (s : State) (p c n : Nat) : State × Nat × Option Nat :=
  let k := min n (s.get R.SW_P_LIM_V p c - cellsOf (s.queue p c))
  let s := if s.on R.SW_CTL_PUSHOUT then pushOut s p c k 32768 else s
  if !claimable s p k then (s, freeTo s p, some 1) else (s, k, if k < n then some 0 else none)

/-- Admit a copy to an egress queue, or drop it (R217, R228 to R230, R232, R233). A copy of a frame whose FCS proves bad or that is
too long is dropped after its claims (R214, R227). -/
def admitFrame (s : State) (p c colour ingress : Nat) (ts : Int) (eng : Option Nat) (fate : Fate) (f : List Byte) : State :=
  let a := admitTest s p c colour
  match a.2 with
  | some r => swDrop a.1 p r c
  | none =>
    let n := (f.length + 255) / 256
    let k := claimTest a.1 p c n
    match k.2.2 with
    | some r => swDrop k.1 p r c
    | none =>
      let s := k.1
      if fate ≠ .good then s
      else
        let rsv := min n (s.get R.SW_P_RSV_V p - reservedUsed s p)
        let s := cbsUpdate s p c
        let s := s.put R.SW_POOL_FREE_V (s.get R.SW_POOL_FREE_V - (n - rsv))
        let s := s.setQueue p c (s.queue p c ++ [⟨f, n - rsv, rsv, s.now, c, colour, ingress, ts, eng⟩])
        ingressCount s ingress c fun k => k + n

/-- Whether preemption is active for a class of a port (R222). -/
def preemptable (s : State) (p c : Nat) : Bool :=
  p < 24 && s.on R.MAC_STAT_PREEMPT_ACT p && (s.get R.SW_P_CFG_PMASK p).testBit c

/-- The least length of a fragment (R222). -/
def fragMin (s : State) (p : Nat) : Nat := 64 * (1 + s.get R.MAC_CTL_FRAG p)

/-- The preemptable frame on a port's wire is preempted at its next fragment boundary (R222, R237), if what is left then makes a
fragment of the least length: the rest waits. -/
def preemptTx (s : State) (p : Nat) : State :=
  let x := s.port p
  if x.pre && s.now < x.txEnd then
    let b := max ((s.now - x.preAt) * portRate s p / 8000 - 8) (fragMin s p)
    if b + fragMin s p ≤ x.preLeft then
      s.setPort p { x with
        pre := false, rest := x.rest + (x.preLeft - b), txEnd := x.preAt + wireTime (portRate s p) b
        tsOut := [], tsRest := if x.rest = 0 then x.tsOut.head? else x.tsRest }
    else s
  else s

/-- An entry of the gate list holds preemptable transmission, or closes the gate of the frame on the wire (R234, R237). -/
def preemptAtGate (s : State) (p : Nat) : State :=
  if (s.port p).pre && ((gateWord s p).testBit 11 || !gateOpen s p (s.port p).preCls) then preemptTx s p else s

/-- Whether a port's wire is free for a frame: the port is live, no frame is on it, and no MAC control frame waits for it. -/
def portFree (s : State) (p : Nat) : Bool :=
  portLive s p && !(s.port p).txOpen && (s.port p).txEnd ≤ s.now && (s.port p).ctl.isEmpty

/-- How many of a frame's `len` bytes, or of the rest of a preempted one, may start now at a port, by the gate list (R222, R237): all that
fit before the class closes or the owner changes; of a preemptable frame a first fragment that fits and leaves one of the least length;
else none. -/
def fragPlan (s : State) (p c len : Nat) : Nat :=
  if fits s p c (wireTime (portRate s p) len) then len
  else
    let g := s.gcl p
    let t := openUntil s p c 512 false (s.get R.SW_GCL_STAT_IDX p) g.entry g.cycle - domTime s (s.get R.SW_GCL_CTL_DOM p)
    let b := min (len - fragMin s p) (t * portRate s p / 8000 - 20)
    if preemptable s p c && fragMin s p ≤ b then b else 0

/-- Whether the switch core may start a frame of `len` bytes of class `c` at a port now (R219, R222, R236, R237, R239): HDMA
takes the next frame when a descriptor has taken the last (R359), the other internal ports at once. -/
def mayStart (s : State) (p c len : Nat) : Bool :=
  if p = 27 then s.dma.hrx.isEmpty
  else if 24 ≤ p then true
  else
    let pre := preemptable s p c
    portFree s p && !type8 s p && pausedTill s p c == 0 && gateOpen s p c
      && !(pre && ((gateWord s p).testBit 11 || (s.port p).rest != 0))
      && (!s.on R.SW_CBS_EN (8 * p + c) || decide (0 ≤ tabGet (0 : Int) s.sw.credit (p * 8 + c)))
      && fragPlan s p c len != 0

/-- Whether a copy leaves cut-through (R226, R237). -/
def cutsThrough (s : State) (ingress p c : Nat) : Bool :=
  ingress < 24 && p < 24 && s.on R.SW_P_CFG_CT_IN ingress && (s.get R.SW_P_CT_OUT_V p).testBit c
    && portRate s p ≤ portRate s ingress && (s.queue p c).isEmpty
    && mayStart s p c 64
    && (!gclOn s p || fits s p c (wireTime (portRate s p) (s.get R.MAC_MAXLEN_V p)))

/-- A frame goes onto an external port's wire: timestamps, one-step and residence edits (R169, R170), then the wire. -/
def sendFrame (s : State) (p ingress : Nat) (ts : Int) (f : List Byte) (good : Bool) : State :=
  let x := txNow s p
  let g := dropFcs f
  let g := if s.on R.TB_PORT_CFG_ONESTEP p then oneStep g (x.q / 4).toNat else g
  let g := if s.on R.TB_PORT_CFG_TC p && ingress < 24 then addResidence g (x.q - ts) else g
  let s := startTx s p (withFcs g good)
  s.setPort p { s.port p with tsOut := (s.port p).tsOut ++ (tsRec s p true g x).toList }

/-- The first `b` of the `len` bytes left of a preemptable frame go onto a port's wire now (R222, R237); none says that the gate list does
not cut it. -/
def fragSend (s : State) (p b len : Nat) : State :=
  let x := s.port p
  let b := if b = 0 then len else b
  s.setPort p { x with
    pre := true, preAt := s.now, preLeft := b, rest := len - b, txEnd := s.now + wireTime (portRate s p) b
    tsOut := if b = len then x.tsOut ++ x.tsRest.toList else x.tsOut, tsRest := if b = len then none else x.tsRest }

/-- A frame of class `c` starts on an external port (R222, R239): it takes its credit, and a preemptable one is marked so. -/
def classSend (s : State) (p c ingress : Nat) (ts : Int) (f : List Byte) (good : Bool) : State :=
  let k := p * 8 + c
  let s := if s.on R.SW_CBS_EN (8 * p + c) then
      { s with sw := { s.sw with credit := tabSet 0 s.sw.credit k (tabGet 0 s.sw.credit k - (f.length + 20) * 8000000) } }
    else s
  let s := sendFrame s p ingress ts f good
  let x := s.port p
  if preemptable s p c then
    fragSend (s.setPort p { x with txCls := some c, preCls := c, tsOut := [], tsRest := x.tsOut.head? }) p (fragPlan s p c f.length) f.length
  else s.setPort p { x with txCls := some c }

/-- The copy of a frame for one destination: the tag by the VLAN's untagged set, and the R-tag if it is to go (R241). -/
def egressCopy (f : List Byte) (tciW : Nat) (untag delR : Bool) : List Byte :=
  let g := dropFcs f
  let g := if delR then dropRtag g else g
  let g := if untag then dropTag g else if tagged g then g else addTag g tciW
  withFcs g true

/-! ### Stream filters, meters, recovery -/

/-- A meter (R240): fill the buckets, then colour `bytes` of a frame. Buckets that have metered none are full, as the standard has
it. PRESUMED -/
def meterFrame (s : State) (m colour bytes : Nat) : State × Nat :=
  let st := tabGet {} s.sw.meters m
  let dt := s.now - st.at_
  let cap := fun w => bits (swWord s 4 m w) 0 24 * 8000000
  let flags := swWord s 4 m 4
  let fresh := decide (st = {})
  let c0 := st.c + bits (swWord s 4 m 0) 0 24 * dt
  let spill := if flags.testBit 0 then c0 - cap 2 else 0
  let c := if fresh then cap 2 else min c0 (cap 2)
  let e := if fresh then cap 3 else min (st.e + bits (swWord s 4 m 1) 0 24 * dt + spill) (cap 3)
  let need := bytes * 8000000
  let aware := flags.testBit 1
  let keep := fun (s : State) (c e : Nat) =>
    { s with sw := { s.sw with meters := tabSet {} s.sw.meters m ⟨c, e, s.now⟩ } }
  if need ≤ c && (!aware || colour = 0) then (keep s (c - need) e, 0)
  else if need ≤ e && (!aware || colour < 2) then (keep s c (e - need), 1)
  else (keep s c e, 2)

/-- Whether a recovery entry takes a frame with a sequence number (R241); counters passed, discarded, out of order, lost. As 802.1CB
has it, the history below the first number taken is empty, and individual recovery (FUNC 3) starts its timeout anew at a frame that
it discards too. PRESUMED -/
def recover (s : State) (i seq : Nat) : State × Bool :=
  let st := tabGet {} s.sw.frer i
  let w := swWord s 5 i 0
  let h := bits w 3 5 + 1
  let keep := fun (s : State) (x : FrerSt) => { s with sw := { s.sw with frer := tabSet {} s.sw.frer i x } }
  let d : Int := s16 ((seq + 65536 - st.seq) % 65536)
  let pass := fun (s : State) (x : FrerSt) => (countSwWord (keep s { x with taken := true, at_ := s.now }) 5 i 2 1, true)
  let drop := fun (s : State) =>
    (countSwWord (if bits w 0 2 = 3 then keep s { st with at_ := s.now } else s) 5 i 3 1, false)
  if !st.taken then pass s { st with seq := seq, hist := 1 }
  else if w.testBit 2 then
    if d = 0 then drop s
    else pass (if d = 1 then s else countSwWord s 5 i 4 1) { st with seq := seq }
  else if (h : Int) ≤ d || d ≤ -(h : Int) then drop s
  else if d ≤ 0 then
    let b := d.natAbs
    if st.hist.testBit b then drop s else pass (countSwWord s 5 i 4 1) { st with hist := st.hist ||| 2 ^ b }
  else
    let k := d.natAbs
    let lost := (numsWhere k fun j => !st.hist.testBit (h - 1 - j)).length
    let s := if k = 1 then s else countSwWord s 5 i 4 1
    pass (countSwWord s 5 i 5 lost) { st with seq := seq, hist := (st.hist * 2 ^ k + 1) % 2 ^ h }

/-- The reset timeout of a recovery entry (R241). -/
def frerTimeout (s : State) (i : Nat) : State :=
  let st := tabGet {} s.sw.frer i
  if st.taken && bits (swWord s 5 i 1) 0 16 * 1000000 ≤ s.now - st.at_ then
    countSwWord { s with sw := { s.sw with frer := tabSet {} s.sw.frer i { st with taken := false, hist := 0, seq := 0 } } }
      5 i 6 1
  else s

/-- What the stream filter and the stream entries of a handle do with a frame (R240, R241): the state, and, unless it is
dropped, the frame, its class, its colour, the engine it goes to, and whether its R-tag goes at egress. -/
def streamFilter (s : State) (h port cls colour : Nat) (f : List Byte) :
    State × Option (List Byte × Nat × Nat × Option Nat × Bool) :=
  let w := swWord s 3 h 0
  let on := w.testBit 31
  let s := if on then countSwWord s 3 h 4 1 else s
  let cls' := if on && w.testBit 3 then bits w 0 3 else cls
  let sdu := bits (swWord s 3 h 1) 0 14
  if on && sdu != 0 && sdu < f.length then (swDrop (countSwWord s 3 h 6 1) port 8 cls', none)
  else if on && w.testBit 11 then (swDrop (countSwWord s 3 h 7 1) port 9 cls', none)
  else
    let m := if on && w.testBit 12 then meterFrame s (bits w 13 10) colour f.length else (s, colour)
    let mf := swWord s 4 (bits w 13 10) 4
    let dropped := on && w.testBit 12 && ((m.2 = 2 && !mf.testBit 3) || (m.2 = 1 && mf.testBit 2))
    if dropped then (swDrop (countSwWord m.1 3 h 7 1) port 10 cls', none)
    else
      let s := if on then countSwWord m.1 3 h 5 1 else m.1
      let mine := numsWhere 512 fun i => (swWord s 5 i 0).testBit 31 && bits (swWord s 5 i 0) 16 10 == h
      let eng := if on && w.testBit 10 then some (bits w 4 6) else none
      -- stream entries of the handle, in index order
      let r := mine.foldl (fun (r : State × Option (List Byte) × Bool) i =>
        match r.2.1 with
        | none => r
        | some g =>
          let e := swWord r.1 5 i 0
          let del := r.2.2 || e.testBit 9
          match bits e 0 2 with
          | 1 =>
            let st := tabGet {} r.1.sw.frer i
            let s := { r.1 with sw := { r.1.sw with frer := tabSet {} r.1.sw.frer i { st with gen := (st.gen + 1) % 65536 } } }
            (s, some (if e.testBit 8 then withFcs (addRtag (dropFcs g) st.gen) true else g), r.2.2)
          | 0 => r
          | _ =>
            match rtagSeq g with
            | none => (r.1, some g, del)
            | some q =>
              let t := recover r.1 i q
              (t.1, if t.2 then some g else none, del)) (s, some f, false)
      match r.2.1 with
      | none => (r.1, none)
      | some g => (r.1, some (g, cls', m.2, eng, r.2.2))

/-! ### Ingress -/

/-- A frame for an engine attached to the switch core (R242): queued on EF0 or EF1 by the engine's number, without its R-tag where that
is to go (R241); where no such engine is attached, or the frame came in through that port (R223), it goes nowhere. -/
def engineDeliver (s : State) (e cls colour ingress : Nat) (ts : Int) (delR : Bool) (fate : Fate) (f : List Byte) : State :=
  if 48 ≤ e || (s.eng e).attach.isNone || ingress = 24 + e % 2 then swDrop s ingress 7 cls
  else admitFrame s (24 + e % 2) cls colour ingress ts (some e) fate
    (if delR then withFcs (dropRtag (dropFcs f)) true else f)

/-- A cut-through copy that is cut after `n` bytes (R13, R214, R228). -/
def cutCopy (s : State) (p n : Nat) (f : List Byte) : State :=
  if n = 0 then s else putWire s p (f.take n) true (txNow s p)

/-- A copy that leaves cut-through (R226 to R228, R233): it is admitted and claims its cells like any other; a claim that fails, and
the end of a frame that is too long (R214), cut it as an underflow does. -/
def copyThrough (s : State) (p c colour ingress : Nat) (ts : Int) (fate : Fate) (f : List Byte) : State :=
  let a := admitTest s p c colour
  match a.2 with
  | some r => swDrop a.1 p r c
  | none =>
    let k := claimTest a.1 p c ((f.length + 255) / 256)
    match k.2.2 with
    | some r => cutCopy (swDrop k.1 p r c) p (256 * k.2.1) f
    | none =>
      if fate = .long then cutCopy k.1 p (s.get R.MAC_MAXLEN_V ingress) f
      else
        let s := classSend k.1 p c ingress ts f (decide (fate = .good))
        s.setPort p { s.port p with ctFrom := some ingress }

/-- Copies of a frame to the ports of a mask, each admitted or sent cut-through on its own (R225, R226, R227). A frame whose FCS is
bad or that is too long leaves by cut-through copies only. A frame for no port but its ingress port is dropped and counted (R26,
R223), with those that go nowhere. DESIGN CHOICE -/
def copies (s : State) (mask untag ingress cls colour tciW : Nat) (ts : Int) (delR : Bool) (fate : Fate) (f : List Byte) : State :=
  let ps := numsWhere 30 fun p => mask.testBit p && p != ingress
  if ps.isEmpty then swDrop s ingress 7 cls
  else ps.foldl (fun s p =>
    let g := egressCopy f tciW (untag.testBit p) delR
    let s := cbsUpdate s p cls
    if cutsThrough s ingress p cls then copyThrough s p cls colour ingress ts fate g
    else admitFrame s p cls colour ingress ts none fate g) s

/-- A frame enters the switch core (R223 to R225, R240 to R242): classified, filtered by VLAN, looked up and learnt,
filtered by its stream, and admitted copy by copy. `inPort` is the switch port whose configuration applies, `ingress` the
port it is never sent back to and at which its drops are counted, `ts` its ingress time in quarter ns. A broadcast floods whatever
the FDB holds. -/
def swIngress (s : State) (inPort ingress : Nat) (ts : Int) (fate : Fate) (f : List Byte) : State :=
  if !s.on R.SW_CTL_EN then s
  else
    let tg := tagged f
    let vid := if tg then tci f % 4096 else s.get R.SW_P_CFG_PVID inPort
    let vid := if vid = 0 then s.get R.SW_P_CFG_PVID inPort else vid
    let pcp := if tg then tci f / 8192 else s.get R.SW_P_CFG_DEF_PCP inPort
    let colour := if tg && (tci f).testBit 12 then 1 else 0
    let cls := pcpClass s inPort pcp
    let members := swWord s 1 vid 0
    let untag := swWord s 1 vid 1
    let v2 := swWord s 1 vid 2
    let fid := v2 % 4096
    if !v2.testBit 16 || (s.on R.SW_P_CFG_INGRESS_FILT inPort && !members.testBit ingress) then swDrop s ingress 6 cls
    else
      let s := if fate = .good && s.on R.SW_P_CFG_LEARN inPort && !v2.testBit 17 && !isGroupAddr (frameSa f) then
          fdbLearn s (frameSa f) fid ingress else s
      let hit := fdbFind s (frameDa f) fid
      let w2 := hit.elim 0 fun i => swWord s 0 i 2
      let w3 := hit.elim 0 fun i => swWord s 0 i 3
      let r := if w3.testBit 15 then streamFilter s (w3 % 1024) ingress cls colour f
        else (s, some (f, cls, colour, none, false))
      match r.2 with
      | none => r.1
      | some (g, cls, colour, eng, delR) =>
        let tciW := pcp * 8192 + vid
        match eng with
        | some e => engineDeliver r.1 e cls colour ingress ts delR fate g
        | none =>
          if hit.isNone || frameDa f = 0xFFFFFFFFFFFF then copies r.1 members untag ingress cls colour tciW ts delR fate g
          else
            let dest := bits w2 2 10
            match w2 % 4 with
            | 0 => copies r.1 (2 ^ dest) untag ingress cls colour tciW ts delR fate g
            | 1 => copies r.1 (swWord r.1 2 dest 0) untag ingress cls colour tciW ts delR fate g
            | 2 => engineDeliver r.1 dest cls colour ingress ts delR fate g
            | _ => swDrop r.1 ingress 7 cls

/-- What becomes of a frame that arrived whole, by its FCS. -/
def fcsFate (f : List Byte) : Fate := if fcsOk f then .good else .badFcs

/-- The MAC's own checks and counts of a received frame (R214, R227, MAC counters): false when it is discarded. -/
def macReceive (s : State) (p : Nat) (f : List Byte) : State × Bool :=
  if f.length < 64 then (macCount s p 3 1, false)
  else if s.get R.MAC_MAXLEN_V p < f.length then (macCount s p 4 1, false)
  else if fcsOk f then (macCount (macCount s p 0 1) p 1 f.length, true)
  else (macCount s p 2 1, true)

/-- The fragments of a frame that the port reassembles (R222): those after the first count in FRAG_RX. -/
def fragCount (s : State) (p frag : Nat) : State := if frag = 0 then s else macCount s p 13 frag

/-- INGRESS_FRAME (R214, R215, R217, R222, R223, R227): on an external port that is unbound and live, through its MAC; on an internal
port, straight into the switch core. A frame that is too long enters the switch core all the same, where only its cut-through copies
show; in Type 8 mode MAC and switch take no part. Fragments on a port without preemption are no frames: they count as frames with a
bad FCS. PRESUMED -/
def ingressFrame (s : State) (p ext frag : Nat) (f : List Byte) : State :=
  if p < 24 then
    if portLive s p && (binders s p).isEmpty && !type8 s p then
      if frag ≠ 0 && !s.on R.MAC_CTL_PREEMPT p then macCount s p 2 1
      else
        let x := rxNow s p
        let r := macReceive (fragCount s p frag) p f
        if r.2 then
          let s := if fcsOk f then tsRecord r.1 p f x else r.1
          swIngress s p p x.q (fcsFate f) f
        else if 64 ≤ f.length then swIngress r.1 p p x.q .long (f.take (s.get R.MAC_MAXLEN_V p))
        else r.1
    else s
  else if p = 29 then swIngress s 29 ext (rxNow s ext).q (fcsFate f) f
  else swIngress s p p 0 (fcsFate f) f

/-! ### Egress -/

/-- Whether a class has a frame that could start (R231, R237). -/
def eligible (s : State) (p c : Nat) : Bool :=
  match s.queue p c with
  | [] => false
  | x :: _ => mayStart s p c x.bytes.length

/-- Whether a frame has been queued for longer than SW_RES_LIMIT (R231). -/
def tooOld (s : State) (x : SwFrame) : Bool := max 1 (min 10000 (s.get R.SW_RES_LIMIT_V)) * 1000000 < s.now - x.at_

/-- Whether the rest of a preempted frame of class `c` may go on (R222, R237). -/
def restMay (s : State) (p c : Nat) : Bool :=
  let x := s.port p
  p < 24 && preemptable s p c && x.rest != 0 && x.preCls == c && portFree s p
    && pausedTill s p c == 0 && gateOpen s p c && !(gateWord s p).testBit 11
    && fragPlan s p c x.rest != 0
    && !((List.range 8).any fun k => c < k && eligible s p k)

/-- The rest of a preempted frame goes on, as a fragment of its own (R222). -/
def restSend (s : State) (p : Nat) : State :=
  let x := s.port p
  fragSend ((macCount s p 12 1).setPort p { x with txCls := some x.preCls }) p (fragPlan s p x.preCls x.rest) x.rest

/-- A frame of an express class that only the frame on the wire keeps from starting preempts that frame (R222). -/
def expressPreempts (s : State) (p c : Nat) : State :=
  if (s.port p).pre && !preemptable s p c && eligible (s.setPort p { s.port p with txEnd := 0 }) p c then preemptTx s p else s

/-- EGRESS_FRAME_START (R222, R231, R237, R239): frames too old are dropped at the head; then the rest of a preempted frame goes
on, or the frame starts if its class is the highest that may. -/
def egressStart (s : State) (p c : Nat) : State :=
  let s := cbsPort s p
  let head := (s.queue p c).head?
  if head.any (tooOld s) then
    head.elim s fun x => swDrop (freeCells (s.setQueue p c (s.queue p c).tail) x) p 4 c
  else if restMay s p c then restSend s p
  else
    let s := expressPreempts s p c
    match s.queue p c with
    | [] => s
    | x :: rest =>
      if eligible s p c && !((List.range 8).any fun k => c < k && eligible s p k) then
        let s := freeCells (s.setQueue p c rest) x
        if p < 24 then classSend s p c x.ingress x.ts x.bytes true
        else if p = 27 then { s with dma := { s.dma with hrx := dropFcs x.bytes } }
        else s
      else s

/-- GATE_ENTRY (R235): the first boundary starts the list where its cycle stands; each later one moves to the next entry,
or to the first entry of the next cycle. -/
def gateStep (s : State) (p : Nat) : State :=
  let g := s.gcl p
  let now := domTime s (s.get R.SW_GCL_CTL_DOM p)
  let base := s.get64 R.SW_GCL_BASE_LO R.SW_GCL_BASE_HI p
  if !s.on R.SW_GCL_CTL_EN p || g.len = 0 then s
  else if !g.running then
    if base ≤ now then
      let c := base + (now - base) / gclCycle s p * gclCycle s p
      preemptAtGate ((cbsPort s p |>.setGcl p { g with running := true, cycle := c, entry := c }).put R.SW_GCL_STAT_IDX 0 p) p
    else s
  else
    let e := entryEnd s p
    if e ≤ now then
      let s := cbsPort s p
      preemptAtGate (if e = g.cycle + gclCycle s p then (s.setGcl p { g with cycle := e, entry := e }).put R.SW_GCL_STAT_IDX 0 p
        else (s.setGcl p { g with entry := e }).addWrap R.SW_GCL_STAT_IDX 1 p) p
    else s

/-- A write of SW_GCLn_CTL (R235, R238): EN = 0 ends the list; CHG asks for the written list at the first cycle start at or
after CHG_TIME, and is ignored while PEND = 1. -/
def gclCtlWrite (s : State) (p v : Nat) : State :=
  let s := cbsPort s p
  let s := (s.put R.SW_GCL_CTL_EN v p).put R.SW_GCL_CTL_DOM (bits v 1 1) p
  let s := if v.testBit 0 then s else s.setGcl p { s.gcl p with running := false }
  if v.testBit 2 && !s.on R.SW_GCL_STAT_PEND p then
    let base := s.get64 R.SW_GCL_BASE_LO R.SW_GCL_BASE_HI p
    let t := max (s.get64 R.SW_GCL_CHG_LO R.SW_GCL_CHG_HI p) (domTime s (s.get R.SW_GCL_CTL_DOM p))
    let c := gclCycle s p
    let at_ := if t ≤ base then base else base + (t - base + c - 1) / c * c
    (s.raise R.SW_GCL_STAT_PEND p).setGcl p { s.gcl p with chgAt := at_ }
  else s

/-- GATE_LIST_CHANGE (R238): at its cycle start the written list becomes operative. -/
def gclChange (s : State) (p : Nat) : State :=
  let g := s.gcl p
  if s.on R.SW_GCL_STAT_PEND p && s.on R.SW_GCL_CTL_EN p && g.chgAt ≤ domTime s (s.get R.SW_GCL_CTL_DOM p) then
    let s := cbsPort s p
    let s := (s.clr R.SW_GCL_STAT_PEND p).put R.SW_GCL_STAT_OPER (1 - s.get R.SW_GCL_STAT_OPER p) p
    preemptAtGate ((s.setGcl p { g with
      running := true, len := max 1 (min 256 (s.get R.SW_GCL_LEN_V p)), cycle := g.chgAt, entry := g.chgAt }).put
      R.SW_GCL_STAT_IDX 0 p) p
  else s

/-! ### Pause -/

/-- Hold or release a class of a transmitter (R219); the watchdog counts from the first hold (R221). -/
def holdClass (s : State) (p c quanta : Nat) : State :=
  let till := if quanta = 0 then 0 else s.now + quanta * 512000 / portRate s p
  let s := { s with sw := { s.sw with pause := tabSet {} s.sw.pause (p * 8 + c) ⟨till⟩ } }
  let held := (List.range 8).any fun k => pausedTill s p k != 0
  let since := tabGet 0 s.sw.pwSince p
  { s with sw := { s.sw with pwSince := tabSet 0 s.sw.pwSince p (if held then (if since = 0 then s.now + 1 else since) else 0) } }

/-- PAUSE_FRAME (R219, R221). -/
def pauseFrame (s : State) (p : Nat) (pfc : Bool) (en : Nat) (quanta : List (BitVec 16)) : State :=
  if !portLive s p || type8 s p then s
  else
    let s := macCount s p 9 1
    let q := fun k => (quanta.getD k 0).toNat
    if s.on R.MAC_STAT_PW_ACTIVE p then s
    else if pfc then
      if s.on R.MAC_CTL_PFC p then
        (numsWhere 8 fun k => en.testBit k).foldl (fun s k =>
          let c := pcpClass s p k
          if (s.get R.MAC_PFC_EN p).testBit c then holdClass s p c (q k) else s) s
      else s
    else if s.on R.MAC_CTL_PAUSE_RX p && !s.on R.MAC_CTL_PFC p then
      (List.range 8).foldl (fun s c => holdClass s p c (q 0)) s
    else s

/-- PAUSE_END (R219). -/
def pauseEnd (s : State) (p c : Nat) : State :=
  if pausedTill s p c != 0 && pausedTill s p c ≤ s.now then holdClass s p c 0 else s

/-- PAUSE_WATCHDOG_TRIP (R221): LIMIT held within 1 to 1,000 ms. -/
def pauseTrip (s : State) (p : Nat) : State :=
  let since := tabGet 0 s.sw.pwSince p
  if s.on R.MAC_PW_EN p && !s.on R.MAC_STAT_PW_ACTIVE p && since != 0
      && max 1 (min 1000 (s.get R.MAC_PW_LIMIT p)) * 1000000 < s.now + 1 - since then
    let s := (List.range 8).foldl (fun s c => holdClass s p c 0) s
    let s := macCount ((s.raise R.MAC_STAT_PW_ACTIVE p).raise R.MAC_EVT_PW_TRIP p) p 11 1
    { s with sw := { s.sw with
      pwUntil := tabSet 0 s.sw.pwUntil p (s.now + max 1 (min 1000 (s.get R.MAC_PW_RECOVER p)) * 1000000) } }
  else s

/-- PAUSE_WATCHDOG_RECOVER (R221). -/
def pauseRecover (s : State) (p : Nat) : State :=
  if s.on R.MAC_STAT_PW_ACTIVE p && tabGet 0 s.sw.pwUntil p ≤ s.now then s.clr R.MAC_STAT_PW_ACTIVE p else s

/-! ### Port states and links -/

/-- Drop every frame queued for a port (R217): counted in DROP_DISABLE; the frames that wait without a class are forgotten. -/
def dropQueues (s : State) (p : Nat) : State :=
  let s := (List.range 8).foldl (fun s c =>
    let l := s.queue p c
    l.foldl (fun s x => swDrop (freeCells s x) p 3 c) (s.setQueue p c [])) s
  s.setPort p { s.port p with ctl := [], spl := [] }

/-- MAC_STAT.LINK takes a value; a change sets LINK_CHG (R216). -/
def setLink (s : State) (p : Nat) (up : Bool) : State :=
  if s.on R.MAC_STAT_LINK p != up then (s.put R.MAC_STAT_LINK (bit01 up) p).raise R.MAC_EVT_LINK_CHG p else s

/-- Preemption of a port ends, and must be verified anew (R222). -/
def preemptEnd (s : State) (p : Nat) : State :=
  (s.clr R.MAC_STAT_PREEMPT_ACT p).setPort p { s.port p with verify := 0, verifyAt := 0, pre := false, rest := 0, tsRest := none }

/-- The rest of a preempted frame is a part of the frame on the wire: where preemption ends it goes out at once, after what is on the
wire (R217, R222). -/
def restFinish (s : State) (p : Nat) : State :=
  let x := s.port p
  if x.rest = 0 then s
  else (macCount s p 12 1).setPort p { x with
    rest := 0, tsOut := x.tsOut ++ x.tsRest.toList, tsRest := none, txEnd := max s.now x.txEnd + wireTime (portRate s p) x.rest }

/-- Preemption becomes active without the verify procedure (R222): a port in SGMII mode below 1,000 Mbit/s does not preempt. -/
def preemptUnverified (s : State) (p : Nat) : State :=
  let slow := s.get R.MAC_CTL_MODE p = 0 && p < 16 && s.get R.MAC_STAT_SPEED p < 2
  if s.on R.MAC_CTL_PREEMPT p && s.on R.MAC_CTL_VERIFY_DIS p && !slow then s.raise R.MAC_STAT_PREEMPT_ACT p else s

/-- The port leaves ENABLED (R217). -/
def leaveEnabled (s : State) (p : Nat) : State :=
  preemptEnd (setLink (dropQueues (restFinish s p) p) p false) p

/-- A write of CE_MQ_PORTp (R91, R92): entering or leaving a Maquette mode acts on the port as a disable does, so that a frame being
received completes from where it came; a capture begins at the start of its buffer, a record at the start of its list.
DESIGN CHOICE -/
def mqPortWrite (s : State) (p v : Nat) : State :=
  let old := s.get R.CE_MQ_PORT_MODE p
  let cap := s.on R.CE_MQ_PORT_CAPTURE p
  let rec_ := s.on R.CE_MQ_PORT_RECORD p
  let s := s.regWrite R.CE_MQ_PORT v p
  let s := if s.on R.CE_MQ_PORT_CAPTURE p && !cap then { s with engArr := { s.engArr with capPos := 0 } } else s
  let s := if s.on R.CE_MQ_PORT_RECORD p && !rec_ then { s with engArr := { s.engArr with recPos := 0 } } else s
  if s.get R.CE_MQ_PORT_MODE p = old then s
  else
    let s := leaveEnabled s p
    s.setPort p { s.port p with loop := [] }

/-- A write of MAC_CTL (R212, R216, R217, R222). -/
def macCtlWrite (s : State) (p v : Nat) : State :=
  let old := portState s p
  let new := v % 4 % 3
  let mode := if old = 0 || new = 0 then bits v 4 3 else s.get R.MAC_CTL_MODE p
  let s := s.regWrite R.MAC_CTL (setBits v 4 3 (s.get R.MAC_CTL_MODE p)) p
  let s := if old = 1 && new != 1 then leaveEnabled s p else s
  let s := s.put R.MAC_CTL_MODE mode p
  if !s.on R.MAC_CTL_PREEMPT p then preemptEnd (restFinish s p) p
  else if portLive s p then preemptUnverified s p
  else s

/-- LINK_UP (R212, R213, R216). -/
def linkUp (s : State) (p speed : Nat) (half : Bool) : State :=
  if portState s p = 1 && !s.on R.MAC_STAT_LINK p && !inMaquette s p then
    if half then s.raise R.MAC_STAT_HDX p
    else
      let s := (s.clr R.MAC_STAT_HDX p).put R.MAC_STAT_SPEED (speedOf p (s.get R.MAC_CTL_MODE p) speed) p
      preemptUnverified (setLink s p true) p
  else s

/-- PREEMPT_VERIFY (R222): an attempt that succeeds makes preemption active; after three that fail, 10 ms apart, VERIFY_FAIL is
set. -/
def preemptVerify (s : State) (p : Nat) (ok : Bool) : State :=
  let x := s.port p
  let slow := s.get R.MAC_CTL_MODE p = 0 && p < 16 && s.get R.MAC_STAT_SPEED p < 2
  if portLive s p && s.on R.MAC_CTL_PREEMPT p && !s.on R.MAC_CTL_VERIFY_DIS p && !s.on R.MAC_STAT_PREEMPT_ACT p
      && x.verify < 3 && !slow then
    if ok then (s.setPort p { x with verify := 0, verifyAt := 0 }).raise R.MAC_STAT_PREEMPT_ACT p
    else if x.verify = 0 || x.verifyAt + 10000000 ≤ s.now then
      let s := s.setPort p { x with verify := x.verify + 1, verifyAt := s.now }
      if x.verify + 1 = 3 then s.raise R.MAC_EVT_VERIFY_FAIL p else s
    else s
  else s

/-- A magic packet for MAC_ADDR (R218): six bytes of ones and sixteen copies of the address, anywhere in the frame. -/
def magicAt (mac : List Byte) : List Byte → Bool
  | [] => false
  | b :: f => decide ((b :: f).take 102 = List.replicate 6 0xFF ++ (List.replicate 16 mac).flatten) || magicAt mac f

/-- Whether wake pattern `k` of a port matches a frame under its byte mask (R218). -/
def patternHit (s : State) (p k : Nat) (f : List Byte) : Bool :=
  let n := max 1 (min 128 (s.get R.MAC_WP_LEN_V p k))
  n ≤ f.length && (List.range n).all fun i =>
    !(s.rd R.MAC_WP_MASK p k (i / 32)).testBit (i % 32)
      || bits (s.rd R.MAC_WP_DATA p k (i / 4)) (8 * (i % 4)) 8 == byteAt f i

/-- WAKE_MATCH (R218): a match in SLEEP sets WAKE, and with AUTO the port returns to ENABLED. -/
def wakeMatch (s : State) (p : Nat) (f : List Byte) : State :=
  let mac := beBytes 6 (s.rd R.MAC_ADDR_LO p + 2 ^ 32 * s.get R.MAC_ADDR_HI_V p)
  let hit := (s.on R.MAC_WAKE_CTL_MAGIC p && magicAt mac f)
    || (List.range 8).any fun k => (s.get R.MAC_WAKE_CTL_PAT_EN p).testBit k && patternHit s p k f
  if portState s p = 2 && hit then
    let s := s.raise R.MAC_EVT_WAKE p
    if s.on R.MAC_WAKE_CTL_AUTO p then s.put R.MAC_CTL_STATE 1 p else s
  else s

end Sys2Proof.Machine
end

