-- ==== Sys2Proof/Machine/FriezeHead.lean ====
section
/-! DEFINITION. Frieze's state and frames (spec/07) as the ports and generators need them: instances and branches, headers, the layout of
a cyclic frame, a branch's gate (R196), and what a stamped frame's SFD settles as it leaves (R192). Frame offsets count from the
destination address. -/
namespace Sys2Proof.Machine

/-- Instance `i`. -/
def State.inst (s : State) (i : Nat) : Inst := tabGet {} s.packs.insts i

/-- Replace an instance. -/
def State.setInst (s : State) (i : Nat) (x : Inst) : State :=
  { s with packs := { s.packs with insts := tabSet {} s.packs.insts i x } }

/-- This device's ID. -/
def pkId (s : State) : Nat := s.get R.PK_STAT_ID

/-- The Frieze instance `i`. -/
def State.fzi (s : State) (i : Nat) : FzInst := tabGet {} s.fz i

/-- Replace it. -/
def State.setFzi (s : State) (i : Nat) (x : FzInst) : State := { s with fz := tabSet {} s.fz i x }

/-- Change it. -/
def State.modFzi (s : State) (i : Nat) (f : FzInst → FzInst) : State := s.setFzi i (f (s.fzi i))

/-- Branch `n` of a star. -/
def fzBr (x : FzInst) (n : Nat) : FzBranch := tabGet {} x.br n

/-- Replace a branch. -/
def setFzBr (x : FzInst) (n : Nat) (b : FzBranch) : FzInst := { x with br := tabSet {} x.br n b }

/-- Change a branch of instance `i`. -/
def State.modBr (s : State) (i n : Nat) (f : FzBranch → FzBranch) : State :=
  s.modFzi i fun x => setFzBr x n (f (fzBr x n))

/-- Add to a counter of an instance record; the counters wrap (R158). -/
def instCount (s : State) (i w n : Nat) : State :=
  let x := s.inst i
  s.setInst i { x with words := tabSet 0 x.words w (tabGet 0 x.words w + w32 n) }

/-- The header's fields (R189). -/
def fzCycle (f : List Byte) : Nat := beAt f 14 4
def fzTime (f : List Byte) : Nat := beAt f 18 8
def fzType (f : List Byte) : Nat := beAt f 26 2 % 4
def fzSrc (f : List Byte) : Nat := beAt f 26 2 / 4 % 128
def fzNodes (f : List Byte) : Nat := byteAt f 29
def fzVer (f : List Byte) : Nat := byteAt f 28 % 16
def fzKind (f : List Byte) : Nat := byteAt f 28 / 16

/-- A header from its fields. -/
def fzHeader (cycle time type_ src nodes kind : Nat) : List Byte :=
  beBytes 4 cycle ++ beBytes 8 time ++ beBytes 2 (type_ + 4 * src) ++ beBytes 2 (nodes + 256 + 4096 * kind)

/-- Where the section at position `j` of the slot order begins (R190). -/
def sectAt (c : FzCfg) (j : Nat) : Nat := (c.sects.take j).foldl (fun a w => a + 4 + 4 * w.1 + 4 * w.2) 30

/-- OUT_LEN and IN_LEN at a position. -/
def sectLen (c : FzCfg) (j : Nat) : Nat × Nat := c.sects.getD j (0, 0)

/-- The bytes of the cyclic frame without its FCS (R190, R191). -/
def fzLen (c : FzCfg) : Nat := sectAt c c.slots.length

/-- The position of a node in the slot order. -/
def slotPos (c : FzCfg) (n : Nat) : Nat := c.slots.idxOf n

/-- Port, CLUSTER_ID, candidate and present of a node's branch (R207). -/
def fzMap (x : FzInst) (n : Nat) : Nat × Nat × Bool × Bool :=
  ((x.cfg.branches.find? fun b => b.1 == n).map (·.2)).getD (0, 0, false, false)

/-- The rate of a star's branches: they share one port mode (R184), so that of its own ports. -/
def fzRate (s : State) (x : FzInst) (n : Nat) : Nat :=
  let m := fzMap x n
  if m.2.1 = pkId s then portRate s m.1 else portRate s x.port

/-! ### Gates (R196)

The gate of an ACTIVE branch opens GUARD before an expected start and closes at its window's end. Its generator is programmed for one edge
after the other, in whole ns, upwards. DESIGN CHOICE (log 241) -/

/-- A time in 2^-8 ns as whole ns, upwards. -/
def upNs (t : Int) : Nat := ((t + 255) / 256).toNat

/-- The wire time of `len` bytes at a rate in Mbit/s, in 2^-8 ns, upwards. -/
def wire256 (rate len : Nat) : Nat := (len * 2048000 + rate - 1) / max 1 rate

/-- M_j of a branch in its present cycle, in 2^-8 ns. -/
def miniOpen (x : FzInst) (n : Nat) : Int :=
  256 * (x.s0 + x.cfg.acycOff + slotPos x.cfg n * x.cfg.miniLen : Nat) + (fzBr x n).repD

/-- The edges of a branch's gate in its mini-slot: its time, and whether it opens. -/
def miniEdges (x : FzInst) (n : Nat) : List (Nat × Bool) :=
  let m := miniOpen x n
  [(upNs (m - 256 * x.cfg.guard), true), (upNs (m + 256 * ((x.cfg.miniLen : Int) - x.cfg.guard)), false)]

/-- The edges of a branch's gate in a cycle in which its start is expected at `e`, in 2^-8 ns, at a rate. -/
def gateEdges (x : FzInst) (n rate : Nat) (e : Int) : List (Nat × Bool) :=
  [(upNs (e - 256 * x.cfg.guard), true), (upNs (e + 256 * x.cfg.guard + wire256 rate 72), false)] ++ miniEdges x n

/-- Program a generator of a domain for one instant, or for none. -/
def igOnce (s : State) (g dom : Nat) (t : Option Nat) : State :=
  let s := igCtlWrite s g (4 * dom)
  match t with
  | some a => igCtlWrite (s.put64 R.TB_IG_START_LO R.TB_IG_START_HI a g) g (1 + 4 * dom)
  | none => s

/-- A branch of this device takes the edges of its gate. -/
def gateSet (s : State) (i n : Nat) (l : List (Nat × Bool)) : State :=
  let s := s.modBr i n fun b => { b with edges := l }
  match (s.fzi i).gates.find? (·.1 == n) with
  | some g => igOnce s g.2 (s.fzi i).dom (l.head?.map (·.1))
  | none => s

/-! ### A stamped frame leaves -/

/-- FP_LAST and FP_MAX of a star (R209), from a relay to the leader whose SFD leaves at `t`, in quarter ns. -/
def phaseEnd (s : State) (i : Nat) (t : Int) : State :=
  let x := s.fzi i
  let fp := (t / 4 + (x.frame.length + 12) * 8000 / fzRate s x x.leader - x.origin.getD 0 / 4).toNat
  let y := s.inst i
  s.setInst i { y with words := tabSet 0 (tabSet 0 y.words 20 (w32 fp)) 21 (w32 (max fp (tabGet 0 y.words 21).toNat)) }

/-- A star's relay on branch `n` leaves with its SFD at `t` in quarter ns: T_n (R196), and the gate that follows from it; or the end of the
frame phase (R209). -/
def relayLeft (s : State) (i n : Nat) (t : Int) : State :=
  let x := s.fzi i
  let b := fzBr x n
  if n = x.leader then (if x.origin.isSome then phaseEnd s i t else s)
  else if b.tn.isSome then
    let s := s.modBr i n fun b => { b with tn := some t }
    if b.st = 3 then gateSet s i n (gateEdges x n (fzRate s x n) (64 * t + 256 * b.rt)) else s
  else s

/-- What the SFD of a frame that leaves port `p` now, stamped in domain `d`, settles for the instance that sent it, on branch `n` of a star
(R192): t1 of a request (R193), the time of a cold-start frame (R205), T_n of a relay (R196). -/
def stampLeft (s : State) (p d : Nat) (by_ : Option (Nat × Nat)) (f : List Byte) : State :=
  let t := txStamp s p d
  match by_ with
  | none => s
  | some (i, n) =>
    let x := s.fzi i
    if x.role = 2 then if fzType f = 0 then relayLeft s i n t else s
    else if fzType f = 2 && fzKind f = 1 then s.setFzi i { x with t1 := (t / 4).toNat }
    else if fzType f = 1 && x.st = 1 then s.setFzi i { x with csAt := (t / 4).toNat }
    else s

end Sys2Proof.Machine
end

