-- ==== Sys2Proof/Machine/RaspOps.lean ====
section
/-! DEFINITION. The Rasp units' operations (spec/11): pins, the lookup and the entry's execution, step ticks, stalls, injection,
flips, starts and stops, and the FIFOs. -/
namespace Sys2Proof.Machine

/-- Unit RASP`u`. -/
def State.unit (s : State) (u : Nat) : RaspSt := tabGet {} s.rasp.units u

/-- Replace a unit. -/
def State.setUnit (s : State) (u : Nat) (x : RaspSt) : State :=
  { s with rasp := { s.rasp with units := tabSet {} s.rasp.units u x } }

/-- The lane of a unit that is mapped to a pin: the highest, where several are. DESIGN CHOICE -/
def laneOf (s : State) (u p : Nat) : Option Nat :=
  (List.range 4).foldl (fun b l => if bits (s.rd R.RASP_U_OMAP u) (8 * l) 6 = p then some l else b) none

/-- What drives a GPIO pin (R287, R297): level and drive enable. A unit drives the pins it owns while it runs and for one
step period after; one that it owns and maps no lane to keeps its OUT and OE. DEDUCED -/
def pinDrive (s : State) (p : Nat) : Bool × Bool :=
  let o := s.get R.GPIO_PIN_OWN p
  let plain := (s.on R.GPIO_PIN_OUT p, s.on R.GPIO_PIN_OE p)
  if o = 0 || 16 < o then plain
  else
    let x := s.unit (o - 1)
    if x.run || x.hold then
      match laneOf s (o - 1) p with
      | some l => (x.lanes.getLsbD l, x.oe.getLsbD l)
      | none => plain
    else plain

/-- The level of a GPIO pin: its drive, or the level that stands at the ball (R287). -/
def pinLevel (s : State) (p : Nat) : Bool :=
  if (pinDrive s p).2 then (pinDrive s p).1 else s.rasp.balls.getLsbD p

/-- An input of a unit's vector by its select code (R288). -/
def raspInput (s : State) (u code : Nat) : Bool :=
  let x := s.unit u
  if code < 64 then pinLevel s code
  else match code with
    | 64 => x.cnt == 0
    | 65 => x.pull.isEmpty
    | 66 => 8 ≤ x.push.length
    | 67 => s.get R.RASP_U_CFG_WIDTH u ≤ x.sc
    | 68 => x.sob
    | 69 => x.snap && s.on R.RASP_U_CFG_SNAP_EN u
    | 71 => true
    | _ => false

/-- Input bit `i` of a unit. -/
def raspI (s : State) (u i : Nat) : Bool := raspInput s u (bits (s.rd R.RASP_U_ISEL u) (8 * i) 7)

/-- The key of a table entry. -/
def raspKey (u bank i : Nat) : Nat := u * 1024 + bank * 512 + i

/-- The entry that a lookup reads (R288). -/
def raspAt (s : State) (u : Nat) : Nat :=
  let i := (s.unit u).state * 16 + 8 * bit01 (raspI s u 3) + 4 * bit01 (raspI s u 2) + 2 * bit01 (raspI s u 1)
    + bit01 (raspI s u 0)
  raspKey u (s.get R.RASP_U_CTL_BANK u) i

/-- What a lookup sees of its entry: of one that was written in the active bank of a running unit the former value, or, from a step on
that the spec leaves open, the new one (R296). -/
def raspLookup (s : State) (u : Nat) : State × Word :=
  let k := raspAt s u
  let new := tabGet 0 s.rasp.tab k
  match s.rasp.late.find? fun p => p.1 == k with
  | none => (s, new)
  | some p =>
    let r := s.draw 1
    if r.1 == 0 then (r.2, p.2) else ({ r.2 with rasp := { r.2.rasp with late := r.2.rasp.late.filter fun q => q.1 != k } }, new)

/-- The step period in units of 2^-8 ns (R292). -/
def raspDiv (s : State) (u : Nat) : Nat := max 256 (s.get R.RASP_U_DIV_V u)

/-- The number of the latest step tick of a unit that has come (R292): tick k falls at T0 + ⌊k × DIV⌋. -/
def raspTicks (s : State) (u : Nat) : Nat :=
  (256 * (s.time.frc.toNat - (s.unit u).t0 + 1) - 1) / raspDiv s u

/-- How many of a unit's step ticks lie before tick `at_` of the timebase. -/
def raspPast (s : State) (u at_ : Nat) : Nat :=
  if at_ ≤ (s.unit u).t0 then 0 else (256 * (at_ - (s.unit u).t0) - 1) / raspDiv s u + 1

/-- Whether a step tick of the unit falls at the present ns (R292). -/
def raspAtTick (s : State) (u : Nat) : Bool :=
  (s.unit u).t0 + raspTicks s u * raspDiv s u / 256 == s.time.frc.toNat

/-- Whether the unit's next step tick has come. -/
def raspDue (s : State) (u : Nat) : Bool :=
  (s.unit u).run && (s.unit u).t0 ≤ s.time.frc.toNat && (s.unit u).k ≤ raspTicks s u

/-- Whether an entry cannot execute for want of its FIFO (R291, R294). -/
def raspBlocked (x : RaspSt) (e : Nat) : Bool :=
  (bits e 5 3 = 3 && x.pull.isEmpty) || (bits e 5 3 = 4 && 8 ≤ x.push.length)

/-- The action of an entry (R291). -/
def raspAct (s : State) (u : Nat) (x : RaspSt) (e : Nat) : RaspSt :=
  let arg := bits e 20 10
  match bits e 5 3 with
  | 1 => { x with sob := x.sr.getLsbD 0, sr := x.sr >>> 1, sc := min 32 (x.sc + 1) }
  | 2 => { x with sr := (x.sr >>> 1) ||| w32 (bit01 (raspI s u (arg % 4)) * 2 ^ 31), sc := min 32 (x.sc + 1) }
  | 3 => { x with sr := x.pull.headD 0, pull := x.pull.tail, sc := 0 }
  | 4 =>
    if arg % 2 = 0 then
      { x with push := x.push ++ [if x.sc = 0 then 0 else x.sr >>> (32 - x.sc)], sr := 0, sc := 0, snap := false }
    else { x with push := x.push ++ [w32 x.cnt.toNat], snap := false }
  | 5 => { x with cnt := BitVec.ofNat 16 arg }
  | 6 => { x with cnt := if arg % 2 = 0 then x.cnt + 1 else x.cnt - 1 }
  | 7 => { x with wait := arg }
  | _ => x

/-- The pins of an entry (R289, R290). -/
def raspPins (x : RaspSt) (e : Nat) : RaspSt :=
  let lane := fun l => match bits e (8 + 2 * l) 2 with
    | 0 => false
    | 1 => true
    | 2 => x.sob
    | _ => x.lanes.getLsbD l
  let v := bit01 (lane 0) + 2 * bit01 (lane 1) + 4 * bit01 (lane 2) + 8 * bit01 (lane 3)
  { x with lanes := BitVec.ofNat 4 v, oe := BitVec.ofNat 4 (bits e 16 4) }

/-- An entry executes (R290): the action, the pins, then the next state; IRQ and the step count. -/
def raspExec (s : State) (u : Nat) (x : RaspSt) (e : Nat) : State :=
  let x := raspPins (raspAct s u x e) e
  let s := s.setUnit u { x with state := bits e 0 5, stalled := none }
  let s := if e.testBit 31 then s.raise R.RASP_U_EVT_IRQ u else s
  s.addWrap R.RASP_U_STEPS_V 1 u

/-- RASP_STEP (R288 to R290, R294 to R297): the step due now takes an injected entry or looks one up, after a pending flip. -/
def raspStep (s : State) (u : Nat) (pins : BitVec 64) : State :=
  let s := { s with rasp := { s.rasp with balls := pins } }
  let x := s.unit u
  if !raspDue s u || x.wait != 0 || x.stalled.isSome || x.stop.any (· ≤ x.k) then s
  else
    let s := if x.flip then s.put R.RASP_U_CTL_BANK (1 - s.get R.RASP_U_CTL_BANK u) u else s
    let r := x.inj.elim (raspLookup s u) fun e => (s, e)
    let s := r.1
    let e := r.2.toNat
    let x := { x with flip := false, inj := none, k := x.k + 1 }
    if raspBlocked x e then s.setUnit u { x with stalled := some (w32 e) } else raspExec s u x e

/-- RASP_WAIT_END (R291): the last of the WAIT's step ticks has come. -/
def raspWaitEnd (s : State) (u : Nat) : State :=
  let x := s.unit u
  if x.run && x.wait != 0 && x.t0 ≤ s.time.frc.toNat && x.k + x.wait ≤ raspTicks s u + 1 then
    s.setUnit u { x with wait := 0, k := x.k + x.wait }
  else s

/-- RASP_STALL_RELEASE (R294): the latched entry executes at a step tick at which its FIFO is ready. -/
def raspStallRelease (s : State) (u : Nat) : State :=
  let x := s.unit u
  match x.stalled with
  | some e =>
    if raspDue s u && raspAtTick s u && !x.stop.any (· ≤ raspTicks s u) && !raspBlocked x e.toNat then
      raspExec s u { x with k := raspTicks s u + 1 } e.toNat
    else s
  | none => s

/-- Clear a unit's FIFOs, flip and injection (R297). -/
def raspClear (x : RaspSt) : RaspSt :=
  { x with pull := [], push := [], stalled := none, inj := none, flip := false, wait := 0, stop := none }

/-- A write of RASP_u_CTL (R293, R296, R297): EN = 0 acts at the running unit's next step tick. -/
def raspCtlWrite (s : State) (u v : Nat) : State :=
  let was := s.on R.RASP_U_CTL_EN u
  let s := (s.put R.RASP_U_CTL_EN v u).put R.RASP_U_CTL_START_STATE (bits v 3 5) u
  let s := (s.put R.RASP_U_CTL_OWNER_LE (bits v 8 6) u).put R.RASP_U_CTL_OWNER_EN (bits v 14 1) u
  let s := if v.testBit 2 && !(s.unit u).flip then s.setUnit u { s.unit u with flip := true } else s
  let x := s.unit u
  if was && !v.testBit 0 then
    s.setUnit u (if x.run then { x with stop := x.stop.or (some (max (raspPast s u s.time.frc.toNat) x.k)) } else raspClear x)
  else s

/-- RASP_DISABLE_TICK (R297): at the tick at which EN = 0 acts the unit takes no step; its pins keep their values for one period. -/
def raspDisableTick (s : State) (u : Nat) : State :=
  let x := s.unit u
  match x.stop with
  | some n =>
    let at_ := x.t0 + n * raspDiv s u / 256
    if x.run && at_ ≤ s.time.frc.toNat then s.setUnit u { raspClear x with run := false, hold := true, t0 := at_ } else s
  | none => s

/-- RASP_PIN_RELEASE (R297): one step period after the stop, the pins take their GPIO values. -/
def raspPinRelease (s : State) (u : Nat) : State :=
  let x := s.unit u
  if x.hold && !x.run && 256 * x.t0 + raspDiv s u < 256 * (s.time.frc.toNat + 1) then
    s.setUnit u { x with hold := false }
  else s

/-- A write of RASP_u_DIV (R292): from the next step on, measured from the tick of the last one, which in a WAIT or a stall is the
latest that has come. -/
def raspDivWrite (s : State) (u v : Nat) : State :=
  let x := s.unit u
  let m := if x.wait != 0 then min (raspTicks s u) (x.k + x.wait - 1) else if x.stalled.isSome then raspTicks s u else x.k - 1
  let last := x.t0 + m * raspDiv s u / 256
  let k := if x.stalled.isSome && x.k ≤ m then 0 else 1
  let s := s.put R.RASP_U_DIV_V v u
  if x.run && (x.k != 0 || x.wait != 0 || x.stalled.isSome) then
    s.setUnit u { x with t0 := last, k := k, wait := x.wait - (m + 1 - x.k), stop := x.stop.map (· - m) }
  else s

/-- RASP_TW_DATA is written (R296): the index goes on by one. In the active bank of a running unit that is neither stalled nor in a
WAIT, the spec leaves open which step first sees the entry. -/
def raspTableWrite (s : State) (v : Word) : State :=
  let i := s.get R.RASP_TW_SEL_INDEX
  let u := s.get R.RASP_TW_SEL_UNIT
  let b := s.get R.RASP_TW_SEL_BANK
  let k := raspKey u b i
  let x := s.unit u
  let busy := x.run && x.wait == 0 && x.stalled.isNone && s.get R.RASP_U_CTL_BANK u == b
  let was := (s.rasp.late.find? fun p => p.1 == k).elim (tabGet 0 s.rasp.tab k) (·.2)
  let late := if busy then tabPut s.rasp.late k was else s.rasp.late.filter fun p => p.1 != k
  { (s.put R.RASP_TW_SEL_INDEX (i + 1)) with rasp := { s.rasp with tab := tabSet 0 s.rasp.tab k v, late := late } }

/-- RASP_TW_DATA is read: the index goes on by one. -/
def raspTableRead (s : State) : State :=
  let i := s.get R.RASP_TW_SEL_INDEX
  let k := raspKey (s.get R.RASP_TW_SEL_UNIT) (s.get R.RASP_TW_SEL_BANK) i
  (s.put R.RASP_TW_SEL_INDEX (i + 1)).answer (tabGet 0 s.rasp.tab k).toNat

/-- INJ is written (R295). -/
def raspInject (s : State) (u : Nat) (v : Word) : State :=
  let x := s.unit u
  if x.inj.isSome || !x.run then s.raise R.RASP_U_EVT_INJ_ERR u else s.setUnit u { x with inj := some v }

/-- RASP_START.GO (R293): ignored while a start is pending, with the whole word. DEDUCED -/
def raspGo (s : State) (v : Nat) : State :=
  if s.on R.RASP_START_STAT_PEND then
    if v.testBit 24 then s.raise R.RASP_START_STAT_MISS
    else s.wr R.RASP_START (v % 2 ^ 22)
  else
    let s := s.wr R.RASP_START (v % 2 ^ 22)
    if v.testBit 24 then { s.raise R.RASP_START_STAT_PEND with rasp := { s.rasp with due := none } } else s

/-- RASP_SYNC_START (R293, R17): at the tick of the instant, or at the first one. Of a WAIT in progress the ticks that have passed stay passed. -/
def raspSyncStart (s : State) : State :=
  if s.on R.RASP_START_STAT_PEND && (!s.on R.RASP_START_IG_EN || s.rasp.due.isSome) then
    let t := if s.on R.RASP_START_IG_EN then s.rasp.due.getD s.time.frc.toNat else s.time.frc.toNat
    let s := { s.clr R.RASP_START_STAT_PEND with rasp := { s.rasp with due := none } }
    (numsWhere 16 fun u => (s.get R.RASP_START_MASK).testBit u && s.on R.RASP_U_CTL_EN u).foldl (fun s u =>
      let x := s.unit u
      s.setUnit u (if x.run then { x with t0 := t, k := 0, wait := x.wait - (raspPast s u t - x.k), stop := x.stop.map fun _ => 0 }
        else { x with run := true, state := s.get R.RASP_U_CTL_START_STATE u, sr := 0, sc := 0, cnt := 0, sob := false
                      wait := 0, stalled := none, inj := none, t0 := t, k := 0, hold := false, stop := none })) s
  else s

/-- A word for the pull FIFO (R297, R298). -/
def raspPull (s : State) (u : Nat) (v : Word) : State :=
  if s.on R.RASP_U_CTL_EN u then s.setUnit u { s.unit u with pull := (s.unit u).pull ++ [v] }
  else s.raise R.RASP_U_EVT_WR_ERR u

/-- A word of the push FIFO (R297, R298): 0 while EN = 0 or the FIFO is empty. -/
def raspPush (s : State) (u : Nat) : State × Word :=
  let x := s.unit u
  if s.on R.RASP_U_CTL_EN u then (s.setUnit u { x with push := x.push.tail }, x.push.headD 0) else (s, 0)

/-- RASP_u_STAT as read. -/
def raspStat (s : State) (u : Nat) : Nat :=
  let x := s.unit u
  let act := x.stalled.elim 0 fun e => bits e.toNat 5 3
  x.state + 2 ^ 5 * bit01 x.run + 2 ^ 6 * bit01 (act == 3) + 2 ^ 7 * bit01 (act == 4) + 2 ^ 8 * bit01 x.inj.isSome
    + 2 ^ 9 * bit01 x.flip + 2 ^ 10 * x.sc + 2 ^ 16 * min 8 x.pull.length + 2 ^ 20 * x.push.length

/-- STAT of an engine's Rasp window (R298). -/
def raspWinStat (s : State) (u : Nat) : Nat :=
  let x := s.unit u
  (8 - x.pull.length) + 2 ^ 4 * x.push.length + 2 ^ 8 * x.state + 2 ^ 13 * bit01 x.stalled.isSome

/-- RASP_EVT as read: the units with an enabled event. -/
def raspEvt (s : State) : Nat :=
  (numsWhere 16 fun u => s.evtOn R.RASP_U_EVT R.RASP_U_EVT_EN u).foldl (fun a u => a + 2 ^ u) 0

/-- Whether engine `e` owns a unit (R298). -/
def raspOwned (s : State) (e u : Nat) : Bool := s.on R.RASP_U_CTL_OWNER_EN u && s.get R.RASP_U_CTL_OWNER_LE u == e

/-- Whether a requester may write the pull FIFO, read the push FIFO and write INJ (R298). -/
def raspMay (s : State) (r : Requester) (u : Nat) : Bool :=
  isAtl r || (!s.on R.RASP_U_CTL_OWNER_EN u && r == .dma)

/-- An access to a unit's FIFOs or INJ that R298 does not give the requester is ignored; a DMA queue's ends with a bus error (R350). -/
def raspDeny (s : State) (r : Requester) : State := if r = .dma then s.busError else s

/-- An instant of a generator at the Rasp units (R288, R293). -/
def raspInstant (s : State) (g : Nat) : State :=
  let s := if s.on R.RASP_START_STAT_PEND && s.on R.RASP_START_IG_EN && s.get R.RASP_START_IG = g then
      { s with rasp := { s.rasp with due := s.rasp.due.or (some s.time.frc.toNat) } } else s
  (numsWhere 16 fun u => s.on R.RASP_U_CFG_SNAP_EN u && s.get R.RASP_U_CFG_SNAP_IG u == g).foldl
    (fun s u => s.setUnit u { s.unit u with snap := true }) s

end Sys2Proof.Machine
end

