-- ==== Sys2Proof/Machine/DmaOps.lean ====
section
/-! DEFINITION. The DMA engine's registers (spec/14): starts and triggers, disabling and resuming a queue, the record queue, the
engine window's places, and the arbiter. -/
namespace Sys2Proof.Machine

/-- Queue DQ`q`. -/
def State.dq (s : State) (q : Nat) : DqSt := tabGet {} s.dma.q q

/-- Replace a queue. -/
def State.setDq (s : State) (q : Nat) (x : DqSt) : State := { s with dma := { s.dma with q := tabSet {} s.dma.q q x } }

/-- A start lost (R351): counted, with the event. -/
def trigMiss (s : State) (q : Nat) : State := (s.addSat R.DQ_TRIG_MISS_V 1 q).raise R.DQ_EVT_TRIG_MISS q

/-- A space code of a descriptor: 0 fabric, 1 host, 2 peripheral. -/
def srcSp (x : DqSt) : Nat := bits x.ctl 2 2
def dstSp (x : DqSt) : Nat := bits x.ctl 4 2

/-- The PCIe tags that a burst of a descriptor takes (R354): one for each of its reads of host memory. -/
def burstTags (x : DqSt) : Nat :=
  bit01 (srcSp x == 1 && bits x.ctl 0 2 != 1) + bit01 (dstSp x == 1 && bits x.ctl 0 2 == 2)

/-- The requests to host memory that DMA has outstanding (R301, R354): descriptor reads that have begun, and those of the bursts in flight. -/
def tagsUsed (s : State) : Nat :=
  (numsWhere 64 fun q => decide ((s.dq q).phase ≠ 0)).foldl (fun a q =>
    let x := s.dq q
    a + bit01 (x.phase == 1 && !x.wait && s.on R.DQ_CTL_RING_SP q) + (if x.phase = 2 then burstTags x * x.bursts.length else 0)) 0

/-- Whether a queue's descriptor read can begin (R354): a host ring's takes a free tag. -/
def tagFor (s : State) (q : Nat) : Bool := !s.on R.DQ_CTL_RING_SP q || decide (tagsUsed s < 256)

/-- A queue begins to read the descriptor at HEAD (R346), or waits for a tag for it (R354): STATE ACTIVE. -/
def dqRead (s : State) (q : Nat) : State :=
  ((s.setDq q { s.dq q with phase := 1, asked := s.now, wait := !tagFor s q }).put R.DQ_STAT_STATE 2 q).clr R.DQ_STAT_IDLE q

/-- A queue would become IDLE (R346, R351): a pending start makes it read again. -/
def dqIdle (s : State) (q : Nat) : State :=
  if s.on R.DQ_STAT_TRIG_PEND q then dqRead (s.clr R.DQ_STAT_TRIG_PEND q) q
  else ((s.setDq q { s.dq q with phase := 0 }).put R.DQ_STAT_STATE 1 q).raise R.DQ_STAT_IDLE q

/-- A start of a queue (R351). -/
def dqStart (s : State) (q : Nat) : State :=
  if !s.on R.DQ_CTL_EN q || s.get R.DQ_STAT_STATE q = 3 then trigMiss s q
  else if (s.dq q).phase = 0 then dqRead s q
  else if s.on R.DQ_STAT_TRIG_PEND q then trigMiss s q
  else s.raise R.DQ_STAT_TRIG_PEND q

/-- The queues whose trigger is number `idx` of a source: 1 an instant, 2 a queue, 3 a group (R351). -/
def dqTriggered (s : State) (src idx : Nat) : List Nat :=
  numsWhere 64 fun q => s.get R.DQ_TRIG_SRC q == src && s.get R.DQ_TRIG_INDEX q == idx

/-- QUEUE_TRIGGER (R351). -/
def dqTrigger (s : State) (src idx : Nat) : State := (dqTriggered s src idx).foldl dqStart s

/-- Whether a value of DQn_OWN would give an engine a fifth queue (R361). -/
def ownsMore (s : State) (q v : Nat) : Bool :=
  v.testBit 6 && decide (4 ≤ (numsWhere 64 fun p => p != q && s.on R.DQ_OWN_EN p && s.get R.DQ_OWN_LE p == bits v 0 6).length)

/-- The queues that an engine owns, in ascending order: four places at most (R361). -/
def dqOwned (s : State) (e : Nat) : List Nat :=
  (numsWhere 64 fun q => s.on R.DQ_OWN_EN q && s.get R.DQ_OWN_LE q == e).take 4

/-- The size of a queue's ring or record queue, held within 1 to 4,096 (R346, R356). -/
def clamp4096 (n : Nat) : Nat := max 1 (min 4096 n)

/-- Whether the record queue is full (R357). -/
def rqFull (s : State) (q : Nat) : Bool :=
  (s.rd R.DQ_RQ_HEAD q + 1) % clamp4096 (s.rd R.DQ_RQ_SIZE q) == s.rd R.DQ_RQ_TAIL q

/-- A write of DQn_RQ_TAIL (R357): room in the record queue ends RQ_WAIT. -/
def rqTailWrite (s : State) (q v : Nat) : State :=
  let s := s.put R.DQ_RQ_TAIL_V v q
  if s.get R.DQ_STAT_STATE q = 4 && !rqFull s q then s.put R.DQ_STAT_STATE 2 q else s

/-- DMA_EVT_SUM`k` as read: queues with an enabled event. -/
def dmaEvtSum (s : State) (k : Nat) : Nat :=
  (numsWhere 32 fun b => s.evtOn R.DQ_EVT R.DQ_EVT_EN (32 * k + b)).foldl (fun a b => a + 2 ^ b) 0

/-- STAT of an engine's DMA window (R361). -/
def dqWinStat (s : State) (q : Nat) : Nat :=
  s.get R.DQ_STAT_STATE q + 2 ^ 3 * s.get R.DQ_STAT_IDLE q + 2 ^ 4 * s.get R.DQ_HEAD_V q + 2 ^ 16 * s.get R.DQ_STAT_LAST q

/-- The burst size of a queue in bytes. -/
def burstSize (s : State) (q : Nat) : Nat := 64 * 2 ^ s.get R.DQ_CTL_BURST q

/-- The level that the peripheral end of a descriptor signals, in bytes (R359), of two the smaller; `none` for a descriptor with no
such end. A Rasp unit that has an owner ends the access with a bus error, so it holds nothing back; a frame that another queue takes is
not there for this one. -/
def periphLevel (s : State) (q : Nat) (x : DqSt) : Option Nat :=
  let rasp := fun u (n : Nat) => if s.on R.RASP_U_CTL_OWNER_EN u then 32 else 4 * n
  let sc := x.src % 256
  let dc := x.dst % 256
  let src := if sc = 0x20 then if s.dma.hrxBy.any (· != q) then 0 else s.dma.hrx.length else rasp (sc % 16) (s.unit (sc % 16)).push.length
  let dst := if dc = 0x21 then x.len else rasp (dc % 16) (8 - (s.unit (dc % 16)).pull.length)
  if bits x.ctl 0 2 != 0 then none
  else if srcSp x = 2 then some (if dstSp x = 2 then min src dst else src)
  else if dstSp x = 2 then some dst
  else none

/-- The next burst of a queue (R352, R359): to the next boundary of the burst size in a destination that is memory, no more than remains,
and no more than a peripheral's level. A Rasp unit gives whole words, of which one may lie across a boundary that is not a word's.
DEDUCED (log 122) -/
def nextBurst (s : State) (q : Nat) : Burst :=
  let x := s.dq q
  let size := burstSize s q
  let left := x.len - x.issued
  let cut := if dstSp x = 2 && bits x.ctl 0 2 = 0 then size else size - (x.dst + x.issued) % size
  match periphLevel s q x with
  | some l =>
    let cut := if srcSp x = 2 && x.src % 256 != 0x20 then max 4 (cut / 4 * 4) else cut
    ⟨x.issued, min (min cut left) l, s.now⟩
  | none => ⟨x.issued, min cut left, s.now⟩

/-- Whether a queue is ready to issue a burst (R352, R353, R359). A peripheral's words come one burst at a time. -/
def dqReady (s : State) (q : Nat) : Bool :=
  let x := s.dq q
  s.on R.DMA_CTL_EN && s.on R.DQ_CTL_EN q && x.phase == 2 && x.result.isNone && !x.held && x.issued < x.len
    && x.bursts.length ≤ s.get R.DQ_CTL_MAXOUT q
    && (match periphLevel s q x with
      | some l => l != 0 && x.bursts.isEmpty
      | none => true)

/-- The ready queues of a level. -/
def readyAt (s : State) (lvl : Nat) : List Nat := numsWhere 64 fun q => s.get R.DQ_CTL_PRIO q == lvl && dqReady s q

/-- The queue that round-robin takes from a list: the first after the one last granted at that level, else the first. -/
def roundRobin (last : Nat) (l : List Nat) : Option Nat := (l.find? fun q => last ≤ q).orElse fun _ => l.head?

/-- Whether a descriptor takes a frame from HDMA (R359). -/
def fromHdma (x : DqSt) : Bool := bits x.ctl 0 2 == 0 && srcSp x == 2 && x.src % 256 == 0x20

/-- A queue issues its next burst; its first of a frame from HDMA makes the frame its own. -/
def issueBurst (s : State) (q : Nat) : State :=
  let x := s.dq q
  let b := nextBurst s q
  let s := (s.setDq q { x with issued := x.issued + b.len, bursts := x.bursts ++ [b], held := false }).addSat R.DMA_STAT_INFLIGHT 1
  if fromHdma x then { s with dma := { s.dma with hrxBy := some q } } else s

/-- A descriptor has nothing in flight and is to be returned; what is left of its frames from and to HDMA is lost (R359). -/
def descStop (s : State) (q : Nat) : State :=
  let s := s.setDq q { s.dq q with phase := 3 }
  let mine := s.dma.hrxBy == some q
  { s with dma := { s.dma with
    htx := tabSet [] s.dma.htx q []
    hrx := if mine then [] else s.dma.hrx
    hrxBy := if mine then none else s.dma.hrxBy } }

/-- Whether a queue that is granted can issue its burst now (R354): fewer than 256 bursts are in flight, and tags are free for it. -/
def canIssue (s : State) (q : Nat) : Bool :=
  s.get R.DMA_STAT_INFLIGHT != 256 && decide (tagsUsed s + burstTags (s.dq q) ≤ 256)

/-- The queues that ask at the DMA arbiter, arbiter 1. -/
def dmaAsking (s : State) : List Nat := numsWhere 64 (dqReady s)

/-- A grant to a queue of a level (R32, R353, R354): a queue that cannot issue yet holds it. -/
def grantQueue (s : State) (lvl q : Nat) : State :=
  let s := arbRound s 1 (dmaAsking s) q
  let s := { s with dma := { s.dma with
    last := tabSet 0 s.dma.last lvl (q + 1), since0 := if lvl = 0 then 0 else s.dma.since0 + 1 } }
  if canIssue s q then issueBurst s q else s.setDq q { s.dq q with held := true }

/-- Whether the round is reserved for level 0 (R31, R353). -/
def agingRound (s : State) : Bool := 15 ≤ s.dma.since0 && !(readyAt s 0).isEmpty

/-- The grant of a round to the highest level that has a ready queue (R353). -/
def grantRound (s : State) : State :=
  match [3, 2, 1, 0].find? fun l => !(readyAt s l).isEmpty with
  | none => s
  | some l =>
    match roundRobin (tabGet 0 s.dma.last l) (readyAt s l) with
    | none => s
    | some q => grantQueue s l q

/-- A starvation grant of the DMA arbiter (R32, R33, R353): not in a round reserved for level 0. -/
def dmaStarved (s : State) : State :=
  if agingRound s then s
  else match starved s 1 (dmaAsking s) with
    | some q => grantQueue s (s.get R.DQ_CTL_PRIO q) q
    | none => s

/-- BURST_GRANT (R353): a round that is not reserved; a starving queue goes ahead of priority (R33). -/
def burstGrant (s : State) : State :=
  if agingRound s then s
  else if (starved s 1 (dmaAsking s)).isSome then dmaStarved s
  else grantRound s

/-- DMA_AGING_GRANT (R31, R353): a round reserved for level 0. -/
def agingGrant (s : State) : State :=
  if agingRound s then
    match roundRobin (tabGet 0 s.dma.last 0) (readyAt s 0) with
    | none => s
    | some q => grantQueue s 0 q
  else s

/-- STARVATION_GRANT (R32, R33). Arbiter 0 is the store's write port and arbiter 1 the DMA arbiter. Of another arbiter the model holds
the counters and the shares: a round at which the requesters `asking` ask grants whom R33 puts ahead, else `first`, which priority
would grant. -/
def arbGrant (s : State) (arb : Nat) (asking : List Nat) (first : Nat) : State :=
  match arb with
  | 0 => portAhead s
  | 1 => dmaStarved s
  | _ => arbRound s arb asking ((arbAhead s arb asking).getD first)

/-- A queue that holds a grant or waits for a tag goes on, if it can (R354); one whose peripheral has nothing any more gives its grant
back. DESIGN CHOICE (log 123) -/
def dqGoesOn (s : State) (q : Nat) : State :=
  let x := s.dq q
  if x.held then
    if periphLevel s q x == some 0 then
      let s := s.setDq q { x with held := false }
      if x.result.isSome && x.bursts.isEmpty then descStop s q else s
    else if canIssue s q then issueBurst s q else s
  else if x.wait && tagFor s q then s.setDq q { x with wait := false, asked := s.now }
  else s

/-- A burst or a tag is free (R354): queues that wait for one go on, as many as can. Which one does first is not given: the
lowest number. DESIGN CHOICE -/
def tagFreed (s : State) : State := (numsWhere 64 fun q => (s.dq q).held || (s.dq q).wait).foldl dqGoesOn s

/-- A burst leaves flight (R354). -/
def burstLeaves (s : State) : State := tagFreed (s.put R.DMA_STAT_INFLIGHT (s.get R.DMA_STAT_INFLIGHT - 1))

/-- A write of DQn_CTL (R350, R358, R360): a cleared EN aborts the descriptor in progress, whose granted bursts complete; EN taken up
again and RESUME release a HALTED queue. -/
def dqCtlWrite (s : State) (q v : Nat) : State :=
  let was := s.on R.DQ_CTL_EN q
  let s := s.wr R.DQ_CTL (v % 2 ^ 15 - bits v 7 1 * 2 ^ 7) q
  let x := s.dq q
  if !v.testBit 0 then
    let s := (s.put R.DQ_STAT_STATE 0 q).clr R.DQ_STAT_TRIG_PEND q
    if !was || x.phase = 0 then s
    else if x.phase = 1 then tagFreed ((s.setDq q { x with phase := 0, held := false, wait := false }).raise R.DQ_STAT_IDLE q)
    else
      let s := s.setDq q { x with result := some 3 }
      if x.bursts.isEmpty && !x.held then descStop s q else s
  else if !was then s.put R.DQ_STAT_STATE (if x.phase = 0 then 1 else 2) q
  else if v.testBit 7 && s.get R.DQ_STAT_STATE q = 3 then dqRead s q
  else s

end Sys2Proof.Machine
end

