-- ==== Sys2Proof/Machine/HostOps.lean ====
section
/-! DEFINITION. The host interface's registers (spec/12): mailboxes, doorbells, the channel table's registers, the PCIe link
and its interrupts. -/
namespace Sys2Proof.Machine

/-- A write of HMBn_DATA (R311, R312): accepted while FULL = 0, else rejected. -/
def hmbWrite (s : State) (r : Requester) (n v : Nat) : State :=
  if s.on R.HMB_STAT_FULL n then
    match r with
    | .host => (s.raise R.HMB_STAT_REJECTED n).addSat R.HMB_REJ_V 1 n
    | _ => s.busError
  else
    let s := (((s.wr R.HMB_DATA v n).raise R.HMB_STAT_FULL n).clr R.HMB_STAT_ACKV n).addWrap R.HMB_STAT_SEQ 1 n
    { s with cmd := { s.cmd with order := s.cmd.order ++ [n], since := tabSet 0 s.cmd.since n s.now } }

/-- A write of HMBn_ACK by Atelier (R311): the command, if one was in progress, is at its end. -/
def hmbAckWrite (s : State) (n v : Nat) : State :=
  let s := hmbAck s n v
  { s with cmd := { s.cmd with
    order := s.cmd.order.filter fun k => k != n
    jobs := tabSet .none s.cmd.jobs n .none
    ring := tabSet 0 s.cmd.ring n 0 } }

/-- A write of AMBn_ACK by the host (R314). -/
def ambAck (s : State) (n v : Nat) : State := ((s.wr R.AMB_ACK v n).clr R.AMB_STAT_FULL n).raise R.AMB_STAT_ACKV n

/-- Give both views of a doorbell register its bits (R316). -/
def hdbPut (s : State) (x : Nat) : State := (s.wr R.HDB_SET x).wr R.HDB_CLR x

/-- A write of HDB_SET (R316). -/
def hdbSet (s : State) (v : Nat) : State := hdbPut s (s.rd R.HDB_SET ||| v)

/-- A write of HDB_CLR (R316). -/
def hdbClr (s : State) (v : Nat) : State := hdbPut s (s.rd R.HDB_SET - (s.rd R.HDB_SET &&& v))

/-- A write of ADB_CLR (R316). -/
def adbClr (s : State) (v : Nat) : State :=
  let x := s.rd R.ADB_SET - (s.rd R.ADB_SET &&& v)
  (s.wr R.ADB_SET x).wr R.ADB_CLR x

/-- A requester whose write takes the host's side of a mailbox: the host, here or on another device, and a DMA queue that
writes on its behalf (R312). -/
def hostSide (r : Requester) : Bool := isHost r || r == .dma

/-- Whether HIF_CHT_BASE and HIF_CHT_N take a write (R318). -/
def chtOpen (s : State) : Bool := !s.on R.HIF_CHT_CTL_EN

/-- What a write of HIF_CHT_CTL takes (R318): while EN = 1 only EN, which must stay writable. DEDUCED -/
def chtCtl (s : State) (v : Nat) : Nat :=
  if chtOpen s then v else s.rd R.HIF_CHT_CTL / 2 * 2 + v % 2

/-- The endpoint's own state after a reset of it (R306): its link and its configuration space. PRESUMED: MSI-X's table and
pending bits are part of the function that the PCIe rules reset. -/
def endpointReset (s : State) : State :=
  let s := (((s.clr R.HIF_STAT_LINK_UP).put R.HIF_STAT_SPEED 0).put R.HIF_STAT_WIDTH 0).clr R.HIF_STAT_BME
  let s := (List.range 64).foldl (fun s n =>
    [R.MSIX_ADDR_LO, R.MSIX_ADDR_HI, R.MSIX_DATA, R.MSIX_CTL].foldl (fun s r => s.wr r (r.por n) n) s) s
  let s := (s.wr R.MSIX_PBA 0 0).wr R.MSIX_PBA 0 1
  { s with hif := { s.hif with d3hot := false, msixEn := false, msixFMask := false, bar0 := 0, bar2 := 0 } }

/-- HOT_RESET (R306). -/
def hotReset (s : State) : State := if s.on R.HIF_STAT_IF then s else (endpointReset s).raise R.HIF_EVT_HOT_RST

/-- PCIE_LINK_TRAINED (R301, R302, R304, R306): once the reset is released, the rate code, the width, and what the host's configuration
leaves; then what waited for the host target is presented (R371), and vectors that may be sent by now are. A link that is up trains anew,
which is how the host's later configuration reaches the model. DESIGN CHOICE (log 246) -/
def linkTrained (s : State) (speed width : Nat) (bme : Bool) (c : PciConfig) : State :=
  if s.on R.HIF_STAT_IF || inReset s then s
  else
    let was := asleep s 6
    let s := (((s.raise R.HIF_STAT_LINK_UP).put R.HIF_STAT_SPEED speed).put R.HIF_STAT_WIDTH width).put R.HIF_STAT_BME
      (bit01 bme)
    let s := { s with hif := { s.hif with
      d3hot := c.d3hot, msixEn := c.msix, msixFMask := c.fmask, bar0 := c.bar0 &&& 0xFC000000, bar2 := c.bar2 &&& 0xFFFFFFFFF0000000 } }
    let s := msixFlush s
    if was && !asleep s 6 then presentWaiting s 6 else s

/-- A dword of the endpoint's configuration space (R301, R302): identification, the class code, Bus Master Enable, and the BARs with
their types; 32 bits and 64 MiB, and 64 bits, prefetchable, and 256 MiB. BAR4, BAR5 and the expansion ROM read 0. -/
def pciWord (s : State) (o : Nat) : Nat :=
  match o with
  | 0x00 => 0x1EB4 + 2 ^ 16 * (s.rd R.HIF_PCI_ID % 2 ^ 16)
  | 0x04 => 4 * s.get R.HIF_STAT_BME
  | 0x08 => bits (s.rd R.HIF_PCI_ID) 16 8 + 2 ^ 8 * 0x118000
  | 0x10 => s.hif.bar0.toNat
  | 0x18 => s.hif.bar2.toNat % 2 ^ 32 + 0xC
  | 0x1C => s.hif.bar2.toNat / 2 ^ 32
  | 0x2C => s.rd R.HIF_PCI_SUBID
  | _ => 0

/-- The fabric address that an access to PCIe memory address `a` reaches (R302): in BAR0 0x4000_0000 and the offset, in BAR2 the
offset; none outside the two windows. -/
def barFabric (s : State) (a : Nat) : Option Nat :=
  let b0 := s.hif.bar0.toNat
  let b2 := s.hif.bar2.toNat
  if b0 ≤ a && a < b0 + 2 ^ 26 then some (0x40000000 + (a - b0))
  else if b2 ≤ a && a < b2 + 2 ^ 28 then some (a - b2)
  else none

/-- Whether the device may reach host memory (R305): over PCIe, with Bus Master Enable. -/
def hostMemUp (s : State) : Bool := !s.on R.HIF_STAT_IF && s.on R.HIF_STAT_LINK_UP && s.on R.HIF_STAT_BME

/-- A write of an MSI-X control word (R304): a vector unmasked while its pending bit is set is sent. -/
def msixCtlWrite (s : State) (vec v : Nat) : State :=
  let s := s.put R.MSIX_CTL_MASK v vec
  if v % 2 = 0 && s.bitAt R.MSIX_PBA (vec % 32) (vec / 32) then msixFree s vec else s

/-- A queue halts (R350). -/
def dqHalt (s : State) (q : Nat) : State :=
  ((s.setDq q { s.dq q with phase := 0 }).put R.DQ_STAT_STATE 3 q).raise R.DQ_STAT_IDLE q

/-! ### Commands in mailboxes (R324, R329, R342) -/

/-- The parts of the command in a mailbox (R324). -/
def hmbOp (s : State) (n : Nat) : Nat := bits (s.rd R.HMB_DATA n) 24 8
def hmbCh (s : State) (n : Nat) : Nat := bits (s.rd R.HMB_DATA n) 12 12
def hmbArg (s : State) (n : Nat) : Nat := bits (s.rd R.HMB_DATA n) 0 12

/-- The opcodes of AF 3.2.0 whose Channel column is "none" (R329). -/
def plainOps : List Nat := [0x00, 0x01, 0x11, 0x29, 0x38, 0x58]

/-- The opcodes that name a channel (R329). -/
def chanOps : List Nat :=
  [0x08, 0x09, 0x0A, 0x10, 0x12, 0x13, 0x18, 0x19, 0x1A, 0x1B, 0x1C, 0x20, 0x21, 0x22, 0x23, 0x24, 0x28, 0x30, 0x40, 0x48,
    0x50, 0x60]

/-- HIF_CPL_TO in ns (R305), held within 1 to 1,000 ms. DESIGN CHOICE -/
def cplLimit (s : State) : Nat := max 1 (min 1000 (s.get R.HIF_CPL_TO_V)) * 1000000

/-- Whether a read asked for at `since` can end as COMPLETION_TIMEOUT says (R305): with an error at any time, else once HIF_CPL_TO is
over. -/
def cplOver (s : State) (ur : Bool) (since : Nat) : Bool := ur || decide (since + cplLimit s ≤ s.now)

/-- A read of host memory failed (R305), with an error (`ur`) or for want of its completion. -/
def cplNote (s : State) (ur : Bool) : State := s.raise (if ur then R.HIF_ERR_CPL_ERR else R.HIF_ERR_CPL_TO)

/-- A read of a DMA queue fails (R305, R350): its descriptor's, or that of its oldest burst in flight. -/
def dqTimeout (s : State) (ur : Bool) (q : Nat) : State :=
  let x := s.dq q
  if x.phase = 1 && !x.wait && s.on R.DQ_CTL_RING_SP q && cplOver s ur x.asked then
    tagFreed (dqHalt ((cplNote s ur).raise R.DQ_STAT_FETCH_ERR q) q)
  else if x.phase = 2 && x.bursts.head?.elim false (fun b => cplOver s ur b.since)
      && ((srcSp x = 1 && bits x.ctl 0 2 != 1) || (dstSp x = 1 && bits x.ctl 0 2 == 2)) then
    let s := burstLeaves ((cplNote s ur).setDq q { x with bursts := x.bursts.tail, result := some (x.result.getD 4) })
    if (s.dq q).bursts.isEmpty && !(s.dq q).held then descStop s q else s
  else s

end Sys2Proof.Machine
end

