-- ==== Sys2Proof/Machine/PwrOps.lean ====
section
/-! DEFINITION. The pace governor's operations (R460 to R465) and the powered device's grant (R283 to R285). -/
namespace Sys2Proof.Machine

/-- The power of a granted class in mW (R284). -/
def classMw (c : Nat) : Nat := [0, 3840, 6490, 13000, 25500, 40000, 51000, 62000, 71300].getD c 0

/-- The highest class that a count of class events allows (R284). -/
def eventClass (n : Nat) : Nat := if n = 0 then 0 else if n = 1 then 3 else if n ≤ 3 then 4 else if n = 4 then 6 else 8

/-- Recompute PWR_CAP (R465): rounded down, and 0 where OTHER takes all of it. -/
def capUpdate (s : State) : State :=
  s.put R.PWR_CAP_V (classMw (s.get R.PWR_PD_STAT_GRANT) * s.get R.PWR_BUDGET_EFF / 256 - s.get R.PWR_BUDGET_OTHER * 10)

/-- Whether BUDGET acts (R465): PDGOOD, and the board does not run from the auxiliary supply alone (R285). -/
def budgetLive (s : State) : Bool :=
  s.on R.PWR_PD_STAT_PDGOOD && !(s.on R.PWR_PD_CTL_SIG_OFF_AUX && s.on R.PWR_PD_STAT_AUX)

/-- The mode in effect (R464, R465). -/
def effMode (s : State) : Nat :=
  match s.get R.PWR_CTL_MODE with
  | 1 => if s.on R.PWR_STAT_AVS then 1 else 0
  | 2 => if s.on R.PWR_STAT_AVS then 2 else 0
  | 3 => if budgetLive s then 3 else 0
  | _ => 0

/-- Show the governor's registers: CAPPED while BUDGET holds the request below 0.80 V. -/
def pwrShow (s : State) : State :=
  let v := s.get R.PWR_VREQ_VREQ
  let was := s.on R.PWR_STAT_CAPPED
  let capped := effMode s == 3 && s.on R.PWR_STAT_AVS && s.pwr.target < 800 && v < 800
  let s := ((s.put R.PWR_STAT_EFF_MODE (effMode s)).put R.PWR_STAT_SLEWING (bit01 (v != s.pwr.target))).put
    R.PWR_STAT_CAPPED (bit01 capped)
  if capped && !was then s.raise R.PWR_EVT_CAPPED else s

/-- Give the request a target, of the mode in effect where `t` is none (R461, R462). -/
def pwrAim (s : State) (t : Option Nat) : State :=
  let d := if effMode s = 1 then 880 else if effMode s = 2 then min 800 (max 720 (s.get R.PWR_VREQ_VREQ)) else 800
  pwrShow { s with pwr := { s.pwr with target := if s.on R.PWR_STAT_AVS then t.getD d else 800 } }

/-- What follows for the request where `t` comes after `s` (R461, R464, R465): a mode that comes into effect gives it a target;
a mode that stays in effect goes on from where it is. -/
def pwrFollow (s t : State) : State := if effMode t = effMode s then pwrShow t else pwrAim t none

/-- A write of PWR_CTL (R461). -/
def pwrCtlWrite (s : State) (v : Nat) : State := pwrFollow s (s.put R.PWR_CTL_MODE v)

/-- The AVSBus voltage read-back (R460; spec/21, "Registers"): the regulator's measurement, a free value, and 0 with
AVS_MODE = 0. -/
def voltsRead (s : State) : State :=
  if s.on R.PWR_STAT_AVS then
    let d := s.draw 16
    d.2.put R.PWR_VREQ_VMEAS d.1.toNat
  else s

/-- VCORE_SLEW (R462, R463): a command to the regulator succeeds and moves the request by at most 5 mV, 10 µs after the
last move; where the request has arrived, it is the repeated command that succeeds and ends a hold. -/
def vcoreSlew (s : State) : State :=
  let v := s.get R.PWR_VREQ_VREQ
  let t := s.pwr.target
  if v != t && s.pwr.movedAt + 10000 ≤ s.now then
    let s := s.put R.PWR_VREQ_VREQ (if v < t then min t (v + 5) else max t (v - 5))
    pwrShow { s with pwr := { s.pwr with movedAt := s.now, hold := false } }
  else if v = t then { s with pwr := { s.pwr with hold := false } }
  else s

/-- ECO_STEP (R461): every 10 ms, by the smallest CE_SLACK_LAST of the running engines. -/
def ecoStep (s : State) : State :=
  if effMode s = 2 && !s.pwr.hold && s.pwr.stepAt + 10000000 ≤ s.now then
    let run := numsWhere 48 fun e => let t := s.get R.CE_STAT_STATE e; 1 ≤ t && t ≤ 4
    let v := s.get R.PWR_VREQ_VREQ
    let slack := run.all fun e => decide ((s.get R.PWR_ECO_V : Int) < s.gets R.CE_SLACK_LAST_V e)
    let t := if slack && !run.isEmpty then max 720 (v - 5) else min 800 (v + 5)
    vcoreSlew (pwrAim { s with pwr := { s.pwr with stepAt := s.now } } (some t))
  else s

/-- BUDGET_STEP (R461, R463 to R465): a reading of the device's power, which is an AVSBus command that succeeded, against PWR_CAP. -/
def budgetStep (s : State) (mw : Nat) : State :=
  let s := { s.put R.PWR_POWER_V mw with pwr := { s.pwr with hold := false } }
  let cap := s.get R.PWR_CAP_V
  let p := s.get R.PWR_POWER_V
  let v := s.get R.PWR_VREQ_VREQ
  if effMode s != 3 then s
  else if !s.on R.PWR_STAT_AVS then if cap < p then s.raise R.PWR_EVT_OVER_BUDGET else s
  else if cap < p then
    if s.pwr.stepAt + 1000000 ≤ s.now && 720 < v then
      vcoreSlew (pwrAim { s with pwr := { s.pwr with stepAt := s.now } } (some (max 720 (min s.pwr.target (v - 5)))))
    else s
  else if p * 100 ≤ cap * 95 && v < 800 && s.pwr.stepAt + 10000000 ≤ s.now then
    vcoreSlew (pwrAim { s with pwr := { s.pwr with stepAt := s.now } } (some (min 800 (v + 5))))
  else s

/-- AVS_FAILURE (R463): the third failure in a row of a command; the request stays where it is. -/
def avsFailure (s : State) : State :=
  if s.on R.PWR_STAT_AVS then
    let s := (s.raise R.PWR_EVT_AVS_ERR).addSat R.PWR_AVS_ERRS_V 1
    { s with pwr := { s.pwr with hold := true } }
  else s

/-- A write of PWR_BUDGET (R465). -/
def budgetWrite (s : State) (v : Nat) : State := capUpdate (s.regWrite R.PWR_BUDGET v)

/-- The grant, its events and what follows from it (R284, R465). -/
def pdGrant (s : State) (events : Nat) : State :=
  let s := s.put R.PWR_PD_STAT_EVENTS (min 7 events)
  let g := min (s.get R.PWR_PD_STAT_REQ) (eventClass events)
  pwrFollow s (capUpdate ((s.put R.PWR_PD_STAT_GRANT g).raise R.FX_EVT_PD_CHG))

/-- Whether the front end presents an invalid signature (R285), so that no supply classifies or powers it. -/
def pdInvalid (s : State) : Bool := s.on R.PWR_PD_CTL_SIG_OFF_AUX && s.on R.PWR_PD_STAT_AUX

/-- PD_CLASSIFICATION (R283 to R285): one more class event. -/
def pdClassify (s : State) : State := if pdInvalid s then s else pdGrant s (s.get R.PWR_PD_STAT_EVENTS + 1)

/-- PD_POWER_GOOD (R283, R285): FET_PD is fully on; the PD input reads `vin` units of 10 mV. -/
def pdGood (s : State) (vin : Nat) : State :=
  if pdInvalid s then s else pwrFollow s (((s.raise R.PWR_PD_STAT_PDGOOD).put R.PWR_PD_VIN_V vin).raise R.FX_EVT_PD_CHG)

/-- PD_POWER_LOSS (R283): the input is lost, and with it the classification. -/
def pdLoss (s : State) : State := pwrFollow s (pdGrant ((s.clr R.PWR_PD_STAT_PDGOOD).put R.PWR_PD_VIN_V 0) 0)

/-- AUX_SENSE (R285). -/
def auxSense (s : State) (on_ : Bool) : State :=
  pwrFollow s ((s.put R.PWR_PD_STAT_AUX (bit01 on_)).raise R.FX_EVT_PD_CHG)

end Sys2Proof.Machine
end

