-- ==== Sys2Proof/Machine/Alloc.lean ====
section
/-! DEFINITION. Atelier's allocation of engines, generators, groups and items to instances (R134, R140) and to the field service
(R277, R278), and the checks of an item definition (R39). -/
namespace Sys2Proof.Machine

/-- Pack slot `k`. -/
def State.slot (s : State) (k : Nat) : PackSlot := tabGet {} s.packs.slots k

/-- Replace a pack slot. -/
def State.setSlot (s : State) (k : Nat) (x : PackSlot) : State :=
  { s with packs := { s.packs with slots := tabSet {} s.packs.slots k x } }

/-- The instances that satisfy a test, by number; the spec gives their number 8 bits (R158). -/
def instWhere (s : State) (p : Inst → Bool) : List Nat :=
  (s.packs.insts.filter fun x => x.2.used && p x.2).map (·.1)

/-- The instance that holds an engine. -/
def instOfEngine (s : State) (e : Nat) : Option Nat := (instWhere s fun x => x.engines.contains e).head?

/-- The instance that owns a group, running or stopped (R140). -/
def instOfGroup (s : State) (g : Nat) : Option Nat := (instWhere s fun x => x.groups.contains g).head?

/-- The instance that owns an item. -/
def instOfItem (s : State) (h : Nat) : Option Nat := (instWhere s fun x => x.first ≤ h && h < x.first + x.n).head?

/-- The running instance that binds a port. -/
def instOfPort (s : State) (p : Nat) : Option Nat := (instWhere s fun x => x.st != 0 && x.ports.testBit p).head?

/-- The instance that holds a generator. -/
def instOfIg (s : State) (n : Nat) : Option Nat := (instWhere s fun x => x.igs.contains n).head?

/-- The state of an instance by its nodes (R158, R159): `conf` are configured (0: no node limit) and `up` exchange data. With none
an instance is STARTING; a change is notified (R345). DEDUCED -/
def instNodes (s : State) (i conf up : Nat) : State :=
  let x := s.inst i
  if x.used && 1 ≤ x.st && x.st ≤ 3 then
    let st := if up = 0 then 1 else if up < conf then 3 else 2
    let ws := tabSet 0 x.words 8 (w32 (conf % 65536 + up % 65536 * 65536))
    let ws := if st = 1 && x.st != 1 then tabSet 0 ws 15 (tabGet 0 ws 15 + 1) else ws
    let s := s.setInst i { x with st := st, words := ws }
    if st = x.st then s else notify s 1 i st
  else s

/-- Whether the field service holds an engine or a generator. -/
def svcEngine (s : State) (e : Nat) : Bool := s.field.svc.elim false fun x => x.1 == e
def svcIg (s : State) (n : Nat) : Bool := s.field.svc.elim false fun x => x.2.1 == n

/-- Whether a logical engine is free: HALTED, and held by no instance and not by the field service (R134). -/
def engineFree (s : State) (e : Nat) : Bool :=
  s.get R.CE_STAT_STATE e == 0 && (instOfEngine s e).isNone && !svcEngine s e

/-- The lowest `n` free engines, as one consecutive block where it must be (R134). -/
def freeEngines (s : State) (n : Nat) (block : Bool) : Option (List Nat) :=
  if block then
    ((List.range (49 - n)).find? fun a => (List.range n).all fun k => engineFree s (a + k)).map fun a =>
      (List.range n).map (a + ·)
  else
    let l := (numsWhere 48 (engineFree s)).take n
    if l.length = n then some l else none

/-- The lowest `n` free generators among those without a SYNC pin (R134). -/
def freeIgs (s : State) (n : Nat) : Option (List Nat) :=
  let l := (numsWhere 32 fun g => 4 ≤ g && (instOfIg s g).isNone && !svcIg s g && !s.on R.TB_IG_CTL_EN g
    && s.farGates.all fun p => p.2.all fun x => x.ig != g).take n
  if l.length = n then some l else none

/-- The number of items of a group. -/
def cgItems (s : State) (g : Nat) : Nat := (s.store.items.filter fun p => itValid p.2 && itCg p.2 == g).length

/-- A group that nothing uses: not CG0, not enabled, owned by no instance, without items (R134, R334). -/
def groupFree (s : State) (g : Nat) : Bool :=
  g != 0 && !s.on R.SS_CG_CTL_EN g && (instOfGroup s g).isNone && cgItems s g == 0

/-- The lowest `n` free groups (R134). -/
def freeGroups (s : State) (n : Nat) : Option (List Nat) :=
  let l := (numsWhere 256 (groupFree s)).take n
  if l.length = n then some l else none

/-- The first start of a run of `n` numbers from `from_` on that no key of a rising list falls in. -/
def gapFrom (n from_ : Nat) : List Nat → Nat
  | [] => from_
  | k :: t => if from_ + n ≤ k then from_ else gapFrom n (max from_ (k + 1)) t

/-- The lowest run of `n` free handles (R134). -/
def freeHandles (s : State) (n : Nat) : Option Nat :=
  let h := gapFrom n 0 ((s.store.items.filter fun p => itValid p.2).map (·.1))
  if h + n ≤ 262144 then some h else none

/-- Whether a run of signals meets an item other than `h` (R39). -/
def overlaps (s : State) (h off w : Nat) : Bool :=
  s.store.items.any fun p => itValid p.2 && p.1 != h && itOffset p.2 < off + w && off < itOffset p.2 + itWidth p.2

/-- The lowest place in an image for a run of `w` signals. -/
def freeOffset (s : State) (w : Nat) : Option Nat :=
  let cands := 0 :: (s.store.items.filter fun p => itValid p.2).map fun p => itOffset p.2 + itWidth p.2
  let ok := cands.filter fun o => o + w ≤ 5242880 && !overlaps s 262144 o w
  ok.foldl (fun b o => some (b.elim o (min o))) none

/-- An item-map entry (R38). -/
def itemEntry (off w cg cast : Nat) (live dir hostW multiW : Bool) (pol : Nat) : BitVec 64 :=
  BitVec.ofNat 64 (off % 2 ^ 23 + 2 ^ 23 * (w - 1) + 2 ^ 33 * cg + 2 ^ 41 * cast + 2 ^ 57 + 2 ^ 58 * bit01 live
    + 2 ^ 59 * bit01 dir + 2 ^ 60 * bit01 hostW + 2 ^ 61 * pol + 2 ^ 63 * bit01 multiW)

/-! ### The cast table (R57, R58) -/

/-- A cast with LAST as its place in the run has it, and VALID. -/
def castEntry (c : BitVec 64) (last : Bool) : BitVec 64 :=
  BitVec.ofNat 64 (setBits (setBits (c.toNat % 2 ^ 56) 50 1 (bit01 last)) 55 1 1)

/-- A run with LAST at its end alone. -/
def closeRun : List (BitVec 64) → List (BitVec 64)
  | [] => []
  | [c] => [castEntry c true]
  | c :: l => castEntry c false :: closeRun l

/-- The runs of all items in ascending order of source handle, that of item `h` replaced by `run`. -/
def runsWith (s : State) (h : Nat) (run : List (BitVec 64)) : List (Nat × List (BitVec 64)) :=
  (s.store.items.filter fun p => itValid p.2).map fun p =>
    (p.1, closeRun (if p.1 = h then run else castRun s p.2))

/-- The places of the runs in the packed table: each item's CAST field. -/
def runStarts : Nat → List (Nat × List (BitVec 64)) → List (Nat × Nat)
  | _, [] => []
  | i, (h, run) :: l => (h, if run.isEmpty then 0xFFFF else i) :: runStarts (i + run.length) l

/-- Replace the run of an item and pack the table (R58): every item's CAST field follows its run. -/
def setRun (s : State) (h : Nat) (run : List (BitVec 64)) : State :=
  let rs := runsWith s h run
  let starts := runStarts 0 rs
  { s with store := { s.store with
    casts := (rs.flatMap (·.2)).zipIdx.map fun p => (p.2, p.1)
    items := s.store.items.map fun p =>
      if itValid p.2 then
        (p.1, BitVec.ofNat 64 (setBits p.2.toNat 41 16 ((starts.find? fun q => q.1 == p.1).elim 0xFFFF (·.2))))
      else p } }

/-- Remove an item with its casts (R58): its entry is no longer valid. -/
def dropItem (s : State) (h : Nat) : State := setItem (setRun s h []) h 0

end Sys2Proof.Machine
end

