-- ==== Sys2Proof/Machine/FieldOps.lean ====
section
/-! DEFINITION. The field channels' operations (spec/10): configuration, switches and commanded states, schedule entries,
diagnostics, supplies, HOLD, edges, and the field service. -/
namespace Sys2Proof.Machine

/-- Channel FX`n`. -/
def State.fx (s : State) (n : Nat) : FxChan := tabGet {} s.field.ch n

/-- Replace a channel. -/
def State.setFx (s : State) (n : Nat) (x : FxChan) : State :=
  { s with field := { s.field with ch := tabSet {} s.field.ch n x } }

/-- The firings due of schedule entry `k` of a channel. -/
def schDue (s : State) (n k : Nat) : List (Nat × Nat) := tabGet [] s.field.due (4 * n + k)

/-- Replace them. -/
def setSchDue (s : State) (n k : Nat) (l : List (Nat × Nat)) : State :=
  { s with field := { s.field with due := tabSet [] s.field.due (4 * n + k) l } }

def fxMode (s : State) (n : Nat) : Nat := s.get R.FX_CH_CFG_MODE n

/-- A channel with a high-side switch: OUTPUT or SUPPLY. -/
def fxSwitched (s : State) (n : Nat) : Bool := fxMode s n == 2 || fxMode s n == 3

/-- The group of a channel: 0 FXA, 1 FXB. -/
def fxGroup (n : Nat) : Nat := n / 16

/-- Whether HOLD is in force (R282). -/
def fxHold (s : State) : Bool := s.on R.FX_STAT_HOLD

/-- The read-back of a switched channel (R258): with RB its input stage reads the output, which follows the switch unless it has been
seen otherwise (R272 to R274). -/
def fxShowBack (s : State) (n : Nat) : State :=
  let b := fxSwitched s n && s.on R.FX_CH_CFG_RB n && (s.fx n).back.getD (s.on R.FX_CH_STAT_ON n)
  s.wr R.FX_CH_STAT (setBits (s.rd R.FX_CH_STAT n) 1 1 (bit01 b)) n

/-- The switch of a channel takes the state that the commanded state, lockout, a thermal trip and HOLD leave it (R264, R266,
R275, R282): in HOLD it may only turn off, and after HOLD_EXPIRED it stays off. Read-back follows the switch. -/
def fxSwitch (s : State) (n : Nat) : State :=
  let was := s.on R.FX_CH_STAT_ON n
  let want := fxSwitched s n && s.on R.FX_CH_STAT_CMD n && !s.on R.FX_GRP_STAT_LOCKOUT (fxGroup n) && !(s.fx n).tripped
  let on_ := want && (!fxHold s || (was && !s.on R.FX_STAT_HOLD_EXPIRED))
  let s := s.put R.FX_CH_STAT_ON (bit01 on_) n
  let x := s.fx n
  let s := if on_ = was then s
    else if on_ then s.setFx n { x with back := none, ons := s.now :: x.ons.filter fun t => s.now ≤ t + 2 ^ 32 }
    else s.setFx n { x with back := none, offAt := s.now }
  fxShowBack s n

/-- All switches of a set of channels. -/
def fxSwitches (s : State) (l : List Nat) : State := l.foldl fxSwitch s

/-- A commanded state (R266): one that turns off releases a latched trip (R264). -/
def fxCommand (s : State) (n : Nat) (on_ : Bool) : State :=
  if fxSwitched s n then
    let s := s.put R.FX_CH_STAT_CMD (bit01 on_) n
    let s := if !on_ && s.on R.FX_CH_CFG_OVL_LATCH n then s.setFx n { s.fx n with tripped := false } else s
    fxSwitch s n
  else s

/-- The number of the field die's present 8 ns tick. -/
def fxTickNo (s : State) : Nat := s.time.frc.toNat / 8

/-- A level that reaches the field die (R266, R269): a schedule entry that has fired on the same tick overrides it, and what is left
of it is the release of a latched trip by a level that turns off (R264). -/
def fxLevelNow (s : State) (n : Nat) (on_ : Bool) : State :=
  if (s.fx n).fired = some (fxTickNo s) then
    if fxSwitched s n && !on_ && s.on R.FX_CH_CFG_OVL_LATCH n then fxSwitch (s.setFx n { s.fx n with tripped := false }) n else s
  else fxCommand s n on_

/-- A level from the field service or from Atelier (R266, R267): held for APPLY_IG with APPLY_EN. -/
def fxLevel (s : State) (n : Nat) (on_ : Bool) : State :=
  if s.on R.FX_CH_CFG_APPLY_EN n then s.setFx n { s.fx n with applied := some on_ } else fxLevelNow s n on_

/-- A diagnostic bit of a channel (R272). -/
def fxDiag (s : State) (n b : Nat) : State :=
  let s := s.wr R.FX_CH_DIAG (s.rd R.FX_CH_DIAG n ||| 2 ^ b) n
  if (s.rd R.FX_CH_DIAG_EN n).testBit b then s.raise R.FX_EVT_DIAG else s

/-- Discard a channel's schedule entries (R271). -/
def fxDiscard (s : State) (n : Nat) : State :=
  (List.range 4).foldl (fun s k => setSchDue (s.put R.FX_CH_SCH_CTL_ARM 0 n k) n k []) s

/-! ### The field service (R277, R278) -/

/-- The service starts: it takes the lowest free engine whose B_EN is 0 and the lowest free generator, 64 handles and 1,056 signals,
where state items and then edge-time items lie in channel order, and CG0. Its generator's period is set by TIME_CFG. DESIGN CHOICE -/
def svcStart (s : State) : State :=
  match (numsWhere 48 fun e => engineFree s e && !s.on R.CE_BIND_B_EN e).head?, freeIgs s 1, freeHandles s 64, freeOffset s 1056 with
  | some e, some [g], some h, some o =>
    let s := { s with field := { s.field with svc := some (e, g, h, o) } }
    let s := (s.put R.CE_STAT_STATE 1 e).setEng e { s.eng e with link := true }
    cgCtlWrite s 0 (1 + 4 * g + 2 ^ 7 + 0xFF * 2 ^ 16)
  | _, _, _, _ => s

/-- The service stops with the last channel: its engine and generator are free again, and the field group is disabled. -/
def svcStop (s : State) : State :=
  match s.field.svc with
  | some (e, _) =>
    let s := (s.put R.CE_STAT_STATE 0 e).setEng e { s.eng e with link := false }
    cgCtlWrite { s with field := { s.field with svc := none } } 0 0
  | none => s

/-- An item of the field group (R278), of `w` signals, at its place in channel order: where something else lies there by now, at the
lowest free handle and signals. -/
def svcItem (s : State) (h o w : Nat) (dir : Bool) : State × Option Nat :=
  let h' := if itValid (s.item h) then freeHandles s 1 else some h
  let o' := if overlaps s 262144 o w then freeOffset s w else some o
  match h', o' with
  | some h, some o => (setItem s h (itemEntry o w 0 0xFFFF false dir false true 0), some h)
  | _, _ => (s, none)

/-- A channel is enabled (R278): its 1-bit state item with MULTIW = 1, and, for an INPUT with EDGE_EN, its 32-bit edge-time item; the
rule does not say which inputs have one. DESIGN CHOICE -/
def svcEnable (s : State) (n : Nat) : State :=
  let s := if s.field.svc.isNone then svcStart s else s
  match s.field.svc with
  | some (_, _, h, o) =>
    let r := svcItem s (h + n) (o + n) 1 (fxSwitched s n)
    let t := if fxMode s n = 1 && s.on R.FX_CH_CFG_EDGE_EN n then svcItem r.1 (h + 32 + n) (o + 32 + 32 * n) 32 false else (r.1, none)
    t.1.setFx n { t.1.fx n with item := r.2, timeItem := t.2, sent := none }
  | none => s

/-- A channel is disabled: its items go. -/
def svcDisable (s : State) (n : Nat) : State :=
  let x := s.fx n
  let s := x.item.elim s (dropItem s)
  let s := x.timeItem.elim s (dropItem s)
  let s := if x.item.isSome || x.timeItem.isSome then s.setFx n { x with item := none, timeItem := none, sent := none } else s
  if (List.range 32).all fun k => fxMode s k == 0 then svcStop s else s

/-- An item write of the service's engine (R40, R278): it goes through slot 0 of the engine, whose ERR tells whether it was
discarded. The rules name no slot. DESIGN CHOICE -/
def svcWrite (s : State) (h : Nat) (data mask : ItemBits) : State :=
  let r := directWrite s h data mask false
  match s.field.svc with
  | some (e, _) =>
    let s := r.1.modEng e fun x => x.setIw 0 { x.iwSlot 0 with err := !r.2 }
    if r.2 then s else s.raise R.SS_EVT_PORT_ERR
  | none => r.1

/-- The service writes an input's state item (R278). -/
def svcInput (s : State) (n : Nat) : State :=
  match (s.fx n).item with
  | some h => svcWrite s h (BitVec.ofNat 1024 (s.rd R.FX_CH_STAT n % 2)) 1
  | none => s

/-- The service writes an input's items at an edge (R278): the state, and the edge time where the channel has an item for it. -/
def svcEdge (s : State) (n : Nat) : State :=
  let s := svcInput s n
  match (s.fx n).timeItem with
  | some h => svcWrite s h (BitVec.ofNat 1024 (s.get R.FX_CH_TS_V n)) (BitVec.ofNat 1024 (2 ^ 32 - 1))
  | none => s

/-- The service reads an output's item and sends a level that has changed, or the first one (R266, R278). -/
def svcOutput (s : State) (n : Nat) : State :=
  match (s.fx n).item with
  | some h =>
    let v := (readView s h).testBit 0
    if fxSwitched s n && (s.fx n).sent != some v then fxLevel (s.setFx n { s.fx n with sent := some v }) n v else s
  | none => s

/-- FIELD_SERVICE_POLL (R278): output items with LIVE = 1. -/
def svcPoll (s : State) : State :=
  if s.field.svc.isSome then
    (numsWhere 32 fun n => (s.fx n).item.elim false fun h => itLive (s.item h)).foldl svcOutput s
  else s

/-- The service's field cycle at a presentation of CG0 (R278): output items are read, input items are written, and DONE
follows. -/
def svcCycle (s : State) : State :=
  match s.field.svc with
  | some (e, _) =>
    let s := (List.range 32).foldl svcOutput s
    let s := (numsWhere 32 fun n => fxMode s n == 1 || fxMode s n == 4).foldl svcInput s
    if h : e < 48 then cgDone s (.engine ⟨e, h⟩) 0 ((s.rd R.SS_CG_SEQ 0 + 1) % 256) else s
  | none => s

/-! ### Channels -/

/-- MODE = OFF (R258, R271): entries discarded, the switch and C/Q off. -/
def fxOff (s : State) (n : Nat) : State :=
  let s := (fxDiscard (s.put R.FX_CH_CFG_MODE 0 n) n).put R.FX_CH_STAT_CMD 0 n
  svcDisable (fxSwitch (s.setFx n { s.fx n with applied := none, due := none, tripped := false, wake := none }) n) n

/-- A write of FX_CHn_CFG (R258, R259, R271): read-back follows RB at once. -/
def fxCfgWrite (s : State) (n v : Nat) : State :=
  let mode := fxMode s n
  let new := bits v 0 3
  let take := fun s : State => fxShowBack (s.regWrite R.FX_CH_CFG v n) n
  let diff := bits v 4 4 != bits (s.rd R.FX_CH_CFG n) 4 4 || bits v 19 2 != s.get R.FX_CH_CFG_COM n
  if new = 0 then if mode = 0 then take s else take (fxOff s n)
  else if mode = 0 then svcEnable ((take s).setFx n { s.fx n with runAt := s.time.frc.toNat }) n
  else if new != mode || diff then fxDiag s n 6
  else take s

/-- CLR_LATCH (R264): it ends the trip of a channel with OVL_LATCH = 1; without, the switch turns on again by itself. -/
def fxClrLatch (s : State) (n : Nat) : State :=
  if s.on R.FX_CH_CFG_OVL_LATCH n then fxSwitch (s.setFx n { s.fx n with tripped := false }) n else s

/-- A write of FX_CHn_CMD (R264, R266). -/
def fxCmdWrite (s : State) (n v : Nat) : State :=
  let s := s.put R.FX_CH_CMD_LEVEL v n
  fxLevel (if v.testBit 1 then fxClrLatch s n else s) n (v.testBit 0)

/-- The domain time at the last 8 ns tick of the field die. -/
def fxTick (s : State) (d : Nat) : Nat := domTime s d - s.time.frc.toNat % 8

/-- Whether the first firing due of an entry has come, and when. -/
def schReady (s : State) (n k : Nat) : Option Nat :=
  match schDue s n k with
  | (d, t) :: _ => if t ≤ fxTick s d then some (fxTick s d - t) else none
  | [] => none

/-- The first firing due of an entry (R268, R282): an on entry that falls in HOLD is dropped. -/
def schDo (s : State) (n k : Nat) : State :=
  let lvl := s.on R.FX_CH_SCH_CTL_LEVEL n k
  let s := setSchDue s n k (schDue s n k).tail
  let s := if s.on R.FX_CH_SCH_CTL_REPEAT n k && s.on R.FX_CH_SCH_CTL_REF n k then s
    else (s.put R.FX_CH_SCH_CTL_ARM 0 n k).put R.FX_CH_SCH_CTL_DONE 1 n k
  if lvl && fxHold s then s.put R.FX_CH_SCH_CTL_DROPPED 1 n k
  else fxCommand (s.setFx n { s.fx n with fired := some (fxTickNo s) }) n lvl

/-- The entry of a channel that fires first of those whose ticks have come: the earliest tick, and of one tick the lowest entry. -/
def schFirst (s : State) (n : Nat) : Option Nat :=
  ((List.range 4).find? fun k => (schReady s n k).any fun late => (List.range 4).all fun j =>
    (schReady s n j).all fun l => l < late || (l == late && k ≤ j))

/-- SCHEDULE_FIRE (R268, R269, R282): an entry whose tick has come, in the order of the ticks, and ascending on one tick. -/
def schFire (s : State) (n k : Nat) : State := if schFirst s n = some k then schDo s n k else s

/-- The time from a domain's view to a target of an entry (R268): one that has passed by less than 2^31 ns has passed, else it lies
ahead. -/
def schAhead (a b : Nat) : Int := if diff32 a b = -(2 ^ 31) then 2 ^ 31 else diff32 a b

/-- The entry after a write of its CTL (R268): arming takes the value held in TIME. A write leaves DONE, LATE and DROPPED, which are
RO, as they are. DEDUCED -/
def schTake (s : State) (n k v : Nat) : State :=
  let s := setSchDue (s.wr R.FX_CH_SCH_CTL (setBits (s.rd R.FX_CH_SCH_CTL n k) 0 9 v) n k) n k []
  if !v.testBit 0 || fxMode s n = 0 then s.put R.FX_CH_SCH_CTL_ARM 0 n k
  else if v.testBit 2 then
    { s with field := { s.field with offs := tabSet 0 s.field.offs (4 * n + k) (s.rd R.FX_CH_SCH_TIME n k) } }
  else
    let d := s.get R.FX_CTL_TS_DOM
    let x := schAhead (s.rd R.FX_CH_SCH_TIME n k) (domView s d)
    let t := ((domTime s d : Int) + x).toNat
    let s := setSchDue s n k [(d, t)]
    if x < 0 then (fxDiag (s.put R.FX_CH_SCH_CTL_LATE 1 n k) n 5).raise R.FX_EVT_SCH_LATE else s

/-- The entries of a channel whose ticks have come fire in their order, as long as entry `k` is one of them. -/
def schCatchUp (s : State) (n k : Nat) : Nat → State
  | 0 => s
  | m + 1 =>
    match schFirst s n with
    | some j => if (schReady s n k).isNone then s else schCatchUp (schDo s n j) n k m
    | none => s

/-- A write of FX_CHn_SCHk_CTL (R268, R269): an entry whose tick has come fires first, after those that come before it. -/
def schArm (s : State) (n k v : Nat) : State :=
  schTake (schCatchUp s n k ((List.range 4).foldl (fun a j => a + (schDue s n j).length) 0)) n k v

/-- A level whose instant has come is applied on the first 8 ns tick at or after it (R17, R267, R270). -/
def fxApply (s : State) (n : Nat) : State :=
  match (s.fx n).due with
  | some (b, d, t) => if t ≤ fxTick s d then fxLevelNow (s.setFx n { s.fx n with due := none }) n b else s
  | none => s

/-- The levels whose ticks have come are applied. -/
def fxApplyAll (s : State) : State := s.field.ch.foldl (fun s x => fxApply s x.1) s

/-- An instant of a generator at the field die (R267, R268): held levels apply at its tick, and entries with REF = 1 take their
targets. -/
def fxInstant (s : State) (g t : Nat) : State :=
  let s := (numsWhere 32 fun n => s.on R.FX_CH_CFG_APPLY_EN n && s.get R.FX_CH_CFG_APPLY_IG n == g).foldl (fun s n =>
    match (s.fx n).applied with
    | some b => fxApply (s.setFx n { s.fx n with applied := none, due := some (b, igDom s g, t) }) n
    | none => s) s
  (numsWhere 128 fun i => s.on R.FX_CH_SCH_CTL_ARM (i / 4) (i % 4) && s.on R.FX_CH_SCH_CTL_REF (i / 4) (i % 4)
      && s.get R.FX_CH_SCH_CTL_IG (i / 4) (i % 4) == g).foldl (fun s i =>
    let n := i / 4
    let k := i % 4
    if s.on R.FX_CH_SCH_CTL_REPEAT n k || (schDue s n k).isEmpty then
      setSchDue s n k (schDue s n k ++ [(igDom s g, t + tabGet 0 s.field.offs (4 * n + k))])
    else s) s

/-- Show the head of the edge FIFO. -/
def edgeShow (s : State) : State :=
  let h := s.field.edges.headD (0, 0)
  ((s.put R.FX_EDGE_W0_V h.1.toNat).put R.FX_EDGE_W1_V h.2.toNat).put R.FX_EDGE_STAT_COUNT s.field.edges.length

/-- The filter time of an input in ns (R260); the codes that FILT does not list bypass the filter. DESIGN CHOICE -/
def filtNs (s : State) (n : Nat) : Nat :=
  match bits (s.rd R.FX_CH_CFG n) 5 3 with
  | 1 => 10000
  | 2 => 50000
  | 3 => 100000
  | 4 => 1000000
  | 5 => 3000000
  | _ => 0

/-- INPUT_EDGE (R260 to R262, R278): the comparator of an input has been at `lvl` for `age` ns. If every 8 ns sample of the filter time
has differed from the filtered state, that changes; the edge has the time of the run's first sample, less the comparator delay. A run
begins after the sample that ended the last one. -/
def inputEdge (s : State) (n : Nat) (lvl : Bool) (age : Nat) : State :=
  let frc := s.time.frc.toNat
  let first := (frc - age + 7) / 8 * 8
  if (fxMode s n = 1 || fxMode s n = 4) && (s.rd R.FX_CH_STAT n).testBit 0 != lvl && (s.fx n).runAt ≤ first && first + filtNs s n ≤ frc then
    let d := s.get R.FX_CTL_TS_DOM
    let t := u32 ((domAt s d first : Int) - Config.comparatorDelay)
    let s := s.setFx n { s.fx n with runAt := first + filtNs s n + 1 }
    let s := s.wr R.FX_CH_STAT (setBits (s.rd R.FX_CH_STAT n) 0 1 (bit01 lvl)) n
    let s := (s.put R.FX_CH_TS_V t n).addSat R.FX_CH_EDGES_V 1 n
    let s := if s.on R.FX_CH_CFG_EDGE_EN n then
        if s.field.edges.length < 256 then
          edgeShow { s with field := { s.field with
            edges := s.field.edges ++ [(w32 (n + 32 * bit01 lvl + 64 * d), w32 t)] } }
        else (s.addSat R.FX_EDGE_OVF_V 1).raise R.FX_EVT_EDGE_OVF
      else s
    svcEdge s n
  else s

/-- FX_EDGE_POP (R262). -/
def edgePop (s : State) : State := edgeShow { s with field := { s.field with edges := s.field.edges.tail } }

/-! ### Segments -/

/-- Whether a channel's spare segment is still free (R263, R434). -/
def segSpare (s : State) (n : Nat) : Bool :=
  (s.fx n).retired.isNone && (s.fx n).worn.isNone && s.on R.PAT_SG_SPARE (9 * n + 8)

/-- SEGMENT_SWAP (R263): the spare, segment 8, is switched on in parallel. -/
def segSwap (s : State) (n seg : Nat) : State :=
  if segSpare s n && (s.rd R.FX_CH_SEG n).testBit seg && seg < 8 then
    let s := (s.wr R.FX_CH_SEG (s.rd R.FX_CH_SEG n ||| 256) n).raise R.FX_CH_STAT_SEG_SWAP n
    s.setFx n { s.fx n with worn := some (seg, s.now + 20000) }
  else s

/-! ### Supplies and diagnostics -/

/-- The channels of a group. -/
def grpChannels (g : Nat) : List Nat := (List.range 16).map (16 * g + ·)

/-- Whether an output of a group is on. -/
def grpOn (s : State) (g : Nat) : Bool := (grpChannels g).any fun n => s.on R.FX_CH_STAT_ON n

/-- A group enters lockout (R275, R276). -/
def grpLock (s : State) (g : Nat) : State :=
  let s := ((s.raise R.FX_GRP_STAT_LOCKOUT g).addSat R.FX_GRP_LOCKS_V 1 g).raise
    (if g = 0 then R.FX_EVT_LOCK_A else R.FX_EVT_LOCK_B)
  fxSwitches (s.clr R.FX_GRP_STAT_RIDE g) (grpChannels g)

/-- A group leaves lockout (R275). -/
def grpUnlock (s : State) (g : Nat) : State := fxSwitches (s.clr R.FX_GRP_STAT_LOCKOUT g) (grpChannels g)

/-- A measured LPx is shown, and judged while an output of the group is on (R275): below 17 V it warns, above 17.5 V the warning
ends, and a dip below 14 V is being ridden through. -/
def vlpSeen (s : State) (g mv : Nat) : State :=
  let s := s.put R.FX_GRP_VLP_V mv g
  if !grpOn s g then s
  else
    let s := s.put R.FX_GRP_STAT_RIDE (bit01 (mv < 14000)) g
    if mv < 17000 then (s.raise R.FX_GRP_STAT_WARN g).raise (if g = 0 then R.FX_EVT_SAG_WARN_A else R.FX_EVT_SAG_WARN_B)
    else if 17500 < mv then s.clr R.FX_GRP_STAT_WARN g
    else s

/-- Whether an output of a group has been on within the last 100 ms, over which FX_GRPg_ILP averages (R276). -/
def grpRecent (s : State) (g : Nat) : Bool :=
  grpOn s g || (grpChannels g).any fun n => (s.fx n).ons.any fun t => t ≤ (s.fx n).offAt && s.now < (s.fx n).offAt + 100000000

/-- The average current of a group is shown, and judged (R276). -/
def ilpSeen (s : State) (g ma : Nat) : State :=
  let s := s.put R.FX_GRP_ILP_V ma g
  if 4000 < ma then
    (s.raise R.FX_GRP_STAT_GRP_OVL g).raise (if g = 0 then R.FX_EVT_GRP_OVL_A else R.FX_EVT_GRP_OVL_B)
  else s

/-- A measurement of the field die (R263, R275, R276) is a free value: LPx of a group, its current over the last 100 ms, and the load
current of a channel whose switch is on, which the switch limits to 1.5 A at most (R264). -/
def vlpTaken (s : State) (g : Nat) : State :=
  let r := s.draw 16
  vlpSeen r.2 g r.1.toNat

def ilpTaken (s : State) (g : Nat) : State :=
  if grpRecent s g then
    let r := s.draw 16
    ilpSeen r.2 g (min 24000 r.1.toNat)
  else s.put R.FX_GRP_ILP_V 0 g

def loadTaken (s : State) (n : Nat) : State :=
  if s.on R.FX_CH_STAT_ON n then
    let r := s.draw 16
    r.2.put R.FX_CH_CUR_V (min 1500 r.1.toNat) n
  else s.put R.FX_CH_CUR_V 0 n

/-- A write of FX_GRPg_CTL (R275): RESTORE, and CLEAR, which ends lockout under HOLD_OFF with the supply back, as FX_GRPg_VLP has
it. -/
def grpCtlWrite (s : State) (g v : Nat) : State :=
  let s := s.put R.FX_GRP_CTL_RESTORE v g
  if v.testBit 1 && !v.testBit 0 && s.on R.FX_GRP_STAT_LOCKOUT g && 15500 ≤ s.get R.FX_GRP_VLP_V g then grpUnlock s g
  else s

/-- The field die enters HOLD (R282). -/
def fxEnterHold (s : State) : State :=
  let s := if fxHold s then s else { s with field := { s.field with holdAt := s.now } }
  s.raise R.FX_STAT_HOLD

/-- HOLD_LIMIT in ns (R393: 0 means 200 ms). -/
def holdLimit (s : State) : Nat :=
  let n := bits (s.rd R.RST_OPT 0) 16 8
  (if n = 0 then 20 else n) * 10000000

/-- HOLD_RELEASE (R282). -/
def holdRelease (s : State) : State := fxSwitches ((s.clr R.FX_STAT_HOLD).clr R.FX_STAT_HOLD_EXPIRED) (List.range 32)

end Sys2Proof.Machine
end

