-- ==== Sys2Proof/Machine/Field.lean ====
section
/-! DEFINITION. Meanings of the field channels' commands (spec/10) and of the pace governor's (spec/21). -/
namespace Sys2Proof.Machine

/-- CHANNEL_CONFIG (R259, R271, R277). -/
def execChannelConfig (r : Requester) (n : Fin 32) (v : Word) (s : State) : Host.Outcome State Fault Refusal :=
  .next (guardedWrite s r (R.FX_CH_CFG.addr n 0 0) (isAtl r) fun s => fxCfgWrite s n v.toNat)

/-- INPUT_EDGE (R260 to R262, R278). -/
def execInputEdge (n : Fin 32) (lvl : Bool) (age : BitVec 32) (s : State) : Host.Outcome State Fault Refusal :=
  .next (inputEdge s n lvl age.toNat)

/-- EDGE_POP (R262): from Atelier and the host. -/
def execEdgePop (r : Requester) (s : State) : Host.Outcome State Fault Refusal :=
  .next (guardedWrite s r (R.FX_EDGE_POP.addr 0 0 0) (isAtl r || isHost r) edgePop)

/-- SEGMENT_SWAP (R263). -/
def execSegmentSwap (n : Fin 32) (seg : Fin 8) (s : State) : Host.Outcome State Fault Refusal := .next (segSwap s n seg)

/-- SEGMENT_SWAP_DONE (R263, R337, R429): the worn segment is switched off and retired. -/
def execSegmentSwapDone (n : Fin 32) (s : State) : Host.Outcome State Fault Refusal :=
  match (s.fx n).worn with
  | some (seg, t) =>
    if t ≤ s.now then
      let s := (s.wr R.FX_CH_SEG (setBits (s.rd R.FX_CH_SEG n) seg 1 0) n).clr R.FX_CH_STAT_SEG_SWAP n
      let s := s.setFx n { s.fx n with worn := none, retired := some seg }
      let s := (s.put R.PAT_SG_STATE 3 (9 * n + seg)).put R.PAT_SG_SPARE 0 (9 * n + 8)
      let j := Job.segment (8 * n + seg)
      let s := subDone s ((jobBoxes s j).isEmpty && !s.on R.PAT_CTL_POLICY) (swapArg 3 (8 * n + seg))
      .next (ackJobs s j stOk 0)
    else .next s
  | none => .next s

/-- OVERLOAD (R264, R272): the switch limits its current to between 0.9 A and 1.5 A. -/
def execOverload (n : Fin 32) (ma : BitVec 16) (s : State) : Host.Outcome State Fault Refusal :=
  .next (if s.on R.FX_CH_STAT_ON n && 900 ≤ ma.toNat && ma.toNat ≤ 1500 then fxDiag ((s.put R.FX_CH_CUR_V ma.toNat n).addSat R.FX_CH_OVLCNT_V 1 n) n 0 else s)

/-- THERMAL_TRIP (R264). -/
def execThermalTrip (n : Fin 32) (s : State) : Host.Outcome State Fault Refusal :=
  .next (if s.on R.FX_CH_STAT_ON n then fxSwitch (fxDiag (s.setFx n { s.fx n with tripped := true }) n 2) n else s)

/-- THERMAL_RESTART (R264): only without OVL_LATCH. -/
def execThermalRestart (n : Fin 32) (s : State) : Host.Outcome State Fault Refusal :=
  .next (if (s.fx n).tripped && !s.on R.FX_CH_CFG_OVL_LATCH n then
    fxSwitch (s.setFx n { s.fx n with tripped := false }) n else s)

/-- CLR_LATCH (R264). -/
def execClrLatch (r : Requester) (n : Fin 32) (s : State) : Host.Outcome State Fault Refusal :=
  .next (guardedWrite s r (R.FX_CH_CMD.addr n 0 0) (isAtl r) fun s => fxClrLatch s n)

/-- LEVEL_COMMAND (R266, R267): the service sends the level that the item's read view has, if it has changed. -/
def execLevelCommand (w : Option Requester) (n : Fin 32) (lvl : Bool) (s : State) : Host.Outcome State Fault Refusal :=
  match w with
  | none => .next (if s.field.svc.isSome && (s.fx n).item.any (fun h => (readView s h).testBit 0 == lvl) then svcOutput s n else s)
  | some r => .next (guardedWrite s r (R.FX_CH_CMD.addr n 0 0) (isAtl r) fun s => fxCmdWrite s n (bit01 lvl))

/-- Who may write a channel's schedule entries (R268). -/
def schMay (s : State) (r : Requester) (n : Nat) : Bool := isAtl r || (isHost r && s.on R.FX_CH_CFG_HOST_SCH n)

/-- SCHEDULE_ARM (R268): a write of FX_CHn_SCHk_CTL, which arms or disarms. -/
def execScheduleArm (r : Requester) (n : Fin 32) (k : Fin 4) (v : Word) (s : State) : Host.Outcome State Fault Refusal :=
  .next (guardedWrite s r (R.FX_CH_SCH_CTL.addr n k 0) (schMay s r n) fun s => schArm s n k v.toNat)

/-- SCHEDULE_FIRE (R268, R269, R282). -/
def execScheduleFire (n : Fin 32) (k : Fin 4) (s : State) : Host.Outcome State Fault Refusal := .next (schFire s n k)

/-- OPEN_WIRE (R272, R273). -/
def execOpenWire (n : Fin 32) (s : State) : Host.Outcome State Fault Refusal :=
  .next (if fxSwitched s n && (if s.on R.FX_CH_STAT_ON n then s.on R.FX_CH_CFG_OW_ON n
    else s.on R.FX_CH_CFG_OW_OFF n && s.on R.FX_CH_CFG_RB n) then fxDiag s n 1 else s)

/-- The input stage of a channel is seen to read `b` back. -/
def seenBack (s : State) (n : Nat) (b : Bool) : State := fxShowBack (s.setFx n { s.fx n with back := some b }) n

/-- READBACK_MISMATCH (R272, R273). -/
def execReadbackMismatch (n : Fin 32) (s : State) : Host.Outcome State Fault Refusal :=
  .next (if fxSwitched s n && s.on R.FX_CH_CFG_RB n then fxDiag (seenBack s n (!s.on R.FX_CH_STAT_CMD n)) n 3 else s)

/-- When an output last turned on at or before a time (R274). -/
def lastOn (s : State) (c rise : Nat) : Option Nat :=
  ((s.fx c).ons.filter (· ≤ rise)).foldl (fun b t => some (b.elim t (max t))) none

/-- Whether another output of a channel's group turned on within the 20 ms before a time (R274). -/
def crossed (s : State) (a c rise : Nat) : Bool :=
  c != a && fxGroup c == fxGroup a && (lastOn s c rise).any fun t => rise ≤ t + 20000000

/-- Whether an off channel's read-back has been high since `age` ns ago, 20 ms at least (R273, R274). -/
def backHigh (s : State) (n age : Nat) : Bool :=
  fxSwitched s n && !s.on R.FX_CH_STAT_ON n && s.on R.FX_CH_CFG_RB n && 20000000 ≤ age && age ≤ s.now && (s.fx n).offAt + age ≤ s.now

/-- SHORT_LP (R273): not where R274 applies. -/
def execShortLp (a : Rise) (s : State) : Host.Outcome State Fault Refusal :=
  let n := a.ch
  let age := a.age.toNat
  .next (if backHigh s n age && !(List.range 32).any fun c => crossed s n c (s.now - age) then
    fxDiag (seenBack s n true) n 4 else s)

/-- CROSS_MISMATCH (R274): the read-back of `a` rose `age` ns ago, and `b` is the last output of the group that turned on in the 20 ms
before; of two that turned on at the same time either may be named. -/
def execCrossMismatch (x : Rise) (b : Fin 32) (s : State) : Host.Outcome State Fault Refusal :=
  let a := x.ch
  let rise := s.now - x.age.toNat
  .next (if backHigh s a x.age.toNat && crossed s a b rise
      && (grpChannels (fxGroup a)).all fun c => c == a.val || (lastOn s c rise).all fun t => t ≤ (lastOn s b rise).getD 0 then
    ((fxDiag (fxDiag (seenBack s a true) a 3) b 3).put R.FX_CH_DIAG_PARTNER b a).put R.FX_CH_DIAG_PARTNER a b
    else s)

/-- SAG_WARN (R275). -/
def execSagWarn (g : Fin 2) (mv : BitVec 16) (s : State) : Host.Outcome State Fault Refusal :=
  .next (if mv.toNat < 17000 && grpOn s g then vlpSeen s g mv.toNat else s)

/-- LOCKOUT (R275). -/
def execLockout (g : Fin 2) (mv : BitVec 16) (s : State) : Host.Outcome State Fault Refusal :=
  .next (if mv.toNat < 14000 && grpOn s g then
    grpLock ((s.put R.FX_GRP_VLP_V mv.toNat g).raise R.FX_GRP_STAT_SAG g) g else s)

/-- LOCKOUT_CLEAR (R275): CLEAR under HOLD_OFF. -/
def execLockoutClear (r : Requester) (g : Fin 2) (mv : BitVec 16) (s : State) : Host.Outcome State Fault Refusal :=
  .next (guardedWrite s r (R.FX_GRP_CTL.addr g 0 0) (isAtl r) fun s =>
    grpCtlWrite (s.put R.FX_GRP_VLP_V mv.toNat g) g (2 + s.get R.FX_GRP_CTL_RESTORE g))

/-- LOCKOUT_AUTO_RESTORE (R275). -/
def execLockoutAutoRestore (g : Fin 2) (mv : BitVec 16) (s : State) : Host.Outcome State Fault Refusal :=
  .next (if 15500 ≤ mv.toNat && s.on R.FX_GRP_CTL_RESTORE g && s.on R.FX_GRP_STAT_LOCKOUT g then
    grpUnlock (s.put R.FX_GRP_VLP_V mv.toNat g) g else s)

/-- GROUP_OVERLOAD (R276): the average over 100 ms is shown, and judged. -/
def execGroupOverload (g : Fin 2) (ma : BitVec 16) (long : Bool) (s : State) : Host.Outcome State Fault Refusal :=
  .next (if grpRecent s g then
    let s := ilpSeen s g ma.toNat
    if 4000 < ma.toNat && long then grpLock s g else s
    else s)

/-- FIELD_SERVICE_POLL (R266, R278). -/
def execFieldServicePoll (s : State) : Host.Outcome State Fault Refusal := .next (svcPoll s)

/-- Whether a channel's C/Q line is clear of a wake-up pulse. -/
def cqReady (s : State) (n : Nat) : Bool :=
  fxMode s n == 4 && s.get R.FX_CH_CFG_COM n != 0 && (s.fx n).wake.elim true fun x => x.2 ≤ s.now

/-- The YPSD engine that serves a field channel (R141, R280): one for each 16 ports of the instance that has the channel. -/
def sdciEngine (s : State) (n : Nat) : Option Nat :=
  (instWhere s fun x => x.code == 9 && x.st != 0 && x.chans.contains n).head?.bind fun i =>
    (s.inst i).engines[(s.inst i).chans.idxOf n / 16]?

/-- SDCI_CHARACTER (R280): a character framed by the UART cell of a channel. The field service relays one that the cell receives to
the YPSD engine that serves the channel; one that the cell sends came from there. -/
def execSdciCharacter (n : Fin 32) (tx : Bool) (b : Byte) (s : State) : Host.Outcome State Fault Refusal :=
  .next (if cqReady s n then
    if tx then s.setFx n { s.fx n with txChar := some b }
    else
      let s := s.setFx n { s.fx n with rxChar := some b }
      match sdciEngine s n, s.field.svc.isSome with
      | some e, true => s.modEng e fun x => { x with sdci := x.sdci ++ [(n.val, b)] }
      | _, _ => s
    else s)

/-- WAKE_UP_PULSE (R280): the inverse level for 80 µs; then the line is released to receive. -/
def execWakeUpPulse (n : Fin 32) (level : Bool) (s : State) : Host.Outcome State Fault Refusal :=
  .next (if cqReady s n then s.setFx n { s.fx n with wake := some (!level, s.now + 80000) } else s)

/-- HOLD_RELEASE (R282). -/
def execHoldRelease (r : Requester) (s : State) : Host.Outcome State Fault Refusal :=
  .next (guardedWrite s r (R.FX_HOLD_RELEASE.addr 0 0 0) (isAtl r) holdRelease)

/-- HOLD_EXPIRY (R282). -/
def execHoldExpiry (s : State) : Host.Outcome State Fault Refusal :=
  .next (if fxHold s && !s.on R.FX_STAT_HOLD_EXPIRED && s.field.holdAt + holdLimit s ≤ s.now then
    fxSwitches ((s.raise R.FX_STAT_HOLD_EXPIRED).raise R.FX_EVT_HOLD_EXP) (List.range 32) else s)

/-- PD_CLASSIFICATION (R283, R284). -/
def execPdClassification (s : State) : Host.Outcome State Fault Refusal := .next (pdClassify s)

/-- PD_POWER_GOOD (R283). -/
def execPdPowerGood (vin : BitVec 16) (s : State) : Host.Outcome State Fault Refusal := .next (pdGood s vin.toNat)

/-- AUX_SENSE (R285). -/
def execAuxSense (on_ : Bool) (s : State) : Host.Outcome State Fault Refusal := .next (auxSense s on_)

/-- SAG_WARN_CLEAR (R275). -/
def execSagWarnClear (g : Fin 2) (mv : BitVec 16) (s : State) : Host.Outcome State Fault Refusal :=
  .next (if 17500 < mv.toNat then
    ((s.put R.FX_GRP_VLP_V mv.toNat g).clr R.FX_GRP_STAT_WARN g).clr R.FX_GRP_STAT_RIDE g else s)

/-- PD_POWER_LOSS (R283, R465). -/
def execPdPowerLoss (s : State) : Host.Outcome State Fault Refusal := .next (pdLoss s)

/-- ECO_STEP (R461). -/
def execEcoStep (s : State) : Host.Outcome State Fault Refusal := .next (ecoStep s)

/-- BUDGET_STEP (R461, R464, R465). -/
def execBudgetStep (mw : BitVec 20) (s : State) : Host.Outcome State Fault Refusal := .next (budgetStep s mw.toNat)

/-- VCORE_SLEW (R462). -/
def execVcoreSlew (s : State) : Host.Outcome State Fault Refusal := .next (vcoreSlew s)

/-- AVS_FAILURE (R463). -/
def execAvsFailure (s : State) : Host.Outcome State Fault Refusal := .next (avsFailure s)

/-- BUDGET_WRITE (R465). -/
def execBudgetWrite (r : Requester) (v : Word) (s : State) : Host.Outcome State Fault Refusal :=
  .next (guardedWrite s r (R.PWR_BUDGET.addr 0 0 0) (isAtl r) fun s => budgetWrite s v.toNat)

end Sys2Proof.Machine
end

