-- ==== Sys2Proof/Machine/PortOps.lean ====
section
/-! DEFINITION. The splice units and the engines' port windows (spec/03, "Ports and splice units"; R85, R91, R92, R213 to R217):
a frame passing a bound port byte by byte, the splice ring, RXD and XD, forwarding, and the frames engines send. -/
namespace Sys2Proof.Machine

/-- A window of an engine: port A, or port B. -/
def State.win (s : State) (e : Nat) (b : Bool) : PortWin := if b then (s.eng e).winB else (s.eng e).winA

/-- Replace a window. -/
def State.setWin (s : State) (e : Nat) (b : Bool) (w : PortWin) : State :=
  s.modEng e fun x => if b then { x with winB := w } else { x with winA := w }

/-- The port that a window is bound to (R73). -/
def winPort (s : State) (e : Nat) (b : Bool) : Option Nat :=
  let p := s.get (if b then R.CE_BIND_PORT_B else R.CE_BIND_PORT_A) e
  if (if b then boundB s e p else boundA s e p) then some p else none

/-- The window through which an engine binds a port. -/
def winSide (s : State) (e p : Nat) : Bool := !boundA s e p

/-- Count entries as missed (R75). -/
def splMiss (s : State) (e : Nat) (b : Bool) (n : Nat) : State :=
  if n = 0 then s
  else (s.addSat (if b then R.CE_SPL_MISS_B_V else R.CE_SPL_MISS_A_V) n e).raise R.CE_ERR_SPL_MISS e

/-! ### The splice ring -/

/-- A splice entry from its two words (R74, "Splice entry"). -/
def mkEntry (e0 e1 : Word) (index : Nat) : SplEntry :=
  { pos := bits e0.toNat 0 16, len := bits e0.toNat 16 7 + 1, insert := e0.getLsbD 24, eol := e0.getLsbD 25,
    handle := bits e1.toNat 0 18, index := index }

/-- SPL_E1 pushes the entry staged in SPL_E0 (R75), if the ring has room. -/
def splPush (s : State) (e : Nat) (b : Bool) (v : Word) : State :=
  let w := s.win e b
  if w.ring.length < 32 then
    s.setWin e b { w with ring := w.ring ++ [mkEntry w.e0 v ((w.head + w.ring.length) % 32)] }
  else s.raise R.CE_ERR_IO_RSVD e

/-- Remove `n` entries from the head of a window's ring. -/
def ringPop (s : State) (e : Nat) (b : Bool) (n : Nat) : State :=
  let w := s.win e b
  s.setWin e b { w with ring := w.ring.drop n, head := (w.head + min n w.ring.length) % 32 }

/-- SPL_FLUSH (R74): all entries go, none counted as missed, the one being worked included. -/
def splFlush (s : State) (e : Nat) (b : Bool) : State :=
  let s := ringPop s e b (s.win e b).ring.length
  match winPort s e b with
  | none => s
  | some p =>
    let x := s.port p
    match x.pass with
    | some f => if f.owner = some e then s.setPort p { x with pass := some { f with started := false, cur := [] } } else s
    | none => s

/-- The read view of an inserted item: width and value (R76, R46); an item that is not valid has no bits. -/
def insertView (s : State) (h : Nat) : Nat × Nat :=
  let x := s.item h
  if itValid x then (itWidth x, readView s h) else (0, 0)

/-- Take the views of the present frame's inserts whose read point has come (R76). -/
def takeViews (s : State) (upTo : Nat) : List SplEntry → List SplEntry
  | [] => []
  | x :: xs =>
    let y := if x.insert && x.view.isNone && x.pos ≤ upTo then { x with view := some (insertView s x.handle) } else x
    if x.eol then y :: xs else y :: takeViews s upTo xs

/-- The entries at the head whose POS has been passed (R75), and whether one of them was the frame's last. -/
def missedHead (k : Nat) : List SplEntry → Nat × Bool
  | [] => (0, false)
  | x :: xs =>
    if x.pos < k then if x.eol then (1, true) else ((missedHead k xs).1 + 1, (missedHead k xs).2)
    else (0, false)

/-- The entries up to and including the next one with EOL = 1; all of them where none has it (R75). -/
def toEol : List SplEntry → Nat
  | [] => 0
  | x :: xs => if x.eol then 1 else toEol xs + 1

/-- Byte `j` of an insert over the incoming byte: item bit i at bit i mod 8, bits beyond the width kept (R76). -/
def insertByte (v : Nat × Nat) (j : Nat) (b : Byte) : Byte :=
  let w := min 8 (v.1 - 8 * j)
  BitVec.ofNat 8 (setBits b.toNat 0 w (v.2 / 2 ^ (8 * j)))

/-- Deliver extracted bytes as one XD word with its XS status. -/
def pushXd (s : State) (e : Nat) (b : Bool) (index : Nat) (bs : List Byte) (last short : Bool) : State :=
  let w := s.win e b
  let st := index + bs.length * 2 ^ 8 + 2 ^ 13 * bit01 last + 2 ^ 14 * bit01 short
  s.setWin e b { w with xd := w.xd ++ [⟨w32 (leNat bs), w32 st, 0⟩] }

/-- One byte of the frame against the ring of its owner (R75, R76): the state, the frame, and the byte that goes out. With
FCS_REGEN = 0 an insert whose range covers bytes of the incoming FCS changes them like any other byte of the frame. DESIGN CHOICE -/
def ringByte (s : State) (e : Nat) (ahead : Nat) (f : PassFrame) (v : Byte) : State × PassFrame × Byte :=
  let b := f.sideB
  let k := f.inB.length
  if f.eolSeen then (s, f, v)
  else
    let w := s.win e b
    let s := s.setWin e b { w with ring := takeViews s (k + ahead) w.ring }
    let m := if f.started then (0, false) else missedHead k w.ring
    let s := splMiss (ringPop s e b m.1) e b m.1
    let f := { f with eolSeen := m.2 }
    match (s.win e b).ring with
    | [] => (s, f, v)
    | x :: _ =>
      if m.2 || k < x.pos then (s, f, v)
      else
        let done := k + 1 = x.pos + x.len
        let f' := { f with started := !done, eolSeen := done && x.eol }
        if x.insert then
          (if done then ringPop s e b 1 else s, { f' with inserted := true }, insertByte (x.view.getD (0, 0)) (k - x.pos) v)
        else
          let s := if f.cur.length = 4 then pushXd s e b x.index f.cur false false else s
          let cur := (if f.cur.length = 4 then [] else f.cur) ++ [v]
          if done then (ringPop (pushXd s e b x.index cur true false) e b 1, { f' with cur := [] }, v)
          else (s, { f' with cur := cur }, v)

/-- The ring at the end of a frame (R75, R78): an extract under way ends short; what is left of the frame is missed. -/
def ringSettle (s : State) (e : Nat) (f : PassFrame) : State :=
  let b := f.sideB
  if f.eolSeen then s
  else match (s.win e b).ring with
    | [] => s
    | x :: rest =>
      if f.started then
        let s := if x.insert then s else pushXd s e b x.index f.cur true true
        if x.eol then ringPop s e b 1 else splMiss (ringPop s e b (1 + toEol rest)) e b (toEol rest)
      else splMiss (ringPop s e b (toEol (x :: rest))) e b (toEol (x :: rest))

/-! ### Frames passing a bound port -/

/-- Deliver the bytes held back as one RXD word (R74). -/
def pushRxd (s : State) (f : PassFrame) (eof ok err : Bool) : State :=
  match f.owner with
  | none => s
  | some e =>
    if f.fwd = 0 && !f.rxPend.isEmpty then
      let w := s.win e f.sideB
      let st := f.rxPos + f.rxPend.length * 2 ^ 16 + 2 ^ 20 * bit01 (f.rxPos == 0) + 2 ^ 21 * bit01 eof
        + 2 ^ 22 * bit01 ok + 2 ^ 23 * bit01 err
      s.setWin e f.sideB { w with rx := w.rx ++ [⟨w32 (leNat f.rxPend), w32 st, f.rxts⟩] }
    else s

/-- Replace the frame passing a port. -/
def State.setPass (s : State) (p : Nat) (f : Option PassFrame) : State := s.setPort p { s.port p with pass := f }

/-- Where a forwarded frame goes (R74, R85): another port, if there is one. -/
def fwdPort (s : State) (p : Nat) (f : PassFrame) : Option Nat :=
  if f.fwd = 2 then some p
  else match f.byEng with
    | some e => if f.fwd = 1 then winPort s e (!winSide s e p) else none
    | none => none

/-- A frame with stamp `x` goes onto the wire from a splice unit or a transmit FIFO (R74): timestamped and edited by the MAC
(R169, R170). -/
def wireSend (s : State) (p : Nat) (f : List Byte) (x : Stamp) : State :=
  let ok := fcsOk f
  let g := dropFcs f
  let h := oneStep g (x.q / 4).toNat
  let s := putWire s p (if s.on R.TB_PORT_CFG_ONESTEP p && h != g then withFcs h ok else f) false x
  if ok then s.setPort p { s.port p with tsOut := (s.port p).tsOut ++ (tsRec s p true g x).toList } else s

/-- Whether pause holds a port's transmitter for all classes (R219): a spliced frame has no class of its own. DESIGN CHOICE -/
def allHeld (s : State) (p : Nat) : Bool := (List.range 8).all fun c => pausedTill s p c != 0

/-- Whether a spliced frame may start on a port now. -/
def spliceFree (s : State) (p : Nat) : Bool := portFree s p && (s.port p).spl.isEmpty && !allHeld s p

/-- A Frieze frame with LEADER_TIME of an SFD that passes now (R192), in domain `d`; an FCS that is invalid stays so. -/
def leaderStamp (s : State) (p : Nat) (d : Option (Nat × Option (Nat × Nat))) (f : List Byte) : List Byte :=
  match d with
  | some (k, _) => withFcs (patch (dropFcs f) 18 (beBytes 8 (txStamp s p k / 4).toNat)) (fcsOk f)
  | none => f

/-- A frame that waited for the wire, or did not have to, leaves a splice unit: it is stamped now (R192). -/
def spliceStart (s : State) (p : Nat) (d : Option (Nat × Option (Nat × Nat))) (f : List Byte) : State :=
  let s := d.elim s fun k => stampLeft s p k.1 k.2 f
  wireSend s p (leaderStamp s p d f) (txNow s p)

/-- A frame leaves a splice unit on a port (R74), perhaps with LEADER_TIME of a domain for a branch of an instance: at once if the wire is free, else behind the
frames that wait for it; a port that is not live transmits nothing (R217). -/
def spliceOut (s : State) (p : Nat) (d : Option (Nat × Option (Nat × Nat))) (f : List Byte) : State :=
  if spliceFree s p then spliceStart s p d f
  else if portLive s p then s.setPort p { s.port p with spl := (s.port p).spl ++ [(f, d)] }
  else s

/-- A frame leaves a splice unit as it is. -/
def spliceSend (s : State) (p : Nat) (f : List Byte) : State := spliceOut s p none f

/-- A frame without FCS leaves on a port with LEADER_TIME of its SFD in a domain (R192), its FCS good or invalid, or cut short as R13
cuts a frame. -/
def stampSend (s : State) (p d : Nat) (by_ : Option (Nat × Nat)) (f : List Byte) (good cut : Bool) : State :=
  if !cut then spliceOut s p (some (d, by_)) (withFcs f good)
  else if spliceFree s p then putWire (stampLeft s p d by_ f) p (patch f 18 (beBytes 8 (txStamp s p d / 4).toNat)) true (txNow s p)
  else s

/-- A wire whose frame has its end places its record (R169); a free one takes the next frame that waits for it: a MAC control frame, which pause does not hold (R219, R220), or a spliced
one. -/
def portDrain (s : State) (p : Nat) : State :=
  let s := if (s.port p).txEnd ≤ s.now then recEnd s p else s
  let x := s.port p
  if portLive s p && !x.txOpen && x.txEnd ≤ s.now then
    match x.ctl, x.spl with
    | f :: r, _ => startTx (s.setPort p { x with ctl := r }) p f
    | [], f :: r => if allHeld s p then s else spliceStart (s.setPort p { x with spl := r }) p f.2 f.1
    | [], [] => s
  else s

/-- The ports on whose wires frames wait take the next ones. -/
def wiresDrain (s : State) : State := s.sw.ports.foldl (fun s x => portDrain s x.1) s

/-- The copy of a passing frame that is leaving on a port's wire is cut short (R13). -/
def passCutTx (s : State) (f : PassFrame) : State :=
  match f.tx with
  | some (q, x) => if f.txGone then s else putWire s q f.outB true x
  | none => s

/-- The frame passing a port is discarded before its end (R13, R214): its copy is cut, its last word has ERR, and the
ring settles. The rest of it, up to its end, is ignored. -/
def passCut (s : State) (p : Nat) : State :=
  match (s.port p).pass with
  | none => s
  | some f =>
    if f.ended then s
    else
      let s := pushRxd s f true false true
      let s := f.owner.elim s fun e => ringSettle s e f
      (passCutTx s f).setPass p (some { f with ended := true })

/-- The offset from the last instant of CE_MQ_START_IG (R92). -/
def mqOffset (s : State) : Nat :=
  let n := s.get R.CE_MQ_START_IG_V
  u32 ((domTime s (igDom s n) : Int) - ceil16 ((s.igen n).fired.getD 0))

/-- How far ahead of a byte an insert's view is taken (R76): 8 bytes, 32 at 10GBASE-R. -/
def viewAhead (s : State) (p : Nat) : Nat := if p < 16 && s.get R.MAC_CTL_MODE p = 3 then 32 else 8

/-- A frame starts while another is passing: at a port that preempts, an express frame between two fragments, and the frame of the
fragments waits for the next one (R222); else the first ends there. DESIGN CHOICE (log 244) -/
def passHold (s : State) (p : Nat) : State :=
  match (s.port p).pass with
  | some f =>
    if s.on R.MAC_CTL_PREEMPT p && !type8 s p && !f.ended && (s.port p).held.isNone then
      s.setPort p { s.port p with pass := none, held := some f }
    else passCut s p
  | none => s

/-- No frame passes any more; that of a fragment which waited goes on with the next, which counts (R222). -/
def passDone (s : State) (p : Nat) : State :=
  let x := s.port p
  (if x.held.isSome then fragCount s p 1 else s).setPort p { x with pass := x.held, held := none }

/-- The first byte's moment (R73, R74, R76, R85, R167, R168): the owner, the window, the destination and the timestamps; the views of
the inserts that are read there; and the wire that the frame leaves on as it arrives, if it is free. `src` is the frame of the Maquette
source that arrives. -/
def passStart (s : State) (p : Nat) (src : Option (List Byte)) : State :=
  let s := passHold s p
  let o := portOwner s p
  let by_ := o.or (timeEngine s p)
  let ctl := by_.elim 0 fun e => (s.win e (winSide s e p)).ctl.toNat
  let ts := if type8 s p then 0 else w32 (u32 (rxStamp s p (bits ctl 3 1) / 4))
  let f : PassFrame := { owner := o, sideB := o.elim false fun e => winSide s e p, byEng := by_, fwd := bits ctl 0 2
                         regen := bits ctl 2 1 = 1, stamp := rxNow s p, rxts := ts, mqOff := mqOffset s, src := src }
  if type8 s p then s.setPass p (some f)
  else
    let s := o.elim s fun e =>
      let w := s.win e f.sideB
      s.setWin e f.sideB { w with
        rxts := ts, ring := if engActive s e then takeViews s (viewAhead s p - 1) w.ring else w.ring }
    match if 1 ≤ f.fwd && f.fwd ≤ 2 then fwdPort s p f else none with
    | some q =>
      if spliceFree s q then
        (openWire s q).setPass p
          (some { f with tx := some (q, txNow s q) })
      else s.setPass p (some f)
    | none => s.setPass p (some f)

/-- A byte of a frame against its owner's ring and into the words held back (R74 to R76). -/
def passStep (s : State) (ahead : Nat) (ring : Bool) (f : PassFrame) (v : Byte) : State × PassFrame :=
  let r := match f.owner with
    | some e => if ring && engActive s e then ringByte s e ahead f v else (s, f, v)
    | none => (s, f, v)
  let g := r.2.1
  let full := g.rxPend.length = 4
  (if full then pushRxd r.1 g false false false else r.1,
    { g with
      inB := g.inB ++ [v]
      outB := g.outB ++ [r.2.2]
      rxPend := (if full then [] else g.rxPend) ++ [v]
      rxPos := if full then g.rxPos + 4 else g.rxPos })

/-- One byte passes (R74 to R76, R85, R214). -/
def passByte (s : State) (p : Nat) (v : Byte) : State :=
  match (s.port p).pass with
  | none => s
  | some f =>
    if f.ended then s
    else if !type8 s p && s.get R.MAC_MAXLEN_V p ≤ f.inB.length then passCut (macCount s p 4 1) p
    else
      let r := passStep s (viewAhead s p) (!type8 s p) f v
      r.1.setPass p (some r.2)

/-- A received frame is written to the record list of a live port with RECORD (R92), with its offset from the last instant
of CE_MQ_START_IG. -/
def mqRecord (s : State) (p off : Nat) (f : List Byte) : State :=
  if s.on R.CE_MQ_PORT_RECORD p && !inMaquette s p then
    let r := mqAppend s (s.rd R.CE_MQ_REF_BASE) (s.get R.CE_MQ_REF_LEN_V) s.engArr.recPos off f
    { r.1 with engArr := { r.1.engArr with recPos := r.2 } }
  else s

/-- Where a frame that has passed goes (R74, R85): onto the wire it is leaving on, to the splice unit's port, to the switch core, or
nowhere. -/
def passForward (s : State) (p : Nat) (f : PassFrame) (g : List Byte) : State :=
  match f.tx with
  | some (q, x) => if f.txGone then s else wireSend s q g x
  | none =>
    if f.fwd = 0 then if f.owner.isSome then s else macCount s p 14 1
    else if f.fwd = 3 then swIngress s 29 p f.stamp.q (fcsFate g) g
    else match fwdPort s p f with
      | some q => spliceSend s q g
      | none => macCount s p 14 1

/-- The end of a frame that passed (R75, R77, R78, R85, R169, R214). A Type 8 ring's stream is received and recorded; no ring works on
it and SPL_CTL forwards nothing of it, since the splice unit stands behind the MAC, which takes no part there (R215). DESIGN CHOICE -/
def passEnd (s : State) (p : Nat) : State :=
  match (s.port p).pass with
  | none => s
  | some f =>
    if f.ended then passDone s p
    else if type8 s p then mqRecord (passDone (pushRxd s f true false false) p) p f.mqOff f.inB
    else
      let r := macReceive s p f.inB
      if !r.2 then passDone (passCut r.1 p) p
      else
        let s := r.1
        let ok := fcsOk f.inB
        let s := pushRxd s f true ok false
        let s := f.owner.elim s fun e => ringSettle s e f
        let s := if ok then tsRecord s p (dropFcs f.inB) f.stamp else s
        let s := mqRecord s p f.mqOff f.inB
        passForward (passDone s p) p f (if f.regen && f.inserted then withFcs (dropFcs f.outB) ok else f.outB)

/-- Bytes of a frame pass a bound port. -/
def frameBytes (s : State) (p : Nat) (f : List Byte) (sof eof : Bool) (src : Option (List Byte)) : State :=
  let s := if sof then passStart s p src else s
  let s := f.foldl (fun s v => passByte s p v) s
  if eof then passEnd s p else s

/-- The frame at the head of what a Maquette port's sources in LOOP and PAIR have sent (R91), if it begins with these bytes and ends
with them as `eof` says; what is left of it, and the state without it. -/
def mqTake (s : State) (p : Nat) (f : List Byte) (eof : Bool) : Option (State × List Byte) :=
  match (s.port p).loop with
  | [] => none
  | g :: r =>
    if s.get R.CE_MQ_PORT_MODE p < 3 && g.take f.length = f && eof == decide (g.length = f.length) then
      some (s.setPort p { s.port p with loop := r }, g.drop f.length)
    else none

/-- FRAME_RECEIVE (R74, R91, R216): a frame starts on a bound port that is live, and goes on until its end, from the source that it
started from; a Maquette port in PLAY has the reference frames only. -/
def frameReceive (s : State) (p : Nat) (f : List Byte) (sof eof : Bool) : State :=
  if sof then
    if portLive s p && !(binders s p).isEmpty then
      if inMaquette s p then (mqTake s p f eof).elim s fun r => frameBytes r.1 p f sof eof (some r.2)
      else frameBytes s p f sof eof none
    else s
  else match (s.port p).pass with
    | none => s
    | some x => match x.src with
      | none => frameBytes s p f sof eof none
      | some g =>
        if g.take f.length = f && eof == decide (g.length = f.length) then
          frameBytes (s.setPass p (some { x with src := some (g.drop f.length) })) p f sof eof none
        else s

/-- INGRESS_FRAME on any switch port (R222, R223), with the Maquette sources and RECORD (R91, R92). -/
def frameArrives (s : State) (p ext frag : Nat) (f : List Byte) : State :=
  if p < 24 && portLive s p && (binders s p).isEmpty then
    if inMaquette s p then (mqTake s p f true).elim s fun r => ingressFrame r.1 p ext frag f
    else ingressFrame (mqRecord s p (mqOffset s) f) p ext frag f
  else ingressFrame s p ext frag f

/-- The record of a record list at a position: its offset, its bytes, and the position of the next (R92). -/
def mqFrame (s : State) (base len pos : Nat) : Option (Nat × List Byte × Nat) :=
  if pos + 8 ≤ len then
    let n := leNat (agentBytes s (.atl 0) (base + pos + 4) 4)
    if pos + 8 + n ≤ len then
      some (leNat (agentBytes s (.atl 0) (base + pos) 4), agentBytes s (.atl 0) (base + pos + 8) n, pos + 8 + 4 * ((n + 3) / 4))
    else none
  else none

/-- The offsets of the records of a list, with their numbers; the count of records is bounded by the list's length. -/
def mqOffsets (s : State) (base len : Nat) : (fuel pos k : Nat) → List (Nat × Nat)
  | 0, _, _ => []
  | n + 1, pos, k => match mqFrame s base len pos with
    | some x => (x.1, k) :: mqOffsets s base len n x.2.2 (k + 1)
    | none => []

/-- The position of record `k` of a list. -/
def mqPos (s : State) (base len : Nat) : Nat → Option Nat
  | 0 => some 0
  | k + 1 => (mqPos s base len k).bind fun pos => (mqFrame s base len pos).map fun x => x.2.2

/-- The records that a port has presented since the instant at `t` of CE_MQ_START_IG (R92). -/
def mqPlayed (s : State) (p t : Nat) : List Nat :=
  let x := tabGet (0, []) s.engArr.played p
  if x.1 = t + 1 then x.2 else []

/-- Whether record `k` is the next that a port presents: of those not presented since the instant, that of the least offset, and the
first of these. -/
def mqNext (s : State) (p t k : Nat) : Bool :=
  let len := s.get R.CE_MQ_REF_LEN_V
  let l := (mqOffsets s (s.rd R.CE_MQ_REF_BASE) len (len / 8) 0 0).filter fun x => !(mqPlayed s p t).contains x.2
  l.any fun x => x.2 == k && l.all fun y => x.1 < y.1 || (x.1 == y.1 && x.2 ≤ y.2)

/-- MAQUETTE_PLAY_FRAME (R92): the next reference frame is presented once its time has come after the instant of CE_MQ_START_IG. -/
def mqPlay (s : State) (p k : Nat) : State :=
  let n := s.get R.CE_MQ_START_IG_V
  let base := s.rd R.CE_MQ_REF_BASE
  let len := s.get R.CE_MQ_REF_LEN_V
  if s.get R.CE_MQ_PORT_MODE p = 3 && portLive s p then
    match (s.igen n).fired, (mqPos s base len k).bind (mqFrame s base len) with
    | some t, some (off, f, _) =>
      if ceil16 t + off ≤ domTime s (igDom s n) && mqNext s p t k then
        let s := (mqPos s base len k).elim s fun pos => agentOpen s (.atl 0) (base + pos) (8 + f.length)
        let s := { s with engArr := { s.engArr with played := tabSet (0, []) s.engArr.played p (t + 1, k :: mqPlayed s p t) } }
        if (binders s p).isEmpty then ingressFrame s p p 0 f else frameBytes s p f true true (some [])
      else s
    | _, _ => s
  else s

/-- A receive FIFO overflows, or the link drops while a frame arrives (R13, R217): the frame in progress is discarded. A cut-through copy
of it that is still leaving goes out whole. DESIGN CHOICE (log 230) -/
def rxOverflow (s : State) (p : Nat) : State := passCut ((macCount s p 5 1).raise R.MAC_EVT_OVF p) p

/-- The copies that leave cut-through of the frame arriving at a port are ended as an underflow ends them (R217). -/
def cutCopies (s : State) (p : Nat) : State :=
  (List.range 24).foldl (fun s q => if (s.port q).ctFrom = some p then cutWire s q else s) s

/-- Whether a frame is arriving at a port: bytes of it have passed, or its cut-through copies are still leaving. -/
def arriving (s : State) (p : Nat) : Bool :=
  (s.port p).pass.any (fun f => !f.ended) || (List.range 24).any fun q => (s.port q).ctFrom == some p && onWire s q

/-- The copies of the frame that is arriving at a port which wait in queues, beside those that leave cut-through, are discarded with it
(R13, R217): they came at the same time. -/
def dropArriving (s : State) (p : Nat) : State :=
  let ts := ((List.range 24).filter fun q => (s.port q).ctFrom == some p && onWire s q).map fun q => (s.port q).txAt
  let here := fun x : SwFrame => x.ingress == p && ts.contains x.at_
  s.sw.queues.foldl (fun s q =>
    if q.2.any here then
      (q.2.filter here).foldl (fun s x => freeCells s x) (s.setQueue (q.1 / 8) (q.1 % 8) (q.2.filter fun x => !here x))
    else s) s

/-- LINK_DOWN (R216, R217): a frame that is arriving is cut as an overflow cuts it, its cut-through copies as an underflow;
preemption must be verified anew. -/
def linkDown (s : State) (p : Nat) : State :=
  if s.on R.MAC_STAT_LINK p then
    let s := if arriving s p then rxOverflow (cutCopies (dropArriving s p) p) p else s
    preemptEnd (setLink (s.setPort p { s.port p with pass := none, held := none }) p false) p
  else s

/-! ### The attachment of an engine to the switch core (R242) -/

/-- A queued frame is delivered into an attached engine's port B window: its ring works on it as on a bound port's, and FWD is
ignored. -/
def attachFrame (s : State) (e : Nat) (bs : List Byte) : State :=
  let r := bs.foldl (fun (r : State × PassFrame) v => passStep r.1 8 true r.2 v) (s, { owner := some e, sideB := true })
  ringSettle (pushRxd r.1 r.2 true true false) e r.2

/-- Whether the window of the engine that a frame is for takes it: it has been emptied, and no older frame is for the engine. -/
def attachReady (s : State) (p : Nat) (x : SwFrame) : Bool :=
  x.eng.all fun e => (s.eng e).attach.isNone || ((s.eng e).winB.rx.isEmpty
    && (List.range 8).all fun c => (s.queue p c).all fun y => y.eng != some e || x.at_ ≤ y.at_)

/-- EGRESS_FRAME_START on any switch port: on EF0 and EF1 the first frame whose engine takes it is delivered (R242); one whose engine
is no longer attached is dropped and counted with the frames of disabled ports (R26). DESIGN CHOICE -/
def frameLeaves (s : State) (p c : Nat) : State :=
  if (p = 24 || p = 25) && !(s.queue p c).head?.any (tooOld s) then
    match (s.queue p c).find? (attachReady s p) with
    | none => s
    | some x =>
      let s := freeCells (s.setQueue p c ((s.queue p c).erase x)) x
      match x.eng with
      | some e => if (s.eng e).attach.isSome then attachFrame s e x.bytes else swDrop s p 3 c
      | none => swDrop s p 3 c
  else egressStart s p c

/-! ### Frames that engines send -/

/-- The free words of a window's transmit FIFO (R74): frames that have started have left it. -/
def txFree (w : PortWin) : Nat :=
  64 - w.txs.foldl (fun n x => if x.started then n else n + x.words.length) 0

/-- The instant of a scheduled start on slot `k`: its domain and the slot's scheduled time, as for a JOB_MARK (R181, R82). -/
def txInstant (s : State) (e k : Nat) : Option (Nat × Nat) := (jobTime s e k).map fun t => (slotDom s e k, t)

/-- The bytes of an engine's frame. -/
def txBytes (x : TxFrame) : List Byte := x.words.flatMap fun w => leBytes 4 w.toNat

/-- An engine's whole frame goes onto the wire with the stamp of its SFD: the MAC appends the FCS (R214), times and edits it (R169,
R170). In Type 8 mode the words are the ring's bits (R215). -/
def engineSend (s : State) (p : Nat) (x : TxFrame) (st : Stamp) : State :=
  if type8 s p then putWire s p (txBytes x) false st else wireSend s p (withFcs (txBytes x) true) st

/-- The frame at the head of a window's transmit FIFO starts on a port's wire, whole or as far as its words have come. -/
def txStart (s : State) (e : Nat) (b : Bool) (p : Nat) (x : TxFrame) (rest : List TxFrame) : State :=
  let w := s.win e b
  if x.eof then engineSend (s.setWin e b { w with txs := rest }) p x (txNow s p)
  else openWire (s.setWin e b { w with txs := { x with started := true, port := p } :: rest }) p

/-- A scheduled frame that missed its instant and its window is dropped (R83), with the words of it that are still to come. It counts
in TX_UNDERRUN of the port; the rule does not say which of the port's counters counts it. DESIGN CHOICE -/
def txDrop (s : State) (e : Nat) (b : Bool) (p : Nat) (x : TxFrame) (rest : List TxFrame) : State :=
  let l := if x.eof then rest else { x with words := [], started := true, cut := true } :: rest
  macCount (s.setWin e b { s.win e b with txs := l, late := true, dropped := true }) p 8 1

/-- Whether the first word of a scheduled frame was not present at its instant. -/
def txMissed (x : TxFrame) : Bool := x.sched.elim false fun t => decide (diff64 t.2 x.firstAt < 0)

/-- The frame at the head of port B's transmit FIFO of an engine attached to the switch core (R74, R82, R83, R242): a scheduled one
starts at its instant, and the core takes it whole at its end. No gate window of the core's port could close before it. -/
def attachPump (s : State) (e : Nat) (x : TxFrame) (rest : List TxFrame) : State :=
  let w := s.win e true
  let age : Int := x.sched.elim 0 fun t => -diff64 t.2 (domTime s t.1)
  if x.words.isEmpty then if x.eof then s.setWin e true { w with txs := rest } else s
  else if age < 0 then s
  else
    let go : PortWin := { w with txs := { x with started := true } :: rest, dropped := false }
    let s := if x.started then s
      else match x.sched with
        | some t => (engSlack s e (diff64 t.2 x.firstAt)).setWin e true { go with late := txMissed x || 0 < age }
        | none => s.setWin e true go
    if x.eof then
      swIngress (s.setWin e true { s.win e true with txs := rest }) (24 + e % 2) (24 + e % 2) 0 .good (withFcs (txBytes x) true)
    else s

/-- The frame at the head of a window's transmit FIFO starts, if it may (R74, R83, R242). -/
def txPump (s : State) (e : Nat) (b : Bool) : State :=
  let w := s.win e b
  match w.txs with
  | [] => s
  | x :: rest =>
    if b && (s.eng e).attach.isSome then attachPump s e x rest
    else if x.started then s
    else if x.words.isEmpty then if x.eof then s.setWin e b { w with txs := rest } else s
    else match winPort s e b with
      | none => s
      | some p =>
        let age : Int := x.sched.elim 0 fun t => -diff64 t.2 (domTime s t.1)
        if age < 0 then s
        else if txMissed x && !windowOpen s p e age.toNat then txDrop s e b p x rest
        else if portOwner s p = some e && portFree s p && pausedTill s p x.cls == 0 then
          let s := match x.sched with
            | some t => (engSlack s e (diff64 t.2 x.firstAt)).setWin e b { w with late := txMissed x || 0 < age, dropped := false }
            | none => s.setWin e b { w with dropped := false }
          txStart s e b p x rest
        else s

/-- The frame on the wire has its end, which it completes with although the window or the port has closed (R74, R217); a frame that
was cut or dropped is forgotten. -/
def txFinish (s : State) (e : Nat) (b : Bool) : State :=
  let w := s.win e b
  match w.txs with
  | x :: rest =>
    if x.started && x.eof && !(b && (s.eng e).attach.isSome) then
      let s := s.setWin e b { w with txs := rest }
      if x.cut then s else engineSend s x.port x (s.port x.port).txStamp
    else s
  | [] => s

/-- Mark the open frame of a window as complete. -/
def closeOpen (l : List TxFrame) : List TxFrame :=
  match l.getLast? with
  | some x => l.dropLast ++ [{ x with eof := true }]
  | none => l

/-- TXC (R74): SOF opens a frame, ending one that is open; EOF completes the open frame. A frame with AT_IS whose slot gives no time
(R82) is sent as one that is not scheduled. DESIGN CHOICE -/
def txcWrite (s : State) (e : Nat) (b : Bool) (v : Word) : State :=
  let w := s.win e b
  let n := v.toNat
  let x : TxFrame := { cls := bits n 8 3, sched := if n.testBit 2 then txInstant s e (bits n 4 3) else none }
  let l := if n.testBit 0 then closeOpen w.txs ++ [x] else w.txs
  let l := if n.testBit 1 then closeOpen l else l
  txPump (txFinish (s.setWin e b { w with txs := l }) e b) e b

/-- TXD (R74): a word joins the open frame, or opens one; without room it is discarded (R114). -/
def txdAppend (s : State) (e : Nat) (b : Bool) (v : Word) : State :=
  let w := s.win e b
  let l : List TxFrame := match w.txs.getLast? with
    | some x => if x.eof then w.txs ++ [{}] else w.txs
    | none => [{}]
  match l.getLast? with
  | none => s
  | some x =>
    if x.cut then s
    else if txFree w = 0 && !x.started then s.raise R.CE_ERR_IO_RSVD e
    else
      let now := domTime s (x.sched.elim 0 fun t => t.1)
      let x := { x with words := x.words ++ [v], firstAt := if x.words.isEmpty then now else x.firstAt }
      txPump (s.setWin e b { w with txs := l.dropLast ++ [x] }) e b

/-- The window whose frame is open on a port's wire. -/
def txOwner (s : State) (p : Nat) : Option (Nat × Bool) :=
  (List.range 96).findSome? fun k =>
    let x := (s.win (k / 2) (k % 2 == 1)).txs.headD ({} : TxFrame)
    if x.started && !x.cut && x.port == p then some (k / 2, k % 2 == 1) else none

/-- The port whose passing frame is open on a port's wire. -/
def splOwner (s : State) (p : Nat) : Option (Nat × PassFrame) :=
  (List.range 24).findSome? fun q => (s.port q).pass.bind fun f =>
    if !f.ended && !f.txGone && f.tx.any (fun x => x.1 == p) then some (q, f) else none

/-- A transmit FIFO runs empty during a frame (R13): the frame on the wire is cut, with the bytes of it that have come or gone. -/
def txUnderrun (s : State) (p : Nat) : State :=
  let x := s.port p
  if x.txOpen then
    match txOwner s p, splOwner s p with
    | some (e, b), _ =>
      let w := s.win e b
      let f := w.txs.headD ({} : TxFrame)
      putWire (s.setWin e b { w with txs := { f with cut := true } :: w.txs.tail }) p (txBytes f) true x.txStamp
    | none, some (q, f) => putWire (s.setPass q (some { f with txGone := true })) p f.outB true x.txStamp
    | none, none => s.setPort p { x with txOpen := false }
  else cutWire s p

end Sys2Proof.Machine
end

