-- ==== Sys2Proof/Machine/PlinthOps.lean ====
section
/-! DEFINITION. The Plinth links' operations (spec/20): the cluster's map and routes (R440 to R443), packets on their way (R438,
R444), links up and down, lane swaps (R445), and the requests that software makes of other devices (R446, R447, R449). -/
namespace Sys2Proof.Machine

/-- The device at the other end of link `k` of device `d` (R440), where the topology has that link. -/
def pkPeer (s : State) (d k : Nat) : Option Nat :=
  let n := s.get R.PK_CTL_SIZE
  if k < 3 then if 2 ^ (k + 1) ≤ n then some (d ^^^ 2 ^ k) else none
  else if n = 4 || n = 8 then some (d ^^^ (n - 1)) else none

/-- Whether the map shows link `k` of device `d` UP. -/
def pkUp (s : State) (d k : Nat) : Bool := (s.rd R.PK_LINKMAP).testBit (4 * d + k)

/-- The devices within `n` links of any of a list. -/
def pkBall (s : State) : Nat → List Nat → List Nat
  | 0, l => l
  | n + 1, l =>
    pkBall s n (numsWhere 8 fun d => l.contains d || (List.range 4).any fun k =>
      pkUp s d k && (pkPeer s d k).elim false fun p => l.contains p)

/-- The length of a shortest path from `c` to `d` over UP links, if there is one. -/
def pkDist (s : State) (c d : Nat) : Option Nat := (List.range 8).find? fun n => (pkBall s n [d]).contains c

/-- The link that a packet takes at this device (R442), whether it stays in dimension order, or none: no path, or a fifth
hop. -/
def pkRoute (s : State) (p : Packet) : Option (Nat × Bool) :=
  let c := pkId s
  let d := p.dst.val
  let x := c ^^^ d
  let k := if x.testBit 0 then 0 else if x.testBit 1 then 1 else 2
  if 4 ≤ p.hops.val then none
  else if c = p.src.val && p.hops.val = 0 && s.on R.PK_CTL_EXPRESS_EN && pkUp s c 3 && pkPeer s c 3 == some d then
    some (3, false)
  else if p.dimOnly && pkUp s c k then some (k, true)
  else match pkDist s c d with
    | none => none
    | some n =>
      ((List.range 4).find? fun k => pkUp s c k && (pkPeer s c k).elim false fun q => pkDist s q d == some (n - 1)).map
        fun k => (k, false)

/-- Packets of a link that wait for their acknowledge (R438). -/
def pkOut (s : State) (k : Nat) : List Packet := tabGet [] s.pk.out k

/-- Replace them. -/
def setPkOut (s : State) (k : Nat) (l : List Packet) : State :=
  { s with pk := { s.pk with out := tabSet [] s.pk.out k l } }

/-- A packet goes onto its link, or is discarded (R442). -/
def pkForward (s : State) (p : Packet) : State :=
  match pkRoute s p with
  | some (k, dim) => setPkOut s k (pkOut s k ++ [{ p with hops := p.hops + 1, dimOnly := dim }])
  | none => (s.addSat R.PK_DISCARD_V 1).raise R.PK_EVT_DISCARD

/-- A packet of this device for another (R444): it waits while the route to its destination is changing. -/
def pkSend (s : State) (dst : Nat) (m : PkMsg) : State :=
  let p : Packet := ⟨Fin.ofNat 8 (pkId s), Fin.ofNat 8 dst, 0, true, m⟩
  if tabGet false s.pk.hold dst then { s with pk := { s.pk with held := s.pk.held ++ [p] } } else pkForward s p

/-- Whether a device is present (R441). -/
def pkPresent (s : State) (d : Nat) : Bool := s.bitAt R.PK_STAT (8 + d)

/-- A new map of the links (R441, R442, R444): the devices that a route reaches are present; the sources' packets on routes
that have changed hold back new ones. -/
def pkMap (s : State) (map : Nat) : State :=
  let me := pkId s
  let probe := fun (s : State) d => pkRoute s ⟨Fin.ofNat 8 me, Fin.ofNat 8 d, 0, true, .event 0⟩
  let s' := s.wr R.PK_LINKMAP map
  let present := numsWhere 8 fun d => d != me && d < s.get R.PK_CTL_SIZE && (pkDist s' me d).isSome
  let s' := s'.put R.PK_STAT_PRESENT (present.foldl (fun a d => a + 2 ^ d) 0)
  (numsWhere 8 fun d => d != me && probe s d != probe s' d
      && (List.range 4).any fun k => (pkOut s k).any fun p => p.src.val == me && p.dst.val == d).foldl
    (fun s d => { s with pk := { s.pk with hold := tabSet false s.pk.hold d true } }) s'

/-- A link of this device comes up or goes down (R437, R441). -/
def pkLink (s : State) (k : Nat) (up : Bool) : State :=
  let b := 2 ^ (4 * pkId s + k)
  let map := s.rd R.PK_LINKMAP
  let s := (s.put R.PK_L_STAT_UP (bit01 up) k).raise R.PK_EVT_LINK_CHG
  pkMap s (if up then map ||| b else map - (map &&& b))

/-- A lane swap under way is abandoned with its link (R402); the SPARE_SWAP that asked for it finds the link down (R337). -/
def pkSwapLost (s : State) (k : Nat) : State :=
  let x := tabGet (0, false) s.pk.swap k
  if x.1 = 0 then s
  else
    let s := { s with pk := { s.pk with swap := tabSet (0, false) s.pk.swap k (0, false) } }
    ackJobs (s.clr R.PK_L_CTL_SWAP k) (.lane (2 * k + (x.1 - 1))) stBadState 0

/-- A link goes down (R444): counted; its unacknowledged packets are sent again first on the new route. -/
def pkDown (s : State) (k : Nat) (training : Bool) : State :=
  let s := pkSwapLost s k
  let l := pkOut s k
  let s := (s.addSat R.PK_L_DOWNS_V 1 k).put R.PK_L_STAT_TRAINING (bit01 training) k
  let s := pkLink (setPkOut s k []) k false
  l.foldl (fun s p => pkForward s { p with hops := p.hops - 1 }) s

/-- Whether a link's spare lane is free: not in service, and not retired before it was used (R426). -/
def pkSpare (s : State) (k : Nat) : Bool := !s.on R.PK_L_STAT_SPARE_USED k && s.on R.PAT_LK_SPARE (3 * k + 2)

/-- A write of PK_Lk_CTL (R445): EN, and SWAP with the lane it names. -/
def pkSwap (s : State) (k lane : Nat) (patina : Bool) : State :=
  if s.on R.PK_L_STAT_UP k && pkSpare s k && (tabGet (0, false) s.pk.swap k).1 = 0 then
    let s := { s with pk := { s.pk with swap := tabSet (0, false) s.pk.swap k (lane + 1, patina) } }
    let s := (s.put R.PK_L_CTL_SWAP_LANE lane k).raise R.PK_L_CTL_SWAP k
    let map := s.rd R.PK_LINKMAP
    pkMap (s.raise R.PK_L_STAT_TRAINING k) (map - (map &&& 2 ^ (4 * pkId s + k)))
  else s.raise R.PK_L_STAT_SWAP_ERR k

/-- A write of PK_Lk_CTL. -/
def pkLinkCtl (s : State) (k v : Nat) : State :=
  let live := s.on R.PK_CTL_EN && s.on R.PK_STAT_CLUSTER_EN
  let was := s.on R.PK_L_CTL_EN k
  let s := (s.put R.PK_L_CTL_EN v k).put R.PK_L_CTL_SWAP_LANE (bits v 2 1) k
  let s := if v.testBit 0 && !was then s.put R.PK_L_STAT_TRAINING (bit01 live) k
    else if !v.testBit 0 && was then
      (if s.on R.PK_L_STAT_UP k then pkDown s k false else s.put R.PK_L_STAT_TRAINING 0 k).put R.PK_L_STAT_TOPO_ERR 0 k
    else s
  if v.testBit 1 then pkSwap s k (bits v 2 1) false else s

/-- A write of PK_CTL: links in service. -/
def pkCtlWrite (s : State) (v : Nat) : State :=
  let s := s.regWrite R.PK_CTL v
  let live := v.testBit 0 && s.on R.PK_STAT_CLUSTER_EN
  (List.range 4).foldl (fun s k =>
    if live then if s.on R.PK_L_CTL_EN k && !s.on R.PK_L_STAT_UP k then s.raise R.PK_L_STAT_TRAINING k else s
    else if s.on R.PK_L_STAT_UP k then pkDown s k false else s.put R.PK_L_STAT_TRAINING 0 k) s

/-- PLINTH_LINK_TRAINED (R437, R441): the peer's ID, SIZE and link number. -/
def pkTrained (s : State) (k id size link delay : Nat) : State :=
  if s.on R.PK_CTL_EN && s.on R.PK_STAT_CLUSTER_EN && s.on R.PK_L_CTL_EN k && !s.on R.PK_L_STAT_UP k then
    let s := ((s.put R.PK_L_STAT_PEER_ID id k).put R.PK_L_STAT_PEER_LINK link k).put R.PK_L_STAT_TRAINING 0 k
    let s := s.put R.PK_L_DELAY_V delay k
    if pkPeer s (pkId s) k = some id && link = k && size = s.get R.PK_CTL_SIZE && id != pkId s then
      pkLink (s.clr R.PK_L_STAT_TOPO_ERR k) k true
    else (s.raise R.PK_L_STAT_TOPO_ERR k).raise R.PK_EVT_TOPO_ERR
  else s

/-- LANE_FAILURE (R437): the link retrains with the spare, or goes down for good. -/
def pkLaneFail (s : State) (k lane : Nat) : State :=
  if s.on R.PK_L_STAT_UP k then
    if !pkSpare s k then pkDown s k false
    else
      let s := (pkDown s k true).raise R.PK_L_STAT_SPARE_USED k
      let s := (s.put R.PAT_LK_SPARE 0 (3 * k + 2)).put R.PAT_LK_STATE 3 (3 * k + lane)
      { s with pk := { s.pk with spareAt := tabSet 0 s.pk.spareAt k (lane + 1) }, pat := { s.pat with recDue := true } }
  else s

/-- LANE_SWAP_DONE (R445, R429): the replay buffer is empty and the link is trained again with the spare. -/
def pkSwapDone (s : State) (k : Nat) : State :=
  let x := tabGet (0, false) s.pk.swap k
  if x.1 != 0 && (pkOut s k).isEmpty then
    let s := { s with pk := { s.pk with
      swap := tabSet (0, false) s.pk.swap k (0, false), spareAt := tabSet 0 s.pk.spareAt k x.1 } }
    let s := ((s.raise R.PK_L_STAT_SPARE_USED k).clr R.PK_L_STAT_TRAINING k).clr R.PK_L_CTL_SWAP k
    let s := (s.put R.PAT_LK_SPARE 0 (3 * k + 2)).put R.PAT_LK_STATE 3 (3 * k + (x.1 - 1))
    let s := subDone s x.2 (swapArg 2 (2 * k + (x.1 - 1)))
    ackJobs (pkMap s (s.rd R.PK_LINKMAP ||| 2 ^ (4 * pkId s + k))) (.lane (2 * k + (x.1 - 1))) stOk 0
  else s

/-- The first packet of a link waits too long or arrived with a bad CRC (R438): it is sent again. -/
def pkResend (s : State) (k : Nat) : State :=
  if s.on R.PK_L_STAT_UP k && !(pkOut s k).isEmpty then s.addSat R.PK_L_RETRY_V 1 k else s

/-- LINK_STATE_FLOOD (R442): the word of device `d` reaches the map. -/
def pkFlood (s : State) (d word : Nat) : State :=
  let own := (numsWhere 4 fun k => s.on R.PK_L_STAT_UP k && (tabGet (0, false) s.pk.swap k).1 == 0).foldl
    (fun a k => a + 2 ^ k) 0
  if s.on R.PK_CTL_EN then pkMap s (setBits (s.rd R.PK_LINKMAP) (4 * d) 4 (if d = pkId s then own else word)) else s

/-- ROUTE_HOLD_END (R444): the packets that waited for a destination are released in order. -/
def pkRelease (s : State) (d : Nat) : State :=
  let l := s.pk.held.filter fun p => p.dst.val == d
  let s := { s with pk := { s.pk with
    hold := tabSet false s.pk.hold d false, held := s.pk.held.filter fun p => p.dst.val != d } }
  l.foldl pkForward s

/-- A remote access ends (R446). -/
def raEnd (s : State) (p result : Nat) (v : Option Nat) : State :=
  let s := ((s.clr R.PK_RA_STAT_BUSY p).put R.PK_RA_STAT_RESULT result p).clr R.PK_RA_CMD_GO p
  let s := v.elim s fun v => s.put R.PK_RA_DATA_V v p
  s.raise R.PK_EVT_RA_DONE

/-- A write of PK_RAp_CMD (R446): GO while BUSY is ignored. -/
def raCmdWrite (s : State) (p v : Nat) : State :=
  if s.on R.PK_RA_STAT_BUSY p then s
  else
    let s := (s.put R.PK_RA_CMD_DEV v p).put R.PK_RA_CMD_WRITE (bits v 4 1) p
    if !v.testBit 8 then s
    else
      let d := bits v 0 3
      if !pkPresent s d then raEnd s p 3 none
      else
        let a := w32 (s.rd R.PK_RA_ADDR p)
        let s := { (s.raise R.PK_RA_STAT_BUSY p).raise R.PK_RA_CMD_GO p with
          pk := { s.pk with raEnd := tabSet 0 s.pk.raEnd p (s.now + 1000000) } }
        pkSend s d (if v.testBit 4 then .write (p == 1) a (w32 (s.rd R.PK_RA_DATA p)) else .read (p == 1) a)

/-- A write of PK_RDc_CTL (R447). -/
def rdCtlWrite (s : State) (c v : Nat) : State :=
  if s.on R.PK_RD_STAT_BUSY c then s
  else
    let s := s.wr R.PK_RD_CTL (v - bits v 8 1 * 256 - bits v 23 9 * 2 ^ 23) c
    if !v.testBit 8 then s
    else if !pkPresent s (bits v 0 3) then
      ((s.put R.PK_RD_STAT_RESULT 3 c).put R.PK_RD_DONE_V 0 c).raise R.PK_EVT_RD_DONE
    else ((s.raise R.PK_RD_STAT_BUSY c).raise R.PK_RD_CTL_GO c).put R.PK_RD_DONE_V 0 c

/-- A write of PK_RRST (R449). -/
def rrstWrite (s : State) (v : Nat) : State :=
  let s := (s.put R.PK_RRST_DEV v).put R.PK_RRST_REACH (bits v 4 1)
  if !v.testBit 8 then s
  else if !pkPresent s (bits v 0 3) then s.put R.PK_RRST_STAT_V 3
  else pkSend ((s.put R.PK_RRST_STAT_V 0).raise R.PK_RRST_GO) (bits v 0 3) (.reset (v.testBit 4))

end Sys2Proof.Machine
end

