-- ==== Sys2Proof/Machine/MemOps.lean ====
section
/-! DEFINITION. On-chip memory's operations (spec/16): the bank behind a fabric address, ECC, scrubbing, the transparent test,
power states and bank substitution. -/
namespace Sys2Proof.Machine

/-- The slot that a bank serves, if any. -/
def bankSlot (s : State) (b : Nat) : Option Nat := (List.range 96).find? fun k => s.get R.MEM_MAP_PHYS k = b

/-- The fabric addresses of a slot's bank, if it has any (R374). -/
def slotBase (k : Nat) : Option Nat :=
  if k < 16 then some (k * 0x40000) else if 71 ≤ k && k < 87 then some (0x2000000 + (k - 71) * 0x40000) else none

/-- Whether a bank is a free spare. -/
def bankSpare (s : State) (b : Nat) : Bool := s.on R.PAT_BK_SPARE b

/-- A bank's contents are lost (R380, R384). -/
def bankZero (s : State) (b : Nat) : State :=
  match (bankSlot s b).bind slotBase with
  | some a => s.zero .fabric a 0x40000
  | none => s

/-- A bank takes a power state (R380): from OFF, its words are initialised on the way to ON. -/
def bankPower (s : State) (b st : Nat) : State :=
  let s := s.put R.MEM_BK_PWR_STATE st b
  let now := s.get R.MEM_BK_STAT_STATE b
  if st = 0 then if now = 0 then s else s.raise R.MEM_BK_STAT_TRANS b
  else
    let s := if st = 2 && now != 2 then bankZero s b else s
    (s.put R.MEM_BK_STAT_STATE st b).clr R.MEM_BK_STAT_TRANS b

/-- Whether a request may change a bank's state (R381). -/
def bankMay (s : State) (r : Requester) (b : Nat) : Bool :=
  match bankSlot s b with
  | some k => (isAtl r && (slotUse k == 0 || slotUse k == 4)) || (isPat r && bankSpare s b)
  | none => isPat r && bankSpare s b

/-- A request that may take effect now (R381): not on a bank that is being replaced, and a bank that a substitution fills stays ON. -/
def bankApply (s : State) (b st : Nat) : State :=
  if s.on R.MEM_BK_STAT_REMAP_SRC b then s.raise R.MEM_EVT_PWR_ERR
  else if s.get R.MEM_REMAP_STAT_STATE == 1 && s.ocm.spare == b && st != 0 then s
  else bankPower s b st

/-- A write of MEM_BKn_PWR (R380, R381). R381 has a request made during a test window ignored with PWR_ERR, and also take effect after
the restore: it changes nothing now, sets PWR_ERR and waits for the restore (DEDUCED). A request on the bank that a substitution fills is
ignored. -/
def bankRequest (s : State) (r : Requester) (b st : Nat) : State :=
  if st < 3 && st != 0 && s.get R.MEM_REMAP_STAT_STATE == 1 && s.ocm.spare == b then s
  else if 2 < st || !bankMay s r b then s.raise R.MEM_EVT_PWR_ERR
  else if s.on R.MEM_BK_STAT_UNDER_TEST b then
    { s.raise R.MEM_EVT_PWR_ERR with ocm := { s.ocm with req := tabSet 0 s.ocm.req b (st + 1) } }
  else bankApply s b st

/-- MEM_STAT.INIT_BUSY: a bank that was OFF is on its way to ON (R380). DEDUCED -/
def bankInits (s : State) : Bool :=
  (List.range 96).any fun b => s.on R.MEM_BK_STAT_TRANS b && s.get R.MEM_BK_STAT_STATE b == 2

/-- An error found in a bank's word (R377). -/
def bankEcc (s : State) (b word : Nat) : EccErr → State
  | .clean => s
  | .single => (s.addSat R.MEM_BK_CE_V 1 b).raise R.MEM_EVT_CE
  | .double => ((s.addSat R.MEM_BK_UE_V 1 b).put R.MEM_UE_ADDR_V (b + 256 * word)).raise R.MEM_EVT_UE

/-- The banks after the scrubber's place, in rotation. -/
def scrubNext (s : State) (from_ : Nat) : Option Nat :=
  ((List.range 96).map fun i => (from_ + i) % 96).find? fun b => s.get R.MEM_BK_STAT_STATE b = 0

/-- SCRUB_WORD (R378): the next word in turn; a word of a window under test is left to the next pass. A rotation that comes to its start,
though the bank at its place has left ON, is a complete pass. -/
def scrubWord (s : State) (err : EccErr) : State :=
  if !s.on R.MEM_CTL_SCRUB_EN then s
  else match scrubNext s s.ocm.scrub with
    | none => s
    | some b =>
      let s := if b < s.ocm.scrub then s.addWrap R.MEM_SCRUB_PASS_V 1 else s
      let w := s.get R.MEM_BK_SCRUB_V b
      let skip := s.ocm.test.elim false fun t => t.1 == b && w / 64 == t.2.1
      let s := if skip then s else bankEcc s b w err
      let w' := if skip then (w / 64 + 1) * 64 else w + 1
      if w' < 32768 then { s.put R.MEM_BK_SCRUB_V w' b with ocm := { s.ocm with scrub := b } }
      else
        let s := s.put R.MEM_BK_SCRUB_V 0 b
        let nxt := (scrubNext s (b + 1)).getD b
        let s := if nxt ≤ b then s.addWrap R.MEM_SCRUB_PASS_V 1 else s
        { s with ocm := { s.ocm with scrub := nxt } }

/-- TEST_WINDOW (R379): the next window of a bank is saved; a bank in RETENTION is brought ON for it. -/
def testWindow (s : State) (b : Nat) : State :=
  let st := s.get R.MEM_BK_STAT_STATE b
  if s.on R.MEM_CTL_TEST_EN && s.ocm.test.isNone && st ≤ 1 && !s.on R.MEM_BK_STAT_TRANS b then
    { (s.raise R.MEM_BK_STAT_UNDER_TEST b).put R.MEM_BK_STAT_STATE 0 b with
      ocm := { s.ocm with test := some (b, s.get R.MEM_BK_TEST_WINDOW b, st) } }
  else s

/-- The free spare bank with the highest ratio, the lowest number among equals (R431). -/
def spareBank (s : State) : Option Nat :=
  (numsWhere 96 (bankSpare s)).foldl (fun b n => match b with
    | none => some n
    | some m => if s.get R.PAT_BK_RATIO m < s.get R.PAT_BK_RATIO n then some n else some m) none

/-- A bank takes a state that it keeps, after the restore if a window of it is under test (R379, R381). -/
def bankStay (s : State) (b st : Nat) : State :=
  let s := (if s.on R.MEM_BK_STAT_UNDER_TEST b then s else s.put R.MEM_BK_STAT_STATE st b).put R.MEM_BK_PWR_STATE st b
  { s with ocm := { s.ocm with
    req := tabSet 0 s.ocm.req b 0
    test := s.ocm.test.map fun t => if t.1 = b then (t.1, t.2.1, st) else t } }

/-- MEM_REMAP_CTL.GO (R382): a spare is brought ON and the copy begins; one substitution runs at a time. -/
def remapStart (s : State) (k : Nat) (patina : Bool) : State :=
  if s.get R.MEM_REMAP_STAT_STATE = 1 || 88 ≤ k then s
  else match spareBank s with
    | none => s
    | some n =>
      let s := ((s.put R.MEM_REMAP_CTL_SLOT k).raise R.MEM_REMAP_CTL_GO).put R.MEM_REMAP_STAT_STATE 1
      let s := bankStay (s.put R.MEM_REMAP_STAT_PROGRESS 0) n 0
      let s := (s.clr R.PAT_BK_SPARE n).put R.MEM_SPARES_FREE (s.get R.MEM_SPARES_FREE - 1)
      { s.raise R.MEM_BK_STAT_REMAP_SRC (s.get R.MEM_MAP_PHYS k) with
        ocm := { s.ocm with spare := n, patina := patina } }

/-- MEM_REMAP_STAT.PROGRESS as a read finds it during a copy (R382): the words copied by then, which is a free value, but never fewer
than before. -/
def remapSeen (s : State) : State :=
  if s.get R.MEM_REMAP_STAT_STATE = 1 then
    let r := s.draw 15
    r.2.put R.MEM_REMAP_STAT_PROGRESS (max r.1.toNat (s.get R.MEM_REMAP_STAT_PROGRESS))
  else s

/-- A write of MEM_REMAP_CTL (R382). -/
def remapCtlWrite (s : State) (v : Nat) : State :=
  if s.get R.MEM_REMAP_STAT_STATE = 1 then s
  else if v.testBit 8 then remapStart (s.put R.MEM_REMAP_CTL_SLOT v) (bits v 0 7) false
  else s.put R.MEM_REMAP_CTL_SLOT v

/-- BANK_REMAP_DONE (R382, R383, R429): the slot takes the spare, the old bank goes OFF and is retired. The bank's words, kept
by slot, stand as they were copied; a secure bank's old words are wiped, which counts. -/
def remapDone (s : State) : State :=
  if s.get R.MEM_REMAP_STAT_STATE = 1 then
    let k := s.get R.MEM_REMAP_CTL_SLOT
    let old := s.get R.MEM_MAP_PHYS k
    let s := ((s.put R.MEM_MAP_PHYS s.ocm.spare k).put R.MEM_REMAP_STAT_STATE 2).clr R.MEM_REMAP_CTL_GO
    let s := (s.put R.MEM_REMAP_STAT_PROGRESS 32767).raise R.MEM_EVT_REMAP_DONE
    let s := bankStay (s.clr R.MEM_BK_STAT_REMAP_SRC old) old 2
    let s := if k = 87 then (s.addWrap R.MEM_SEC_STAT_WIPES 1).raise R.MEM_EVT_WIPE_DONE else s
    let s := ((s.raise R.MEM_BK_STAT_RETIRED old).put R.PAT_BK_STATE 3 old).addWrap R.MEM_SPARES_RETIRED 1
    let s := subDone s s.ocm.patina (swapArg 1 old)
    ackJobs s (.bank old) stOk 0
  else s

/-- A wipe of the secure bank begins (R383). -/
def secureWipe (s : State) : State := (s.raise R.MEM_SEC_STAT_WIPING).raise R.MEM_SEC_STAT_LOCKED

/-- Whether a life-cycle change waits for Armature's start to resume it, until when the bank stays locked (R383, R401). -/
def lcWaits (s : State) : Bool := s.sec.lc.any (!·.update) && s.boot.phase < 2 && s.boot.reach.any (· < 2)

/-- SECURE_WIPE_DONE (R383). -/
def wipeDone (s : State) : State :=
  if s.on R.MEM_SEC_STAT_WIPING then
    (((s.zero .secure 0 0x40000).clr R.MEM_SEC_STAT_WIPING).put R.MEM_SEC_STAT_LOCKED (bit01 (lcWaits s))
      |>.addWrap R.MEM_SEC_STAT_WIPES 1).raise R.MEM_EVT_WIPE_DONE
  else s

end Sys2Proof.Machine
end

