-- ==== Sys2Proof/Machine/MigOps.lean ====
section
/-! DEFINITION. Live migration of an engine (R86 to R90) and Patina's choice of its target (R431). -/
namespace Sys2Proof.Machine

/-- Whether a migration is under way (R90). -/
def migBusy (s : State) : Bool := 1 ≤ s.get R.CE_MIG_STAT_STATE && s.get R.CE_MIG_STAT_STATE ≤ 3

/-- The free spare engine with the highest ratio, the lowest number among equals (R431). -/
def spareEngine (s : State) : Option Nat :=
  (numsWhere 52 fun n => s.on R.PAT_CE_SPARE n).foldl (fun b n => match b with
    | none => some n
    | some m => if s.get R.PAT_CE_RATIO m < s.get R.PAT_CE_RATIO n then some n else some m) none

/-- The migration is abandoned (R89, R432): the target returns, waiting commands are told; under HOST_APPROVE the substitution of a
WORN engine is proposed again, and under AUTO Patina tries again later what it had begun. -/
def migAbandon (s : State) : State :=
  let e := s.get R.CE_MIG_CTL_LE
  let s := (migRelease s).put R.CE_MIG_STAT_STATE 5
  let s := s.raise R.PAT_EVT_SUB_FAIL
  let s := ackJobs s (.engine e) stRefusedGap 0
  if s.on R.PAT_CTL_POLICY then if s.get R.PAT_CE_STATE (s.rd R.CE_MAP e) = 2 then notify s 2 0 (swapArg 0 e) else s
  else if s.engArr.mig.patina then
    { s with pat := { s.pat with retry := some (e, s.now + s.get R.PAT_RETRY_V * 60000000000) } }
  else s

/-- The mapping takes the target (R86), lost instruction words are reloaded (R69), the unit left is retired (R429 to R431), and waiting commands are told (R337). -/
def migFlip (s : State) (freeze : Nat) : State :=
  let e := s.get R.CE_MIG_CTL_LE
  let old := s.rd R.CE_MAP e
  let s := reloadBad s e
  let s := ((s.wr R.CE_MAP s.engArr.mig.target e).put R.CE_LAST_FREEZE_V freeze e).put R.CE_MIG_STAT_STATE 4
  let s := (s.put R.PAT_CE_STATE 3 old).addWrap R.CE_SPARES_RETIRED 1
  let s := subDone s s.engArr.mig.patina (swapArg 0 e)
  ackJobs s (.engine e) stOk (min freeze 0xFFFF)

/-- A migration starts (R86, R89, R90): while another runs, or with no spare, it does not. A HALTED engine is migrated at
once; a running engine with no cycles or no gap is not migrated. -/
def migStart (s : State) (e : Nat) (patina : Bool) : State :=
  if migBusy s || 48 ≤ e then s
  else match spareEngine s with
    | none => s
    | some t =>
      let s := (s.put R.CE_MIG_CTL_LE e).put R.CE_MIG_STAT_REFUSALS 0
      let s := (s.addWrap R.CE_SPARES_FREE 7).clr R.PAT_CE_SPARE t
      let s := { s with engArr := { s.engArr with mig := { target := t, patina := patina } } }
      if engState s e = 0 then migFlip s 0
      else if !s.on R.CE_CYC_EN e || s.get R.CE_GAP_LEN_V e = 0 then migAbandon s
      else s.put R.CE_MIG_STAT_STATE 1

/-- The pre-copy is complete (R86): the migration waits for a gap. -/
def migCopied (s : State) : State :=
  if s.get R.CE_MIG_STAT_STATE = 1 then
    if engState s (s.get R.CE_MIG_CTL_LE) = 0 then migFlip s 0 else s.put R.CE_MIG_STAT_STATE 2
  else s

/-- A gap of the migrating engine begins (R86, R88, R89): refused when the estimate exceeds it, else the engine freezes. An
engine that has halted meanwhile is migrated at once. -/
def migGap (s : State) : State :=
  let e := s.get R.CE_MIG_CTL_LE
  if s.get R.CE_MIG_STAT_STATE != 2 then s
  else if engState s e = 0 then migFlip s 0
  else
    let x := s.eng e
    let d := igDom s (s.get R.CE_CYC_IG e)
    let cycle := s.rd R.CE_CYC_CNT e + 1
    if !s.on R.CE_CYC_EN e || s.get R.CE_GAP_LEN_V e = 0 || s.engArr.mig.gapSeen = cycle
        || !x.cycAt.any (fun t => decide (t + s.rd R.CE_GAP_OFF e ≤ domTime s d)) || !engActive s e then s
    else
      let s := { s with engArr := { s.engArr with mig := { s.engArr.mig with gapSeen := cycle } } }
      if s.get R.CE_GAP_LEN_V e < freezeEst s e then
        let s := s.addSat R.CE_MIG_STAT_REFUSALS 1
        if s.get R.CE_MIG_LIMIT_V ≤ s.get R.CE_MIG_STAT_REFUSALS then migAbandon s else s
      else
        let s := { s with engArr := { s.engArr with mig := { s.engArr.mig with
          was := engState s e, freezeAt := s.now } } }
        (s.put R.CE_STAT_STATE 4 e).put R.CE_MIG_STAT_STATE 3

/-- The freeze completes (R86, R87, R90): the target continues where the engine stopped; a STOP written meanwhile takes
effect on it, and a STOPPING engine whose cycles were turned off meanwhile halts (R85). -/
def migResume (s : State) : State :=
  let e := s.get R.CE_MIG_CTL_LE
  if s.get R.CE_MIG_STAT_STATE = 3 then
    let s := migFlip (s.put R.CE_STAT_STATE s.engArr.mig.was e) (s.now - s.engArr.mig.freezeAt)
    if engState s e = 3 && !s.on R.CE_CYC_EN e then stopHalt (s.modEng e fun x => { x with stopPend := false }) e
    else if (s.eng e).stopPend then engStop (s.modEng e fun x => { x with stopPend := false }) e else s
  else s

/-- A write of CE_MIG_CTL (R86, R90): LE cannot change while a migration runs. -/
def migCtlWrite (s : State) (v : Nat) : State :=
  let s := if migBusy s then s else s.put R.CE_MIG_CTL_LE v
  if v.testBit 13 then migCancel s else if v.testBit 12 then migStart s (s.get R.CE_MIG_CTL_LE) false else s

end Sys2Proof.Machine
end

