-- ==== Sys2Proof/Machine/PatOps.lean ====
section
/-! DEFINITION. Patina's operations (spec/19): wear ratios, epochs and their judgement, the life record, and the substitutions
that policy brings in. -/
namespace Sys2Proof.Machine

/-- The number of SPARE_SWAP's KIND (R337). -/
def wearCode : WearKind → Nat
  | .engine => 0
  | .bank => 1
  | .lane => 2
  | .segment => 3
  | .core => 4

/-- The kinds. -/
def wearKinds : List WearKind := [.engine, .bank, .lane, .segment, .core]

/-- The wear registers of a kind (spec/19, "The arrays"). -/
def wearReg : WearKind → Reg
  | .engine => R.PAT_CE
  | .bank => R.PAT_BK
  | .lane => R.PAT_LK
  | .segment => R.PAT_SG
  | .core => R.PAT_AC

/-- How many units a kind has. -/
def wearUnits : WearKind → Nat
  | .engine => 52
  | .bank => 96
  | .lane => 12
  | .segment => 288
  | .core => 5

/-- The fields of a unit's wear register. -/
def wearRatio (k : WearKind) : Fld := ⟨wearReg k, 0, 16⟩
def wearState (k : WearKind) : Fld := ⟨wearReg k, 16, 2⟩
def wearBelow (k : WearKind) : Fld := ⟨wearReg k, 18, 2⟩
def wearSpare (k : WearKind) : Fld := ⟨wearReg k, 20, 1⟩

/-- The key of a unit in Patina's tables. -/
def wearKey (k : WearKind) (n : Nat) : Nat := wearCode k * 1024 + n

/-- The warn limit and the floor of a kind (R426). -/
def wearLimits (s : State) (k : WearKind) : Nat × Nat :=
  let w := s.rd (match k with
    | .lane => R.PAT_LANE_FLOOR
    | .segment => R.PAT_SEG_LIMIT
    | _ => R.PAT_WEAR_FLOOR)
  (w / 65536, w % 65536)

/-- Whether a ratio is beyond a limit (R425, R426): segments rise with wear, the others fall. -/
def beyond (k : WearKind) (ratio lim : Nat) : Bool := if k = .segment then lim < ratio else ratio < lim

/-- Whether a unit is under substitution (R424, R431). -/
def underSub (s : State) (k : WearKind) (n : Nat) : Bool :=
  match k with
  | .engine => migBusy s && (n == s.engArr.mig.target || n == s.rd R.CE_MAP (s.get R.CE_MIG_CTL_LE))
  | .bank => s.get R.MEM_REMAP_STAT_STATE == 1 && (n == s.ocm.spare || s.on R.MEM_BK_STAT_REMAP_SRC n)
  | .lane => (tabGet (0, false) s.pk.swap (n / 3)).1 != 0
  | .segment => (s.fx (n / 9)).worn.isSome
  | .core => s.pat.coreArm.isSome && (n == 4 || s.pat.coreArm == some n)

/-- Insert into a rising list. -/
def insertNat (x : Nat) : List Nat → List Nat
  | [] => [x]
  | y :: t => if x ≤ y then x :: y :: t else y :: insertNat x t

/-- The median of a list: the mean of the two middle ones, rounded down, where their number is even. DESIGN CHOICE -/
def median (l : List Nat) : Nat :=
  let a := l.foldl (fun acc x => insertNat x acc) []
  let n := a.length
  if n % 2 = 1 then a.getD (n / 2) 0 else (a.getD (n / 2 - 1) 0 + a.getD (n / 2) 0) / 2

/-- The units whose median a unit is compared with (R424, R425): its kind, or a segment's channel; not RETIRED, and not under
substitution. -/
def peers (s : State) (k : WearKind) (n : Nat) : List Nat :=
  numsWhere (wearUnits k) fun m => s.get (wearState k) m != 3 && !underSub s k m
    && (k != .segment || (m / 9 == n / 9 && (s.rd R.FX_CH_SEG (m / 9)).testBit (m % 9)))

/-- A unit's ratio in units of 2^-14 (R424, R425), rounded down; held to 16 bits. The baseline median is that of the same peers as
the pace's. DESIGN CHOICE -/
def wearOf (s : State) (k : WearKind) (pace : Nat → Nat) (n : Nat) : Nat :=
  let b := fun m => tabGet 0 s.pat.base (wearKey k m)
  let r := if k = .lane then pace n * 16384 / b n
    else pace n * median ((peers s k n).map b) * 16384 / (median ((peers s k n).map pace) * b n)
  min 65535 r

/-- Whether a unit is sampled in a round (R425): a segment only under load. -/
def sampled (s : State) (k : WearKind) (n : Nat) : Bool :=
  s.get (wearState k) n != 3
    && (k != .segment || (s.on R.FX_CH_STAT_ON (n / 9) && 100 ≤ s.get R.FX_CH_CUR_V (n / 9)
      && (s.rd R.FX_CH_SEG (n / 9)).testBit (n % 9)))

/-- Whether the rules give a unit a ratio in a round: it has a baseline, and no divisor of R424 is 0. DESIGN CHOICE -/
def ratioGiven (s : State) (k : WearKind) (pace : Nat → Nat) (n : Nat) : Bool :=
  tabGet 0 s.pat.base (wearKey k n) != 0 && (k == .lane || median ((peers s k n).map pace) != 0)

/-- The sampled pace of an engine is its CE_PACE (R424). -/
def pacesShown (s : State) (pace : Nat → Nat) : State :=
  (List.range 48).foldl (fun s e => showDirty (s.put R.CE_PACE_V (pace (s.rd R.CE_MAP e)) e) e) s

/-- Append to a table of lists. -/
def tabPush (t : Tab (List Nat)) (k v : Nat) : Tab (List Nat) := tabSet [] t k (tabGet [] t k ++ [v])

/-- Whether a substitution of a kind runs (R431). -/
def subBusy (s : State) (k : WearKind) : Bool := (List.range (wearUnits k)).any fun n => underSub s k n

/-- Whether a substitution runs that keeps baselines from being taken (R428); a core's swap that is armed is not running. -/
def subRuns (s : State) : Bool := [WearKind.engine, .bank, .lane, .segment].any (subBusy s)

/-- Patina measures the load currents of the field channels, to sample their segments (R263, R425). -/
def loadsTaken (s : State) : State := (List.range 32).foldl loadTaken s

/-- The samples of a wear round (R424, R425): those of a kind's units; without baselines they are kept for them, and a substitution
that runs starts their 10 minutes anew (R428). A unit without a ratio is not sampled. -/
def wearSamples (s : State) (k : WearKind) (paces : List Word) : State :=
  let pace := fun n => (paces.getD n 0).toNat
  let s := if k = .segment then loadsTaken s else s
  let s := if k = .segment then
      (List.range (wearUnits k)).foldl (fun s n => if sampled s k n then s.put R.FX_CH_RSEG_V (pace n) (n / 9) (n % 9) else s) s
    else s
  let l := numsWhere (wearUnits k) fun n => n < paces.length && sampled s k n
  if s.on R.PAT_STAT_BASELINE then
    let r := (l.filter (ratioGiven s k pace)).map fun n => (wearKey k n, wearOf s k pace n)
    { s with pat := { s.pat with ratios := r.foldl (fun t x => tabPush t x.1 x.2) s.pat.ratios } }
  else if subRuns s then { s with pat := { s.pat with paces := [], epochAt := s.now } }
  else { s with pat := { s.pat with paces := l.foldl (fun t n => tabPush t (wearKey k n) (pace n)) s.pat.paces } }

/-- WEAR_ROUND (R424, R425). -/
def wearRound (s : State) (k : WearKind) (paces : List Word) : State :=
  let s := wearSamples s k paces
  if k = .engine then pacesShown s fun n => (paces.getD n 0).toNat else s

/-- The mean of a list, rounded down. -/
def mean (l : List Nat) : Nat := l.foldl (· + ·) 0 / l.length

/-- The logical engine that a physical one carries. -/
def engineOn (s : State) (n : Nat) : Option Nat := (List.range 48).find? fun e => s.rd R.CE_MAP e = n

/-- The ARG of SPARE_SWAP for a physical unit (R337), if it is one that can be substituted. -/
def unitArg (s : State) (k : WearKind) (n : Nat) : Option Nat :=
  match k with
  | .engine => (engineOn s n).map fun e => swapArg 0 e
  | .bank => (bankSlot s n).bind fun k => if k < 88 then some (swapArg 1 n) else none
  | .lane => if n % 3 = 2 then none else some (swapArg 2 (2 * (n / 3) + n % 3))
  | .segment => if n % 9 = 8 then none else some (swapArg 3 (8 * (n / 9) + n % 9))
  | .core => if n = 4 then none else some (swapArg 4 n)

/-- Whether a spare is free for a unit (R431, R434). -/
def spareFree (s : State) (k : WearKind) (n : Nat) : Bool :=
  match k with
  | .engine => (spareEngine s).isSome
  | .bank => (spareBank s).isSome
  | .lane => pkSpare s (n / 3)
  | .segment => segSpare s (n / 9)
  | .core => s.on R.PAT_AC_SPARE 4 && s.pat.coreArm.isNone

/-- A core's swap is armed for the next CORE reset (R386, R433). -/
def coreArm (s : State) (slot : Nat) : State :=
  { (s.raise R.PAT_STAT_CORE_SWAP_ARMED).put R.PAT_AC_SPARE 0 4 with pat := { s.pat with coreArm := some slot } }

/-- Whether the substitution of an engine is held until it is HALTED (R432): it runs, and has no gap (R89). -/
def engHeld (s : State) (n : Nat) : Bool :=
  match engineOn s n with
  | some e => engState s e != 0 && (s.get R.CE_GAP_LEN_V e == 0 || !s.on R.CE_CYC_EN e)
  | none => false

/-- Patina starts the substitution of a unit under AUTO (R430, R433). -/
def subStart (s : State) (k : WearKind) (n : Nat) : State :=
  match k with
  | .engine =>
    match engineOn s n with
    | some e => migStart s e true
    | none => s
  | .bank => match bankSlot s n with
    | some b => remapStart s b true
    | none => s
  | .lane => pkSwap s (n / 3) (n % 3) true
  | .segment => segSwap s (n / 9) (n % 9)
  | .core => notify (coreArm s n) 3 0 (swapArg 4 n)

/-- The first of a list of units in Patina's order (R431): the lowest ratio, for segments the highest. -/
def wornFirst (s : State) (k : WearKind) (l : List Nat) : Option Nat :=
  l.foldl (fun b n => match b with
    | none => some n
    | some m => if beyond k (s.get (wearRatio k) n) (s.get (wearRatio k) m) then some n else some m) none

/-- Patina proposes a substitution (R430), and will again after PAT_REQ_INT minutes; 0 counts as 1. DESIGN CHOICE -/
def subRequest (s : State) (k : WearKind) (n : Nat) : State :=
  match unitArg s k n with
  | some a =>
    let t := s.now + max 1 (s.get R.PAT_REQ_INT_V) * 60000000000
    notify { s with pat := { s.pat with reqAt := tabSet 0 s.pat.reqAt (wearKey k n) t } } 2 0 a
  | none => s

/-- The WORN units of a kind that are not under substitution. -/
def wornUnits (s : State) (k : WearKind) : List Nat :=
  numsWhere (wearUnits k) fun n => s.get (wearState k) n == 2 && !underSub s k n

/-- What policy does about the WORN units of a kind (R430 to R434): those without a free spare stay in service with NO_SPARE; the
others are proposed, or substituted one at a time, but for the engines that are held. The secure bank is Armature's to replace, whatever
the policy is (R383). -/
def subAct (s : State) (k : WearKind) : State :=
  if !s.on R.PAT_CTL_EN then s
  else
    let w := wornUnits s k
    let s := if w.all (spareFree s k) then s else s.raise R.PAT_EVT_NO_SPARE
    let l := w.filter fun n => spareFree s k n && (unitArg s k n).isSome
    let sec := if k = .bank then l.filter fun n => bankSlot s n == some 87 else []
    let l := l.filter fun n => !sec.contains n
    let s := if sec.isEmpty then s else remapStart s 87 false
    if s.on R.PAT_CTL_POLICY then
      (l.filter fun n => tabGet 0 s.pat.reqAt (wearKey k n) == 0).foldl (fun s n => subRequest s k n) s
    else
      let held := if k = .engine then l.filter (engHeld s) else []
      let s := if k = .engine then { s with pat := { s.pat with held := held } } else s
      if subBusy s k || (k = .engine && s.pat.retry.isSome) then s
      else match wornFirst s k (l.filter fun n => !held.contains n) with
        | some n => subStart s k n
        | none => s

/-- Patina looks at its WORN units once a substitution has ended (R431), and at the engines whose substitution is held once one
of them is HALTED (R432). -/
def patLook (s : State) : State :=
  if s.pat.look then wearKinds.foldl subAct { s with pat := { s.pat with look := false } }
  else if s.pat.held.any fun n => !engHeld s n then subAct s .engine
  else s

/-- A spare that is WORN is retired at once (R426). -/
def spareRetire (s : State) (k : WearKind) (n : Nat) : State :=
  let s := (s.put (wearState k) 3 n).put (wearSpare k) 0 n
  let s := { s with pat := { s.pat with recDue := true } }
  match k with
  | .engine => (s.put R.CE_SPARES_FREE (s.get R.CE_SPARES_FREE - 1)).addWrap R.CE_SPARES_RETIRED 1
  | .bank => ((s.put R.MEM_SPARES_FREE (s.get R.MEM_SPARES_FREE - 1)).addWrap R.MEM_SPARES_RETIRED 1).raise
      R.MEM_BK_STAT_RETIRED n
  | _ => s

/-- A unit becomes WORN (R426, R430). -/
def wornUnit (s : State) (k : WearKind) (n : Nat) : State :=
  let s := (s.put (wearState k) 2 n).raise R.PAT_EVT_WORN
  if s.on (wearSpare k) n then spareRetire s k n else s

/-- The judgement of a unit at an epoch's end (R426); with EN = 0 its ratio is shown and not judged. -/
def judge (s : State) (k : WearKind) (n ratio : Nat) (warnToo : Bool) : State :=
  let st := s.get (wearState k) n
  let lim := wearLimits s k
  let below := if beyond k ratio lim.2 then min 3 (s.get (wearBelow k) n + 1) else 0
  let s := s.put (wearRatio k) ratio n
  if !s.on R.PAT_CTL_EN then s
  else
  let s := s.put (wearBelow k) below n
  if 2 ≤ st then s
  else if below = 3 then wornUnit s k n
  else if beyond k ratio lim.1 || warnToo then
    if st = 1 then s else (s.put (wearState k) 1 n).raise R.PAT_EVT_WARN
  else s.put (wearState k) 0 n

/-- EPOCH_END (R426, R430): every unit that was sampled is judged by the mean of its ratios; then policy acts. -/
def epochEnd (s : State) : State :=
  let mins := max 1 (min 1440 (s.get R.PAT_EPOCH_V))
  if s.on R.PAT_STAT_BASELINE && s.pat.epochAt + mins * 60000000000 ≤ s.now then
    let s := wearKinds.foldl (fun s k => (List.range (wearUnits k)).foldl (fun s n =>
      let l := tabGet [] s.pat.ratios (wearKey k n)
      let ce := k == .bank && s.on R.PAT_CTL_EN && 16 < s.rd R.MEM_BK_CE n - tabGet 0 s.pat.ceAt n
      if !l.isEmpty then judge s k n (mean l) ce
      else if ce && s.get (wearState k) n = 0 then (s.put (wearState k) 1 n).raise R.PAT_EVT_WARN
      else s) s) s
    let ce := (List.range 96).foldl (fun t n => tabSet 0 t n (s.rd R.MEM_BK_CE n)) []
    let s := { s with pat := { s.pat with ratios := [], ceAt := ce, epochAt := s.now } }
    wearKinds.foldl subAct s
  else s

/-- TEST_WINDOW_RESTORE (R379, R426): the window is restored; a failed one makes its bank WORN. -/
def testRestore (s : State) (fail : Bool) : State :=
  match s.ocm.test with
  | none => s
  | some (b, w, was) =>
    let s := (s.clr R.MEM_BK_STAT_UNDER_TEST b).put R.MEM_BK_TEST_WINDOW (w + 1) b
    let req := tabGet 0 s.ocm.req b
    let s := { s with ocm := { s.ocm with test := none, windows := s.ocm.windows + 1, req := tabSet 0 s.ocm.req b 0 } }
    let s := if req != 0 then bankApply s b (req - 1) else s.put R.MEM_BK_STAT_STATE was b
    if fail then
      let s := ((s.raise R.MEM_BK_TEST_LAST_FAIL b).addSat R.MEM_BK_TEST_FAILS 1 b).raise R.MEM_EVT_TEST_FAIL
      if 2 ≤ s.get R.PAT_BK_STATE b then s else subAct (wornUnit s .bank b) .bank
    else s

/-- The copy of the life record in force (R427). -/
def lifeRec (s : State) : Option LifeRec :=
  match s.pat.recA, s.pat.recB with
  | some a, some b => if a.seq < b.seq then some b else some a
  | some a, none => some a
  | none, b => b

/-- LIFE_RECORD_WRITE (R427, R429): the older copy takes the next SEQ. -/
def recordWrite (s : State) : State :=
  if s.pat.recDue then
    let units := wearKinds.flatMap fun k =>
      (numsWhere (wearUnits k) fun n => s.get (wearState k) n == 3).map (wearKey k)
    let r : LifeRec := {
      seq := (lifeRec s).elim 1 fun x => x.seq + 1
      base := s.pat.base
      retired := units
      ceMap := (List.range 48).foldl (fun t e => tabSet 0 t e (s.rd R.CE_MAP e)) []
      bkMap := (List.range 96).foldl (fun t k => tabSet 0 t k (s.get R.MEM_MAP_PHYS k)) [] }
    let older : Bool := match s.pat.recA, s.pat.recB with
      | some a, some b => decide (a.seq < b.seq)
      | none, _ => true
      | some _, none => false
    { s with pat := if older then { s.pat with recA := some r, recDue := false }
      else { s.pat with recB := some r, recDue := false } }
  else s

/-- BASELINE_CAPTURE (R428): after 10 minutes without a substitution, the means become the baselines, and the record is written. -/
def baselineCapture (s : State) : State :=
  if !s.on R.PAT_STAT_BASELINE && s.on R.MEM_STAT_READY && s.pat.epochAt + 600000000000 ≤ s.now && !subRuns s then
    (recordWrite { s with pat := { s.pat with
      base := s.pat.paces.map fun p => (p.1, mean p.2), paces := [], recDue := true, epochAt := s.now } }).raise R.PAT_STAT_BASELINE
  else s

/-- The retired lanes of a link, as the record has them (R437, R445): the spare serves in the place of an active one. -/
def laneLoad (s : State) (k : Nat) : State :=
  match (List.range 2).find? fun l => s.get R.PAT_LK_STATE (3 * k + l) == 3 with
  | some l =>
    { (s.raise R.PK_L_STAT_SPARE_USED k).put R.PAT_LK_SPARE 0 (3 * k + 2) with
      pk := { s.pk with spareAt := tabSet 0 s.pk.spareAt k (l + 1) } }
  | none => if s.get R.PAT_LK_STATE (3 * k + 2) = 3 then s.put R.PAT_LK_SPARE 0 (3 * k + 2) else s

/-- The retired segments of a channel, as the record has them (R263): the spare serves in the place of one; a swap that the field
die has made and the record does not hold stands. -/
def segLoad (s : State) (n : Nat) : State :=
  match (List.range 8).find? fun g => s.get R.PAT_SG_STATE (9 * n + g) == 3 with
  | some g =>
    ((s.wr R.FX_CH_SEG (511 - 2 ^ g) n).setFx n { s.fx n with retired := some g, worn := none }).put R.PAT_SG_SPARE 0 (9 * n + 8)
  | none => if s.get R.PAT_SG_STATE (9 * n + 8) = 3 || (s.fx n).retired.isSome then s.put R.PAT_SG_SPARE 0 (9 * n + 8) else s

/-- The retired cores, as the record has them (R386): the spare carries the slot of one. -/
def coreLoad (s : State) : State :=
  match (List.range 4).find? fun c => s.get R.PAT_AC_STATE c == 3 with
  | some c => { s.put R.PAT_AC_SPARE 0 4 with pat := { s.pat with coreMap := tabSet 0 s.pat.coreMap c 4 } }
  | none => if s.get R.PAT_AC_STATE 4 = 3 then s.put R.PAT_AC_SPARE 0 4 else s

/-- Patina loads the record (R68, R376, R428): mappings and retired units, or REC_NEW. -/
def recordLoad (s : State) : State :=
  let s := { s with pat := { s.pat with
    base := [], paces := [], ratios := [], reqAt := [], retry := none, recDue := false, ceAt := [], epochAt := s.now, telAt := 0
    coreMap := [], coreArm := none, look := false, held := [] } }
  match lifeRec s with
  | none => s.raise R.PAT_STAT_REC_NEW
  | some r =>
    let s := { s.raise R.PAT_STAT_BASELINE with pat := { s.pat with base := r.base } }
    let s := (List.range 48).foldl (fun s e => s.wr R.CE_MAP (tabGet 0 r.ceMap e) e) s
    let s := (List.range 96).foldl (fun s k => s.put R.MEM_MAP_PHYS (tabGet 0 r.bkMap k) k) s
    let s := wearKinds.foldl (fun s k => (numsWhere (wearUnits k) fun n => r.retired.contains (wearKey k n)).foldl
      (fun s n => s.put (wearState k) 3 n) s) s
    let s := (List.range 52).foldl (fun s n =>
      s.put R.PAT_CE_SPARE (bit01 ((engineOn s n).isNone && s.get R.PAT_CE_STATE n != 3)) n) s
    let s := (List.range 96).foldl (fun s n =>
      let sp := (bankSlot s n).elim true fun k => 88 ≤ k
      let s := s.put R.PAT_BK_SPARE (bit01 (sp && s.get R.PAT_BK_STATE n != 3)) n
      if s.get R.PAT_BK_STATE n = 3 then s.raise R.MEM_BK_STAT_RETIRED n else s) s
    let s := (List.range 4).foldl (fun s k => laneLoad s k) s
    let s := (List.range 32).foldl (fun s n => segLoad s n) s
    let s := coreLoad s
    let count := fun (m : Nat) (p : Nat → Bool) => (numsWhere m p).length
    let s := (s.put R.CE_SPARES_FREE (count 52 fun n => s.on R.PAT_CE_SPARE n)).put R.CE_SPARES_RETIRED
      (count 52 fun n => s.get R.PAT_CE_STATE n == 3)
    (s.put R.MEM_SPARES_FREE (count 96 fun n => s.on R.PAT_BK_SPARE n)).put R.MEM_SPARES_RETIRED
      (count 96 fun n => s.get R.PAT_BK_STATE n == 3)

/-- SPARE_REQUEST_REPEAT (R430): a proposed unit that is still not retired is proposed again. -/
def requestRepeat (s : State) (k : WearKind) (n : Nat) : State :=
  let t := tabGet 0 s.pat.reqAt (wearKey k n)
  if s.on R.PAT_CTL_POLICY && t != 0 && t ≤ s.now then
    if s.get (wearState k) n = 3 then { s with pat := { s.pat with reqAt := tabSet 0 s.pat.reqAt (wearKey k n) 0 } }
    else subRequest s k n
  else s

/-- SUBSTITUTION_RETRY (R432). -/
def subRetry (s : State) : State :=
  match s.pat.retry with
  | some (e, t) =>
    if t ≤ s.now then migStart { s with pat := { s.pat with retry := none } } e true else s
  | none => s

/-- A signed number of 16 bits in a word's half. -/
def half (i : Int) : Nat := (BitVec.ofInt 16 i).toNat

/-- The lowest ratio of a kind and its unit, as a telemetry word (R435): of all its units, the lowest number among equals. DESIGN CHOICE
-/
def lowest (s : State) (k : WearKind) : Nat :=
  let n := (List.range (wearUnits k)).foldl (fun m n => if s.get (wearRatio k) n < s.get (wearRatio k) m then n else m) 0
  s.get (wearRatio k) n + 65536 * n

/-- TELEMETRY_SNAPSHOT (R435): Patina writes a snapshot; the temperatures, the measured VCORE, the free OTP rows and the
corrected errors of the last 10 ms are what its sensors and counts show. -/
def telemetry (s : State) (tHi tLo : BitVec 16) (rows : BitVec 8) (ce : Word) : State :=
  if s.on R.PAT_TEL_CTL_EN && s.pat.telAt + 10000000 ≤ s.time.frc.toNat then
    let s := voltsRead s
    let seq := if s.rd R.PAT_TEL_SEQ = 0xFFFFFFFF then 1 else s.rd R.PAT_TEL_SEQ + 1
    let head := s.get R.PAT_TEL_HEAD_V
    let a := s.rd R.PAT_TEL_BASE / 256 * 256 + 256 * head
    let f := s.time.frc.toNat
    let count := fun (m : Nat) (p : Nat → Bool) => (numsWhere m p).length
    let free := s.get R.CE_SPARES_FREE + 16 * s.get R.MEM_SPARES_FREE + 256 * s.get R.PAT_AC_SPARE 4
      + 2 ^ 12 * count 4 (pkSpare s) + 2 ^ 16 * count 32 (segSpare s)
      + 2 ^ 24 * rows.toNat
    let ws := [seq, f % 2 ^ 32, f / 2 ^ 32, s.get R.PWR_VREQ_VREQ + 65536 * s.get R.PWR_VREQ_VMEAS,
        tHi.toNat + 65536 * tLo.toNat, s.get R.PWR_POWER_V, free, lowest s .engine, lowest s .core, lowest s .bank,
        lowest s .lane, s.rd R.MEM_SCRUB_PASS, s.ocm.windows, ce.toNat, 0, 0]
      ++ (List.range 48).map fun e => s.rd R.CE_PACE e % 65536 + 65536 * s.get R.PAT_CE_RATIO (s.rd R.CE_MAP e)
    let s := (agentWrite s .pat a (ws.flatMap (leBytes 4))).wr R.PAT_TEL_SEQ seq
    { s.put R.PAT_TEL_HEAD_V ((head + 1) % max 1 (min 1024 (s.get R.PAT_TEL_N_V))) with pat := { s.pat with telAt := f } }
  else s

/-- The shares of PAT_SHARE held within their ranges (R423). -/
def shareWrite (s : State) (v : Nat) : State :=
  let c := fun lo w a b => max a (min b (bits v lo w))
  ((s.put R.PAT_SHARE_SCRUB (c 0 5 2 16)).put R.PAT_SHARE_TEST (c 8 4 1 8)).put R.PAT_SHARE_WEAR (c 16 3 1 4) |>.put
    R.PAT_SHARE_TEL (c 24 3 1 4)

/-- A calibration loop whose result falls outside its trim range keeps its last setting and sets CAL_FAIL (R436). -/
def calResult (s : State) (inRange : Bool) (f : State → State) : State :=
  if inRange then f s else s.raise R.PAT_EVT_CAL_FAIL

/-- PHY trim of a port (R436). -/
def phyTrim (s : State) (p v : Nat) (inRange : Bool) : State :=
  calResult s inRange fun s => { s with pat := { s.pat with trim := tabSet 0 s.pat.trim p v } }

/-- The offset of the field die's ADC (R436). -/
def adcOffset (s : State) (v : Nat) (inRange : Bool) : State :=
  calResult s inRange fun s => { s with pat := { s.pat with adcOff := v } }

/-- The sensors that stand 5 °C or more from the mean of the others (R436); readings in 0.25 °C. -/
def sensorsApart (t : List Int) : List Nat :=
  let sum := t.foldl (· + ·) 0
  numsWhere t.length fun i =>
    let x := t.getD i 0
    let others : Int := t.length - 1
    1 < t.length && decide (20 * others ≤ ((others * x - (sum - x)).natAbs : Int))

/-- Each temperature sensor is checked against the mean of the others (R436). -/
def sensorCheck (s : State) (t : List Int) : State := { s with pat := { s.pat with excluded := sensorsApart t } }

/-- XREF measured against ALTREF, while ALTREF is valid (R161, R436): the loop looks at ALTREF's edges continuously. -/
def oscDrift (s : State) (altref : Option Word) (inRange : Bool) : State :=
  let s := altSeen s altref.isSome
  altref.elim s fun v => calResult s inRange fun s => s.wr R.TB_ALT_DRIFT v.toNat

end Sys2Proof.Machine
end

