-- ==== Sys2Proof/Machine/SecOps.lean ====
section
/-! DEFINITION. Armature's operations (spec/18): the OTP array, keys, image checks, the measurement chain, the firewall regions,
life-cycle changes and debug. -/
namespace Sys2Proof.Machine

/-- Burn bits of the OTP array: bits only ever go from 0 to 1. -/
def otpBurn (s : State) (a : Nat) (bs : List Byte) : State :=
  s.setBytes .otp a (List.zipWith (· ||| ·) (s.bytes .otp a bs.length) bs)

/-- Whether a run of OTP bytes is all zeros. -/
def otpBlank (s : State) (a n : Nat) : Bool := (s.bytes .otp a n).all (· == 0)


/-- An LC_LOG entry (R415). -/
def lcEntry (s : State) (i : Nat) : Nat := s.mword .otp (0x80 + 4 * i)

/-- Whether an LC_LOG entry has DONE set, and whether it has INTENT set. -/
def lcDone (s : State) (i : Nat) : Bool := (lcEntry s i).testBit 4
def lcIntent (s : State) (i : Nat) : Bool := (lcEntry s i).testBit 3

/-- The life-cycle state that OTP holds (R408, R410). -/
def lcBurnt (s : State) : Nat :=
  (List.range 256).foldl (fun m i => if lcDone s i then lcEntry s i % 8 else m) 0

/-- The life-cycle state (R408): as read from OTP, which SEC_STAT shows once a POR or SYSTEM reset is released. -/
def lcState (s : State) : Nat := if inReset s then lcBurnt s else s.get R.SEC_STAT_LC

/-- The entries of 0 to 254 that are free (R411). -/
def lcFree (s : State) : List Nat := numsWhere 255 fun i => !lcIntent s i

/-- The hash of a key in OTP (R415): 0 root, 1 to 4 owner slots. -/
def keyHash (s : State) (id : Nat) : List Byte := s.bytes .otp (if id = 0 then 0x480 else 0x4C0 + 32 * (id - 1)) 32

/-- Whether a key slot is provisioned; whether an owner slot is revoked: all are in RETIRED (R410). -/
def keySet (s : State) (id : Nat) : Bool := (keyHash s id).any (· != 0)
def keyRevoked (s : State) (id : Nat) : Bool :=
  id != 0 && (lcState s == 4 || ((s.mrd .otp 0x540).toNat.testBit (id - 1)))

/-- The identity seed (R415). -/
def idSeed (s : State) : List Byte := s.bytes .otp 0x560 32

/-- The words of a byte string. -/
def leWords (bs : List Byte) (n : Nat) : List Nat := (List.range n).map fun i => leNat ((bs.drop (4 * i)).take 4)

/-- Give a run of words to a register's elements. -/
def wrWords (s : State) (r : Reg) (ws : List Nat) : State :=
  ws.zipIdx.foldl (fun s p => s.wr r p.1 p.2) s

/-- SEC registers from OTP (R408 to R411, R415, R419). -/
def secLoad (s : State) : State :=
  let s := (s.put R.SEC_STAT_LC (lcBurnt s)).put R.SEC_LC_CTR_V (numsWhere 256 (lcDone s)).length
  let s := s.put R.SEC_STAT_LC_LOW (bit01 ((lcFree s).length ≤ 16))
  let ids := [1, 2, 3, 4]
  let s := (s.put R.SEC_KEYS_ROOT_SET (bit01 (keySet s 0))).put R.SEC_KEYS_OWNER_SET
    (ids.foldl (fun a i => a + 2 ^ (i - 1) * bit01 (keySet s i)) 0)
  let s := s.put R.SEC_KEYS_REVOKED (ids.foldl (fun a i => a + 2 ^ (i - 1) * bit01 (keyRevoked s i)) 0)
  if otpBlank s 0x560 32 then s
  else wrWords (wrWords s R.SEC_DEVID (leWords (Config.deviceId (idSeed s)) 4)) R.SEC_DIK_PUB
    (leWords (Config.identityKey (idSeed s)) 16)

/-- The key of a KEY_ID that Armature accepts (R408, R416): the ROM key in BLANK, else the record's, if its hash is the OTP's. -/
def keyFor (s : State) (id : Nat) : Option (List Byte) :=
  if lcState s = 0 then (if id = 0 then some Config.romKey else none)
  else
    let k := tabGet [] s.sec.keys id
    if id ≤ 4 && keySet s id && !keyRevoked s id && Config.shake256 k 32 == keyHash s id then some k else none

/-- A key as a copy of the flash key record holds it (R416): copy 0 at 0x2000, copy 1 at 0x3000, the key of KEY_ID `id` at offset
64 `id`. DESIGN CHOICE (log 133) -/
def keyCopy (s : State) (c id : Nat) : List Byte := s.bytes .flash (0x2000 + 0x1000 * c + 64 * id) 64

/-- Armature rewrites both copies of the key record with the keys it holds. -/
def keyRewrite (s : State) : State :=
  let l := [0, 1, 2, 3, 4].flatMap fun id => (tabGet [] s.sec.keys id ++ List.replicate 64 0).take 64
  (s.setBytes .flash 0x2000 l).setBytes .flash 0x3000 l

/-- Armature takes a key, and rewrites the record (R416). -/
def keySave (s : State) (id : Nat) (k : List Byte) : State :=
  keyRewrite { s with sec := { s.sec with keys := tabSet [] s.sec.keys id k } }

/-- Armature loads the key record at boot (R416): of each provisioned key the copy whose hash is the OTP's; where one copy fails, it
rewrites the record. -/
def keyLoad (s : State) : State :=
  let good := fun c id => Config.shake256 (keyCopy s c id) 32 == keyHash s id
  let ids := [0, 1, 2, 3, 4].filter fun id => keySet s id && !keyRevoked s id
  let keys := ids.foldl (fun l id =>
    if good 0 id then tabSet [] l id (keyCopy s 0 id) else if good 1 id then tabSet [] l id (keyCopy s 1 id) else l) ([] : Tab (List Byte))
  let t := { s with sec := { s.sec with keys := keys } }
  if ids.any fun id => good 0 id != good 1 id then keyRewrite t else t

/-- Whether a provisioned slot has no matching key in the record (R416). -/
def keyRecBad (s : State) : Bool :=
  lcState s != 0 && [0, 1, 2, 3, 4].any fun id =>
    keySet s id && !keyRevoked s id && Config.shake256 (tabGet [] s.sec.keys id) 32 != keyHash s id

/-- The SVN table's entry for a PACK_CODE: its index, if it has one; the minimum is its thermometer's number of bits (R415). -/
def svnEntry (s : State) (code : Nat) : Option Nat :=
  (List.range 64).find? fun i =>
    s.mword .otp (0x580 + 8 * i) % 65536 = code && s.mword .otp (0x584 + 8 * i) != 0

/-- The bits set in a 32-bit number. -/
def popCount (n : Nat) : Nat := (numsWhere 32 n.testBit).length

/-- The minimum SVN of a PACK_CODE (R412). -/
def svnMin (s : State) (code : Nat) : Nat := (svnEntry s code).elim 0 fun i => popCount (s.mword .otp (0x584 + 8 * i))

/-- A field of an image's header (R129). -/
def hdr (img : List Byte) (off n : Nat) : Nat := leNat ((img.drop off).take n)

/-- The PACK_CODE of an image. -/
def imgCode (img : List Byte) : Nat := hdr img 0x06 2

/-- Checks 1 to 4 of R130: the status of the first that fails, if one does. The whole word at KEY_ID is the key's number. DESIGN CHOICE
(log 236) -/
def imageCheck (s : State) (img : List Byte) : Option Nat :=
  let n := hdr img 0x20 4
  let id := hdr img 0x24 4
  if hdr img 0 4 != 0x4B505A59 || hdr img 4 2 != 1 || n < 256 || n + 29792 != img.length then some 9
  else match (if lcState s = 4 then none else keyFor s id) with
    | none => some 6
    | some k =>
      if !Config.slhDsaVerify k (img.take n) (img.drop n) then some 9
      else if hdr img 0x10 4 < svnMin s (imgCode img) then some 6
      else none

/-- The MEAS field of an image's header. -/
def imgMeas (img : List Byte) : List Byte := (img.drop 0x28).take 64

/-- The chain value C (R418). -/
def chainC (s : State) : List Byte := (List.range 16).flatMap fun i => leBytes 4 (s.rd R.SEC_CHAIN i)

/-- Armature extends C and logs an event while there is room (R418). Log entry i stands at offset 72 i of the secure bank.
DESIGN CHOICE -/
def measureNow (s : State) (type info : Nat) (meas : List Byte) : State :=
  let c := Config.shake256 (chainC s ++ leBytes 4 type ++ meas) 64
  let n := s.get R.SEC_LOG_N_V
  let s := wrWords s R.SEC_CHAIN (leWords c 16)
  if n < 192 then
    (s.setBytes .secure (72 * n) (leBytes 4 type ++ leBytes 4 info ++ meas)).put R.SEC_LOG_N_V (n + 1)
  else s.raise R.SEC_STAT_LOG_FULL

/-- A measured event (R418): while the secure bank is locked Armature's access is held until its wipe is complete (R383). -/
def measure (s : State) (type info : Nat) (meas : List Byte) : State :=
  if s.on R.MEM_SEC_STAT_LOCKED then { s with sec := { s.sec with late := s.sec.late ++ [(type, info, meas)] } }
  else measureNow s type info meas

/-- The events that waited for the secure bank are logged. -/
def measureLate (s : State) : State :=
  if s.on R.MEM_SEC_STAT_LOCKED || s.sec.late.isEmpty then s
  else s.sec.late.foldl (fun s e => measureNow s e.1 e.2.1 e.2.2) { s with sec := { s.sec with late := [] } }

/-- The measurement of an item that has no MEAS field. -/
def digest (bs : List Byte) : List Byte := Config.shake256 bs 64

/-- Make a firewall region valid. -/
def fwRegion (s : State) (r base limit perm : Nat) : State :=
  ((s.wr R.SEC_FW_R_BASE base r).wr R.SEC_FW_R_LIMIT limit r).wr R.SEC_FW_R_PERM (2 ^ 31 + perm) r

/-- Permissions of ATL, HOST, DMA and REMOTE as a word (R405). -/
def perms (atl host dma rem : Nat) : Nat := atl + 4 * host + 16 * dma + 64 * rem

/-- Region 0 of the table of R407: the image's code, to 64 KiB. -/
def fwCode (s : State) (len : Nat) : State :=
  fwRegion s 0 0 ((len + 65535) / 65536 * 65536 - 1) (perms 1 1 1 0)

/-- The regions that Armature installs at boot step 7 (R407). -/
def fwInstall (s : State) (len : Nat) : State :=
  let s := fwCode s len
  let s := fwRegion s 1 ((len + 65535) / 65536 * 65536) 0x3FFFFF (perms 2 2 2 0)
  let s := fwRegion s 2 0x1000000 0x11DFFFF (perms 1 1 1 1)
  let s := fwRegion s 3 0x2200000 0x23FFFFF (perms 1 0 1 0)
  let s := fwRegion s 4 0x2000000 0x21FFFFF (perms 2 2 2 2)
  let s := fwRegion s 5 0x40000000 0x4017FFFF (perms 2 2 2 2)
  let s := fwRegion s 6 0x40180000 0x4018FFFF (perms 1 1 1 1)
  s.wr R.SEC_FW_DEFAULT 0

/-- Host boot opens Atelier SRAM to the host alone (R400, R407). -/
def fwHostBoot (s : State) : State := fwRegion s 0 0 0x3FFFFF (perms 0 2 0 0)

/-- Region `r` is invalid. -/
def fwClose (s : State) (r : Nat) : State := s.clr R.SEC_FW_R_PERM_VALID r

/-! ### Life-cycle tokens (R409 to R414) -/

/-- An operation of a token. -/
def tokOp (t : List Byte) (i : Nat) : TokOp :=
  let a := 0x20 + 72 * i
  { op := hdr t a 1, slot := hdr t (a + 1) 1, pack := hdr t (a + 2) 2, value := hdr t (a + 4) 4, key := (t.drop (a + 8)).take 64 }

/-- The operations of a token. -/
def tokOps (t : List Byte) : List TokOp := (List.range (hdr t 6 1)).map (tokOp t)

/-- Whether a copy of the option block is good: its CRC is right and its VOID byte 0 (R393, R394). -/
def optGood (bs : List Byte) : Bool := fcsOk bs && byteAt bs 0x3B == 0

/-- Carry out a token operation (R412, R413, R416). -/
def opApply (s : State) (o : TokOp) : State :=
  match o.op with
  | 1 =>
    let s := otpBurn s (0x4C0 + 32 * (o.slot - 1)) (Config.shake256 o.key 32)
    keySave s o.slot o.key
  | 2 => otpBurn s 0x540 [BitVec.ofNat 8 (2 ^ (o.slot - 1))]
  | 3 =>
    let i := (svnEntry s o.pack).getD ((numsWhere 64 fun i => s.mword .otp (0x584 + 8 * i) == 0).headD 0)
    if o.value = 0 then s else otpBurn s (0x580 + 8 * i) (leBytes 4 o.pack ++ leBytes 4 (2 ^ o.value - 1))
  | 4 => if otpBlank s 0 64 then otpBurn s 0 o.key else otpBurn (otpBurn s 0x40 o.key) 0x3B [0xFF]
  | _ => s

/-- The status that refuses an operation (R412), if one does. -/
def opRefused (s : State) (o : TokOp) : Option Nat :=
  match o.op with
  | 1 => if o.slot = 0 || 4 < o.slot || keySet s o.slot || keyRevoked s o.slot then some 4 else none
  | 2 => if o.slot = 0 || 4 < o.slot || !keySet s o.slot then some 4 else none
  | 3 => if o.value < svnMin s o.pack || 32 < o.value then some 4
         else if (svnEntry s o.pack).isNone && (numsWhere 64 fun i => s.mword .otp (0x584 + 8 * i) == 0).isEmpty then some 5
         else none
  | 4 => if !optGood o.key then some 4 else if !otpBlank s 0 64 && !otpBlank s 0x40 64 then some 5 else none
  | _ => some 4

/-- The status of the first operation that is refused, each as the ones before it leave the array (R412). -/
def opsRefused (s : State) : List TokOp → Option Nat
  | [] => none
  | o :: l => match opRefused s o with
    | some st => some st
    | none => opsRefused (opApply s o) l

/-- Whether a transition is allowed, and which keys may sign it (R409, R413): `owner` says that an owner key signs it. -/
def lcAllowed (from_ to_ : Nat) (owner : Bool) (ops : List TokOp) : Bool :=
  let opts := ops.any fun o => o.op == 4
  match from_, to_ with
  | 0, 1 => true
  | 1, 2 => !(owner && opts)
  | 2, 3 => !(owner && opts)
  | 3, 2 => !(owner && opts)
  | 1, 4 => !owner
  | 2, 4 => !owner
  | 3, 4 => !owner
  | a, b => a == b && a < 4 && (!owner || ops.all fun o => o.op == 4)

/-- Whether a token carries a signature: all but that of BLANK to PROVISIONED do (R414). -/
def lcSigned (s : State) (target : Nat) : Bool := !(lcState s == 0 && target == 1)

/-- The length of a token. -/
def lcLength (s : State) (target : Nat) : Nat := 0x2A0 + (if lcSigned s target then 29792 else 0)

/-- The checks of a token in their order (R414, R411): the status of the first that fails, if one does. -/
def lcCheck (s : State) (target : Nat) (t : List Byte) : Option Nat :=
  let id := hdr t 5 1
  let ops := tokOps t
  let signed := lcSigned s target
  let pub := (t.drop 0x260).take 64
  if hdr t 0 4 != 0x544C5A59 || 8 < hdr t 6 1 || t.length != lcLength s target then some 9
  else if hdr t 4 1 != target || !lcAllowed (lcState s) target (id != 0) ops
      || (t.drop 8).take 16 != (List.range 4).flatMap (fun i => leBytes 4 (s.rd R.SEC_DEVID i))
      || hdr t 0x18 4 != s.get R.SEC_LC_CTR_V + 1
      || (signed && (4 < id || !keySet s id || keyRevoked s id || Config.shake256 pub 32 != keyHash s id)) then some 6
  else if signed && !Config.slhDsaVerify pub (t.take 0x2A0) (t.drop 0x2A0) then some 9
  else match opsRefused s ops with
    | some st => some st
    | none => if target != 4 && (lcFree s).isEmpty then some 5 else none

/-- An accepted token (R410 to R412): the entry's INTENT is burnt; but for a key update the secure bank's wipe begins. -/
def lcStart (s : State) (target : Nat) (t : List Byte) : State :=
  let update := lcState s == target
  let e := if target = 4 then 255 else (lcFree s).headD 0
  let s := otpBurn s (0x80 + 4 * e) (leBytes 4 (target + 8))
  let c : LcChange := { entry := e, target := target, update := update, ops := tokOps t, pub := (t.drop 0x260).take 64 }
  let s := { s with sec := { s.sec with lc := some c } }
  let s := (s.raise R.SEC_STAT_LC_BUSY).put R.SEC_STAT_LC_LOW (bit01 ((lcFree s).length ≤ 16))
  if update then s else secureWipe s

/-- The bytes of a token's operations, which a key update measures (R418). -/
def opBytes (o : TokOp) : List Byte :=
  leBytes 1 o.op ++ leBytes 1 o.slot ++ leBytes 2 o.pack ++ leBytes 4 o.value ++ o.key

/-- Whether a POR or SYSTEM reset has not come to Armature's start (R397 step 4). -/
def armatureDown (s : State) : Bool := s.boot.phase < 2 && s.boot.reach.any (· < 2)

/-- LC_CHANGE_DONE (R410, R412, R418, R422): the OTP writes, the operations, DONE, and the acknowledge. A change whose secure
bank is still being wiped is not done, nor one that waits for Armature's start to resume it (R401). -/
def lcFinish (s : State) : State :=
  match s.sec.lc with
  | none => s
  | some c =>
    if (s.on R.MEM_SEC_STAT_WIPING && !c.update) || armatureDown s then s
    else
      let s := if lcState s = 0 && c.target = 1 then
          let s := otpBurn s 0x480 (Config.shake256 c.pub 32)
          let s := keySave s 0 c.pub
          let r := s.draw 256
          otpBurn r.2 0x560 (leBytes 32 r.1.toNat)
        else if c.target = 4 then otpBurn s 0x560 (List.replicate 32 0xFF)
        else s
      let s := c.ops.foldl opApply s
      let s := otpBurn s (0x80 + 4 * c.entry) (leBytes 4 16)
      let s := (secLoad s).clr R.SEC_STAT_LC_BUSY
      let s := if c.update then measure s 6 (lcState s) (digest (c.ops.flatMap opBytes)) else s
      let s := if c.target = 2 && !c.update then s.clr R.SEC_STAT_DBG_UNLOCKED else s
      let s := { s with sec := { s.sec with lc := none } }
      ackJobs s .lifeCycle stOk 0

/-! ### Debug (R422) -/

/-- The present challenge. -/
def challengeBytes (s : State) : List Byte := leBytes 32 (Config.challenge s.sec.chal).toNat

/-- CHALLENGE: the JTAG port reads the 32 bytes. -/
def debugChallenge (s : State) : State := { s with sec := { s.sec with tdo := challengeBytes s } }

/-- Whether an UNLOCK token is accepted. -/
def unlockOk (s : State) (t : List Byte) : Bool :=
  let id := hdr t 4 4
  let pub := (t.drop 56).take 64
  debugPolicy s == 1 && (lcState s == 1 || lcState s == 3) && t.length == 120 + 29792 && hdr t 0 4 == 0x47445A59
    && (t.drop 8).take 16 == (List.range 4).flatMap (fun i => leBytes 4 (s.rd R.SEC_DEVID i))
    && (t.drop 24).take 32 == challengeBytes s
    && id ≤ 4 && keySet s id && !keyRevoked s id && Config.shake256 pub 32 == keyHash s id
    && Config.slhDsaVerify pub (t.take 120) (t.drop 120)

end Sys2Proof.Machine
end

