-- ==== Sys2Proof/Machine/RstOps.lean ====
section
/-! DEFINITION. Reset and boot (spec/17): what each reach resets, sources and how they overlap, the option block, the steps of
the boot, the Atelier watchdog, and block resets. -/
namespace Sys2Proof.Machine

/-- The register that a fabric address names, with its indexes. -/
def regAt (a : Nat) : Option (Reg × Nat × Nat × Nat) := R.allRegs.findSome? fun r => (r.index a).map fun i => (r, i)

/-- A register's word after a SYSTEM reset (or CORE, with `core`): the column's value field by field, a dash keeps (R3). -/
def resetWord (r : Reg) (i cur : Nat) (core : Bool) : Nat :=
  r.fields.foldl (fun w f =>
    match if core then f.core else f.sys with
    | none => w
    | some v => setBits w f.lo f.width (if v = f.por then bits (r.por i) f.lo f.width else v)) cur

/-- Bring every register to its SYSTEM or CORE column. -/
def resetRegs (s : State) (core : Bool) : State :=
  s.regs.foldl (fun s p =>
    match regAt p.1 with
    | some (r, i, j, k) => s.wr r (resetWord r i (s.rd r i j k) core) i j k
    | none => s) s

/-- Bring those registers that satisfy a test, of the block instance `n`, to their SYSTEM columns (R396). -/
def resetRow (s : State) (p : Reg → Bool) (n : Nat) : State :=
  s.regs.foldl (fun s e =>
    match regAt e.1 with
    | some (r, i, j, k) => if i = n && p r then s.wr r (resetWord r i (s.rd r i j k) false) i j k else s
    | none => s) s

/-! ### What the reaches do (R385, R395) -/

/-- On entry to a SYSTEM reset the level and drive of each unit-owned pin go into OUT and OE, and OWN is cleared (R299). -/
def holdPins (s : State) : State :=
  (List.range 64).foldl (fun s p =>
    if s.get R.GPIO_PIN_OWN p = 0 then s
    else
      let d := pinDrive s p
      ((s.put R.GPIO_PIN_OUT (bit01 d.1) p).put R.GPIO_PIN_OE (bit01 d.2) p).put R.GPIO_PIN_OWN 0 p) s

/-- The SYNC pins keep their idle level; a pulse in progress ends after its width (R395). -/
def holdSync (s : State) : State :=
  (List.range 4).foldl (fun s n =>
    let p := s.syncPin n
    if p.pulseEnd.isSome then s.setSync n { p with idle := some (p.idle.getD (s.on R.TB_IG_CTL_POL n)) } else s) s

/-- What a SYSTEM reset and a POR have in common: the blocks off the registers, and the banks but for the secure one. -/
def resetBlocks (s : State) (sync : Tab SyncPin) (balls : BitVec 64) : State :=
  { s with
    mem := tabClear s.mem 0 0x200000000
    evh := {}, store := {}, time := { sync := sync }, engs := [], engArr := {}, hif := {}
    sw := { tables := vlanOneReset }, cmd := {}, can := [], rasp := { balls := balls }, dma := {}, packs := {}
    pwr := {}, ocm := {}, pk := {}, fz := [], starve := [], arbs := [] }

/-- Entry of a POR (R385): RST_CAUSE is set by the caller; the powered-device front end keeps its class, its grant and FET_PD, which
PDGOOD follows (R395); its event count and what it senses have their POR column (R3). The secure bank stays locked where a life-cycle
change is to be resumed (R401). -/
def enterPor (s : State) : State :=
  let pd := setBits (setBits (s.rd R.PWR_PD_STAT) 8 3 0) 12 1 0
  let s := resetBlocks { s with regs := [], field := {} } [] s.rasp.balls
  let s := ((s.wr R.PWR_PD_STAT pd).wr R.RST_CAUSE 0).clr R.RST_STAT_OPT_BLANK
  let s := (s.zero .secure 0 0x40000).put R.MEM_SEC_STAT_LOCKED (bit01 (s.sec.lc.any (!·.update)))
  { s with
    sec := { s.sec with chal := s.sec.chal + 1, fails := 0, tdo := [], keys := [], late := [] }
    boot := { s.boot with tampers := [], hostReset := [] } }

/-- What the field die keeps in HOLD (R282): readback, commanded state, switch and segment swap of each channel, and a HOLD that is
in force already. -/
def keepField (was s : State) : State :=
  (List.range 32).foldl (fun s n => s.wr R.FX_CH_STAT (was.rd R.FX_CH_STAT n / 2 * 2) n)
    (s.put R.FX_STAT_HOLD (was.get R.FX_STAT_HOLD))

/-- Entry of a SYSTEM reset (R385): the field die enters HOLD and its schedules are discarded (R282). The option block that was read stays
in force until the next one is read (R388, R395); a wipe of the secure bank goes on, and the bank stays locked for it and where a
life-cycle change is to be resumed (R383, R384, R401). -/
def enterSystem (s : State) : State :=
  let s := holdSync (holdPins s)
  let vreq := s.get R.PWR_VREQ_VREQ
  let opts := (List.range 16).map fun i => s.rd R.RST_OPT i
  let wiping := s.on R.MEM_SEC_STAT_WIPING
  let s := keepField s (wrWords ((resetRegs s false).put R.PWR_VREQ_VREQ vreq) R.RST_OPT opts)
  let s := (s.put R.MEM_SEC_STAT_WIPING (bit01 wiping)).put R.MEM_SEC_STAT_LOCKED (bit01 (wiping || s.sec.lc.any (!·.update)))
  let s := { s with sec := { s.sec with keys := [], late := [] } }
  let s := resetBlocks s s.time.sync s.rasp.balls
  let ch := s.field.ch.map fun p => (p.1, { p.2 with item := none, timeItem := none, sent := none, due := none, fired := none, runAt := 0 })
  let s := { s with field := { s.field with
    ch := (ch.filter fun p => p.2 != ({} : FxChan)), due := [], offs := [], edges := [], svc := none } }
  fxEnterHold (s.addSat R.RST_CNT_SYS_V 1)

/-- R372 for a CORE reset: on the sources routed to targets 0 to 4 Active goes to Idle and Active+Pending to Pending, and a level source
that is still asserted goes to Pending. -/
def evhCore (s : State) : State :=
  let s := (List.range 5).foldl (fun s t => (s.wr R.EVH_T_CTL (R.EVH_T_CTL.por t) t).clr R.EVH_T_STAT_EOI_ERR t) s
  (numsWhere 512 fun n => s.get R.EVH_SRC_CFG_TARGET n ≤ 4).foldl (fun s n =>
    let st := s.get R.EVH_SRC_CFG_STATE n
    if st = 1 then s
    else
      let s := if st = 0 then s else { s with evh := { s.evh with
        claimant := tabSet 0 s.evh.claimant n 0, presented := tabSet 0 s.evh.presented n 0 } }
      if st = 3 || (isLevelSource n && levelNow s n) then enterPending s n
      else if st = 0 then s
      else s.put R.EVH_SRC_CFG_STATE 0 n) s

/-- Entry of a CORE reset (R385, R315, R323, R372, R399, R400, R402): Atelier restarts, the cache is cleared, an open firmware
update is closed, what the last boot found is forgotten, and the field die enters HOLD. -/
def enterCore (s : State) : State :=
  let s := evhCore (resetRegs s true)
  let s := s.raise R.HIF_STAT_ATL_RESTART
  let s := if s.on R.RST_STAT_HBOOT_WAIT then fwClose (s.clr R.RST_STAT_HBOOT_WAIT) 0 else s
  let s := (s.clr R.RST_STAT_FALLBACK).clr R.RST_STAT_BOOT_FAIL
  let s := { s with cmd := { s.cmd with cache := [], fwOpen := none }, boot := { s.boot with awdEnd := 0 } }
  fxEnterHold (s.addSat R.RST_CNT_CORE_V 1)

/-- Entry of a reach. -/
def enterReach (s : State) (reach : Nat) : State :=
  let s := if reach = 0 then enterPor s else if reach = 1 then enterSystem s else enterCore s
  { s with boot := { s.boot with
    reach := some reach, phase := 0, second := false, awdEnd := 0, armAt := if reach < 2 then s.now else s.boot.armAt } }

/-- Whether a source is asserted (R387). -/
def sourceOn (s : State) (b : Nat) : Bool := s.now + 1 < tabGet 0 s.boot.ends b

/-- Whether any source is asserted. -/
def anySource (s : State) : Bool := s.boot.rails != 0 || (List.range 10).any (sourceOn s)

/-- An accepted assertion of source `bit` with a reach, for `len` ns (R389, R390): RST_CAUSE, and the entry of the reach unless
a wider sequence runs. -/
def resetAssert (s : State) (bit reach len : Nat) : State :=
  let narrower := s.boot.reach.elim false fun r => r < reach
  let s := if narrower then s else enterReach s reach
  let s := s.wr R.RST_CAUSE (if reach = 0 then 2 ^ bit else s.rd R.RST_CAUSE ||| 2 ^ bit)
  { s with boot := { s.boot with ends := tabSet 0 s.boot.ends bit (s.now + len + 1) } }

/-- An internal pulse lasts 10 µs (R387). -/
def resetPulse (s : State) (bit reach : Nat) : State := resetAssert s bit reach 10000

/-! ### Sources (R387, R388, R472) -/

/-- Low trip, low release, high trip and high release of a monitored rail, in mV (R472): VCORE, VSRAM, VSDA, VSDH, VPHY, VIO,
VIOA, VIOB. -/
def railLimits (r : Nat) : Nat × Nat × Nat × Nat :=
  match r with
  | 0 => (660, 680, 950, 930)
  | 1 => (780, 800, 930, 910)
  | 2 => (820, 840, 980, 960)
  | 3 => (1080, 1110, 1320, 1290)
  | 4 => (2950, 3000, 3650, 3600)
  | 5 => (2950, 3000, 3650, 3600)
  | _ => (1600, 1650, 3650, 3600)

/-- Whether a rail's voltage is outside its window. -/
def railOut (r mv : Nat) : Bool := mv < (railLimits r).1 || (railLimits r).2.2.1 < mv

/-- Whether a rail that was out is inside again: past the release thresholds. -/
def railBack (r mv : Nat) : Bool := (railLimits r).2.1 ≤ mv && mv ≤ (railLimits r).2.2.2

/-- SUPPLY_MONITOR_TRIP (R472, R387): a rail has stayed at `mv` mV outside its window for 2 µs. -/
def supplyTrip (s : State) (r mv : Nat) : State :=
  if railOut r mv then
    let s := resetAssert s 0 0 0
    { s with boot := { s.boot with rails := s.boot.rails ||| 2 ^ r, railAt := s.now } }
  else s

/-- SUPPLY_GOOD (R387, R472): all rails have been inside their windows for 2 ms, at the voltages given. -/
def supplyGood (s : State) (mvs : List Nat) : State :=
  let ok := (List.range 8).all fun r =>
    let mv := mvs.getD r 0
    if s.boot.rails.testBit r then railBack r mv else !railOut r mv
  if ok && (s.boot.rails = 0 || s.boot.railAt + 2000000 ≤ s.now) then { s with boot := { s.boot with rails := 0 } } else s

/-- A low pulse of `len` ns on a reset pin with a filter's rejection and acceptance times (R388): accepted from the acceptance
time; between the two a free value decides. The reset is asserted from the acceptance time until the pin rises. -/
def pinPulse (s : State) (bit reach reject accept len : Nat) : State :=
  if len < reject then s
  else if accept ≤ len then resetAssert s bit reach (len - accept)
  else
    let r := s.draw 1
    if r.1 = 1 then resetAssert r.2 bit reach 0 else r.2

/-- The SYSRST_N filter that RST_FILTER selects (R388). -/
def sysFilter (s : State) : Nat × Nat :=
  match bits (s.rd R.RST_OPT 0) 24 8 with
  | 1 => (10000, 50000)
  | 2 => (100000, 500000)
  | _ => (1000, 5000)

/-- ATELIER_WATCHDOG_EXPIRY (R391). -/
def awdExpire (s : State) : State :=
  if s.on R.RST_AWD_CTL_EN && s.boot.awdEnd != 0 && s.boot.awdEnd ≤ s.now + 1 then resetPulse s 4 2 else s

/-- RST_AWD_KICK takes 1 (R391): the count is reloaded with TIMEOUT ms, 0 taken as 1. -/
def awdKick (s : State) : State :=
  if s.on R.RST_AWD_CTL_EN then
    { s with boot := { s.boot with awdEnd := s.now + max 1 (s.get R.RST_AWD_CTL_TIMEOUT) * 1000000 + 1 } }
  else s

/-- RST_AWD_CTL takes a write (R391): the first one enables the watchdog for good, and its count starts. -/
def awdCtlWrite (s : State) (v : Nat) : State :=
  let was := s.on R.RST_AWD_CTL_EN
  let s := s.regWrite R.RST_AWD_CTL v
  if !was && s.on R.RST_AWD_CTL_EN then awdKick s else s

/-- RST_AWD_LEFT as read: ms remaining, rounded up. -/
def awdLeft (s : State) : Nat := if s.boot.awdEnd = 0 then 0 else (s.boot.awdEnd - 1 - s.now + 999999) / 1000000

/-- A tamper source is detected (R420, R421): in FIELD and SERVICE a SYSTEM reset with wipe. -/
def tamper (s : State) (k : Nat) : State :=
  let lc := lcState s
  if lc = 4 then s
  else
    let s := s.wr R.SEC_TAMPER (s.rd R.SEC_TAMPER ||| 2 ^ k)
    if lc < 2 then s
    else
      let recent := s.boot.tampers.filter fun t => s.now ≤ t + 1000000000
      let s := resetPulse (s.addSat R.SEC_TAMPER_CNT_V 1) 5 1
      let s := secureWipe ((s.clr R.SEC_STAT_DBG_UNLOCKED).put R.SEC_STAT_TAMPER_HOLD
        (bit01 (s.on R.SEC_STAT_TAMPER_HOLD || 2 ≤ recent.length)))
      { s with boot := { s.boot with tampers := recent ++ [s.now] } }

/-- HOST_RESET_PULSE (R340, R387): 100 µs after the acknowledge, of each in turn. -/
def hostResetPulse (s : State) : State :=
  match s.boot.hostReset with
  | (reach, t) :: rest =>
    if t ≤ s.now then resetPulse { s with boot := { s.boot with hostReset := rest } } (if reach = 1 then 6 else 7) reach
    else s
  | [] => s

/-- ARMATURE_WATCHDOG_EXPIRY (R392): Armature, which runs, has not served its watchdog for 1 s. It serves it when a POR or SYSTEM reset
begins or is released, when an image of the boot verifies, and when a pack's verification ends. DESIGN CHOICE (log 248) -/
def armExpire (s : State) : State :=
  if !inReset s && s.boot.armAt + 1000000000 ≤ s.now then resetPulse s 3 1 else s

/-- A remote reset request is taken (R387, R449): only while REMOTE_EN is 1. -/
def remoteReset (s : State) (sys : Bool) : State :=
  if s.on R.RST_CTL_REMOTE_EN then resetPulse s (if sys then 8 else 9) (if sys then 1 else 2) else s

/-! ### The option block (R393, R394) -/

/-- The registers that show the option block's fields. -/
def optApply (s : State) (o : List Byte) : State :=
  let f := fun i n => hdr o i n
  let s := wrWords s R.RST_OPT (leWords o 16)
  let s := s.put R.HIF_STAT_IF (bit01 (f 1 1 == 1))
  let sv := if f 9 2 = 0 then 0x1EB4 else f 9 2
  let si := if f 11 2 = 0 then 0x0960 else f 11 2
  let s := s.wr R.HIF_PCI_SUBID (sv + 65536 * si)
  let s := (s.put R.PK_STAT_ID (f 4 1 % 8)).put R.PK_STAT_CLUSTER_EN (f 4 1 / 128)
  let cls := if 1 ≤ f 5 1 && f 5 1 ≤ 8 then f 5 1 else 4
  let s := (s.put R.PWR_PD_STAT_REQ cls).put R.PWR_STAT_AVS (bit01 (f 7 1 == 1))
  s.put R.PAT_CTL_POLICY (bit01 (f 8 1 == 1))

/-- The state machine reads the option block (R394). -/
def optRead (s : State) : State :=
  let a := s.bytes .otp 0 64
  let b := s.bytes .otp 0x40 64
  let s := ((s.clr R.RST_STAT_OPT_ERR).clr R.RST_STAT_OPT_BLANK).clr R.RST_STAT_OPT_COPY
  if optGood a then optApply s a
  else if optGood b then optApply (s.raise R.RST_STAT_OPT_COPY) b
  else
    let blank := otpBlank s 0 128
    optApply (if blank then s.raise R.RST_STAT_OPT_BLANK else s.raise R.RST_STAT_OPT_ERR) (List.replicate 64 0)

/-! ### Boot (R397 to R401) -/

/-- BOOT_SRC (R393). -/
def hostBooted (s : State) : Bool := bits (s.rd R.RST_OPT 0) 0 8 == 1

/-- Change the boot's record. -/
def State.modBoot (s : State) (f : BootSt → BootSt) : State := { s with boot := f s.boot }

/-- A copy of the boot record (R398): SEQ and the boot slot, if its CRC is right. The copy's layout beyond its contents is not
given: SEQ at 0, the slot at 4, the CRC at 8. DESIGN CHOICE -/
def bootCopy (s : State) (i : Nat) : Option (Nat × Nat) :=
  let b := s.bytes .flash (0x1000 * i) 12
  if fcsOk b then some (hdr b 0 4, hdr b 4 4 % 2) else none

/-- The boot record in force (R398). -/
def bootRecord (s : State) : Option (Nat × Nat) :=
  match bootCopy s 0, bootCopy s 1 with
  | some a, some b => if a.1 < b.1 then some b else some a
  | some a, none => some a
  | none, b => b

/-- The boot slot: A where no record is in force. DESIGN CHOICE -/
def bootSlot (s : State) : Nat := (bootRecord s).elim 0 (·.2)

/-- A COMMIT writes copy 0 and then copy 1 (R398). -/
def bootCommit (s : State) (slot : Nat) : State :=
  let seq := (bootRecord s).elim 1 fun r => r.1 + 1
  let b := leBytes 4 seq ++ leBytes 4 slot
  let bs := b ++ fcsOf b
  (s.setBytes .flash 0 bs).setBytes .flash 0x1000 bs

/-- The flash address of a slot. -/
def slotFlash (k : Nat) : Nat := if k = 0 then 0x100000 else 0x900000

/-- Whether Armature goes no further than boot step 4: in RETIRED (R408), and after a third tamper reset until POR (R421). -/
def bootEnds (s : State) : Bool := lcState s = 4 || s.on R.SEC_STAT_TAMPER_HOLD

/-- The boot ends there; in RETIRED with BOOT_FAIL. -/
def bootEnd (s : State) : State :=
  (if lcState s = 4 then s.raise R.RST_STAT_BOOT_FAIL else s).modBoot fun b => { b with phase := 7 }

/-- Armature waits for a host image (R400, R407). -/
def hostWait (s : State) : State :=
  if bootEnds s then bootEnd s
  else (fwHostBoot (s.raise R.RST_STAT_HBOOT_WAIT)).modBoot fun b => { b with phase := 6 }

/-- Armature is ready to take an image: from the boot slot, or from the host; none in RETIRED (R408) or in TAMPER_HOLD (R421). -/
def bootImage (s : State) : State :=
  if bootEnds s then bootEnd s
  else if hostBooted s then hostWait s
  else s.modBoot fun b => { b with phase := 2, slot := bootSlot s, second := false, fromHost := false }

/-- RESET_RELEASE (R389, R394, R386, R401): every source is released; for a CORE reset Armature turns to the image at once, and an
armed core swap takes effect; the secure bank stays locked where a life-cycle change is to be resumed. -/
def resetRelease (s : State) : State :=
  match s.boot.reach with
  | none => s
  | some reach =>
    if s.boot.phase != 0 || anySource s then s
    else
      let s := s.modBoot fun b => { b with phase := 1, releasedAt := s.now, armAt := if reach < 2 then s.now else b.armAt }
      if reach = 2 then
        let s := match s.pat.coreArm with
          | some k =>
            let s := (s.put R.PAT_AC_STATE 3 k).clr R.PAT_STAT_CORE_SWAP_ARMED
            subDone { s with pat := { s.pat with coreMap := tabSet 0 s.pat.coreMap k 4, coreArm := none } } false 0
          | none => s
        bootImage s
      else
        let s := secLoad (optRead s)
        if s.sec.lc.any fun c => !c.update then s.raise R.MEM_SEC_STAT_LOCKED else s

/-- The patch area's image (R417): verified and loaded into the secure bank, at offset 0x10000 (DESIGN CHOICE); no image where
there is no MAGIC. -/
def loadPatch (s : State) : State :=
  let n := s.mword .flash 0x8020 + 29792
  let img := s.bytes .flash 0x8000 (min n 0x18000)
  if s.mword .flash 0x8000 != 0x4B505A59 then s
  else if imgCode img = 0xFFFE && hdr img 0x24 4 = 0 && (imageCheck s img).isNone then
    (s.setBytes .secure 0x10000 img).raise R.SEC_STAT_PATCH_OK
  else s.raise R.SEC_STAT_PATCH_FAIL

/-- Armature's part of boot step 4 once no change is to be resumed (R416 to R418): the key record, the patch, its measurements, and
then the image. While the secure bank is being wiped it waits (R383). -/
def armStart (s : State) : State :=
  if s.on R.MEM_SEC_STAT_WIPING then s.modBoot fun b => { b with phase := 9 }
  else
    let s := keyLoad s
    let s := if keyRecBad s then s.raise R.SEC_STAT_KEYREC_ERR else s
    let s := loadPatch s
    let s := measure s 1 0 (digest (Config.romImage ++ if s.on R.SEC_STAT_PATCH_OK then s.bytes .secure 0x10000 0x18000 else []))
    let s := measure s 2 0 (digest ((List.range 16).flatMap fun i => leBytes 4 (s.rd R.RST_OPT i)))
    bootImage (measure s 3 (lcState s) (digest [BitVec.ofNat 8 (lcState s)]))

/-- MEMORY_READY (R384, R376, R68, R397 steps 3 and 4): mappings, spares to RETENTION, and Armature's start, which first resumes a
journaled change. -/
def memoryReady (s : State) : State :=
  if s.boot.phase != 1 || s.on R.MEM_STAT_READY then s
  else
    let s := (recordLoad s).raise R.MEM_STAT_READY
    let s := (s.raise R.CE_GSTAT_READY).raise R.FX_STAT_READY
    let s := (List.range 96).foldl (fun s b =>
      let st := if bankSpare s b then 1 else if s.on R.MEM_BK_STAT_RETIRED b then 2 else 0
      (s.put R.MEM_BK_STAT_STATE st b).put R.MEM_BK_PWR_STATE st b) s
    match s.sec.lc with
    | some c =>
      let s := ((if c.update then s else secureWipe s).raise R.RST_STAT_LC_RESUMED).raise R.SEC_STAT_LC_BUSY
      ({ s with sec := { s.sec with lc := some { c with resumed := true } } }).modBoot fun b => { b with phase := 8 }
    | none => armStart s

/-- A resumed change is complete, so the boot goes on (R401). -/
def bootResume (s : State) : State :=
  if s.boot.phase = 8 && s.sec.lc.isNone then armStart s else s

/-- SECURE_WIPE_DONE (R383): Armature's accesses are held no longer. -/
def secureWipeDone (s : State) : State :=
  let s := measureLate (wipeDone s)
  if s.boot.phase = 9 then armStart s else s

/-- LC_CHANGE_DONE (R410, R401). -/
def lcChangeDone (s : State) : State := bootResume (lcFinish s)

/-- BOOT_IMAGE_READ_DONE (R397 step 5): the slot's image stands in Atelier SRAM. -/
def imageRead (s : State) : State :=
  if s.boot.phase != 2 || s.on R.SEC_STAT_TAMPER_HOLD then s
  else
    let a := slotFlash s.boot.slot
    let n := s.mword .flash (a + 0x20) + 29792
    let m := min n 0x400000
    (agentWrite s .arm 0 (s.bytes .flash a m)).modBoot fun b => { b with phase := 3, len := n }

/-- The image that is to be verified, if its length can be right. -/
def bootBytes (s : State) : Option (List Byte) :=
  if s.boot.len ≤ 0x400000 then some (s.bytes .fabric 0 s.boot.len) else none

/-- Whether the image verifies (R397 step 6): checks 1 to 4 of R130, with PACK_CODE 0x0000; a slot whose update was never committed stays
invalid (R338, R402). -/
def bootOk (s : State) : Bool :=
  match bootBytes s with
  | some img => (imageCheck s img).isNone && imgCode img == 0 && (s.boot.fromHost || !s.boot.unfit.contains s.boot.slot)
  | none => false

/-- BOOT_VERIFY_DONE (R397 steps 6 and 7, R399, R400, R407). -/
def bootVerify (s : State) : State :=
  if s.boot.phase != 3 then s
  else if bootOk s then
    let s := if s.boot.reach = some 2 then fwCode s s.boot.len else fwInstall s s.boot.len
    let s := if s.boot.fromHost then s
      else (s.put R.RST_STAT_BOOT_SLOT s.boot.slot).put R.RST_STAT_FALLBACK (bit01 s.boot.second)
    (measure s 4 0 (imgMeas (s.bytes .fabric 0 s.boot.len))).modBoot fun b => { b with phase := 4, armAt := s.now }
  else if s.boot.fromHost then hostWait s
  else if s.boot.second then hostWait (s.raise R.RST_STAT_BOOT_FAIL)
  else s.modBoot fun b => { b with phase := 2, slot := 1 - b.slot, second := true }

/-- A write of RST_HBOOT_LEN (R400): while Armature waits, the window closes and the image is verified. -/
def hbootLength (s : State) (v : Nat) : State :=
  let s := s.regWrite R.RST_HBOOT_LEN v
  if s.on R.RST_STAT_HBOOT_WAIT then
    (fwClose (s.clr R.RST_STAT_HBOOT_WAIT) 0).modBoot fun b =>
      { b with phase := 3, fromHost := true, len := s.get R.RST_HBOOT_LEN_V }
  else s

/-! ### Block resets (R396) -/

/-- Whether the block of a class is idle. -/
def blockIdle (s : State) (cls i : Nat) : Bool :=
  match cls with
  | 1 => i < 48 && s.get R.CE_STAT_STATE i == 0
  | 2 => i < 24 && (s.get R.MAC_CTL_STATE i == 0 || s.get R.MAC_CTL_STATE i == 3) && (s.port i).txEnd ≤ s.now && !(s.port i).txOpen
  | 3 => i < 4 && s.on R.CAN_STAT_INIT i
  | 4 => i < 16 && !s.on R.RASP_U_CTL_EN i && !(s.unit i).run
  | 5 => i < 64 && s.on R.DQ_STAT_IDLE i
  | _ => false

/-- Whether a register is one of a block of a class: an engine's, a port's, a CAN controller's, a Rasp unit's, or a DMA
queue's. -/
def blockReg (cls : Nat) (r : Reg) : Bool :=
  match cls with
  | 1 => 0x40080000 ≤ r.base && r.base < 0x40080800
  | 2 => 0x40100000 ≤ r.base && r.base < 0x40101000
  | 3 => 0x40120000 ≤ r.base && r.base < 0x40130000
  | 4 => 0x400A0100 ≤ r.base && r.base < 0x400A0140
  | 5 => 0x40031000 ≤ r.base && r.base < 0x40031080
  | _ => false

/-- Carry out a block reset (R396): the columns of the block's registers, and what it holds beside them. -/
def blockReset (s : State) (cls i : Nat) : State :=
  let s := resetRow s (blockReg cls) i
  match cls with
  | 1 =>
    let keep := s.eng i
    let s := (s.zero (.imem i) 0 0x8000).zero (.dmem i) 0 0x2000
    s.setEng i { packSlot := keep.packSlot, attach := keep.attach, link := keep.link }
  | 2 =>
    let s := s.setPort i {}
    { s with sw := { s.sw with
      pause := (List.range 8).foldl (fun l c => tabSet {} l (8 * i + c) {}) s.sw.pause
      pwSince := tabSet 0 s.sw.pwSince i 0, pwUntil := tabSet 0 s.sw.pwUntil i 0 } }
  | 3 => s.setCb i {}
  | 4 => s.setUnit i { hold := (s.unit i).hold, t0 := (s.unit i).t0 }
  | 5 => s.setDq i {}
  | _ => s

/-- A request for a block reset (R396): refused while the block is not idle; whether it was carried out. -/
def blockRequest (s : State) (cls i : Nat) : State × Bool :=
  if blockIdle s cls i then ((blockReset s cls i).raise R.RST_BLK_STAT_DONE, true)
  else (s.raise R.RST_BLK_STAT_REFUSED, false)

/-- A write of RST_BLK_CTL (R396). -/
def blkCtlWrite (s : State) (v : Nat) : State :=
  let s := ((s.put R.RST_BLK_CTL_INDEX v).put R.RST_BLK_CTL_CLASS (bits v 8 4))
  if v.testBit 16 then (blockRequest (s.clr R.RST_BLK_STAT_DONE) (bits v 8 4) (bits v 0 8)).1 else s

end Sys2Proof.Machine
end

