-- ==== Sys2Proof/Machine/Bus.lean ====
section
/-! DEFINITION. The fabric as requesters see it (R4, R21 to R23, R37, R300, R303, R312, R380, R405, R406): the register that an
address names, who may write it, what a write of it does, the value that a read of it returns, and memory. -/
namespace Sys2Proof.Machine

/-- Whether a register found in the map is register `y` of the map. -/
def Reg.is (x y : Reg) : Bool := x.base == y.base

/-- Whether a register is one of a list. -/
def Reg.isOf (x : Reg) (l : List Reg) : Bool := l.any x.is

/-- A register as an address names it. -/
structure RegRef where
  reg : Reg
  i : Nat
  j : Nat
  k : Nat

/-- An ordinary write. -/
def plainWrite (s : State) (x : RegRef) (v : Nat) : State := s.regWrite x.reg v x.i x.j x.k

/-- A write that reaches only the W1C bits and counts of a register. -/
def clearWrite (s : State) (x : RegRef) (v : Nat) : State :=
  let old := s.rd x.reg x.i x.j x.k
  s.wr x.reg (x.reg.fields.foldl (fun w f =>
    if f.acc = .w1c || f.acc = .cnt then setBits w f.lo f.width (fieldWrite f old v) else w) old) x.i x.j x.k

/-- The value that MAC_MAXLEN takes (R214): 64 to 9,216, else the nearer end. -/
def maxLenTaken (v : Nat) : Nat := max 64 (min 9216 (v % 2 ^ 14))

/-- Take an effect only where a condition holds. -/
def onlyIf (b : Bool) (s t : State) : State := if b then t else s

/-! ### Writes, block by block -/

/-- RST (spec/17): Atelier and Armature; the host writes RST_CAUSE and, while Armature waits for it, RST_HBOOT_LEN. -/
def rstWrite (s : State) (r : Requester) (x : RegRef) (v : Nat) : State :=
  let own := isAtl r || isArm r
  if x.reg.is R.RST_CAUSE then onlyIf (own || isHost r) s (plainWrite s x v)
  else if x.reg.is R.RST_HBOOT_LEN then onlyIf (own || (isHost r && s.on R.RST_STAT_HBOOT_WAIT)) s (hbootLength s v)
  else if !own then s
  else if x.reg.is R.RST_AWD_CTL then awdCtlWrite s v
  else if x.reg.is R.RST_AWD_KICK then onlyIf (v.testBit 0) s (awdKick s)
  else if x.reg.is R.RST_BLK_CTL then blkCtlWrite s v
  else plainWrite s x v

/-- EVH (spec/15): sources from Atelier and Armature, a target's registers from its receiver; EVH_SWSET names no requester. -/
def evhWrite (s : State) (r : Requester) (x : RegRef) (v : Nat) : State :=
  let own := isAtl r || isArm r
  if x.reg.is R.EVH_SRC_CFG then onlyIf own s (evhRetarget s x.i v)
  else if x.reg.is R.EVH_MASK then onlyIf own s (evhMask s x.i v)
  else if x.reg.is R.EVH_REMOTE then onlyIf own s (plainWrite s x v)
  else if x.reg.is R.EVH_SWSET then evhEvent s (448 + v % 64)
  else if !mayTarget r x.i then s
  else if x.reg.is R.EVH_T_CLAIM then evhClaim s x.i (v % 512)
  else if x.reg.is R.EVH_T_EOI then evhEoi s x.i (v % 512)
  else plainWrite s x v

/-- MBX and HIF (spec/12): the host's own registers, those that both sides clear or enable, and Atelier's. -/
def hostWrite (s : State) (r : Requester) (x : RegRef) (v : Nat) : State :=
  let both := isAtl r || isHost r
  if x.reg.is R.HMB_DATA then onlyIf (hostSide r) s (hmbWrite s r x.i v)
  else if x.reg.is R.AMB_ACK then onlyIf (isHost r) s (ambAck s x.i v)
  else if x.reg.is R.HDB_SET then onlyIf (isHost r) s (hdbSet s v)
  else if x.reg.is R.ADB_CLR then onlyIf (isHost r) s (adbClr s v)
  else if x.reg.isOf [R.MSIX_ADDR_LO, R.MSIX_ADDR_HI, R.MSIX_DATA] then onlyIf (isHost r) s (plainWrite s x v)
  else if x.reg.is R.MSIX_CTL then onlyIf (isHost r) s (msixCtlWrite s x.i v)
  else if x.reg.isOf [R.ADB_MASK, R.MBX_HEVT_EN, R.MBX_REJ_EN, R.HMB_STAT, R.HMB_REJ, R.HIF_ERR, R.HIF_EVT, R.HIF_CHC_HIT,
      R.HIF_CHC_MISS, R.HIF_CHC_STALE] then onlyIf both s (plainWrite s x v)
  else if x.reg.is R.HIF_CHT_CTL then onlyIf both s (plainWrite s x (chtCtl s v))
  else if x.reg.is R.HIF_CHT_BASE_LO then onlyIf (both && chtOpen s) s (plainWrite s x (v / 4096 * 4096))
  else if x.reg.isOf [R.HIF_CHT_BASE_HI, R.HIF_CHT_N] then onlyIf (both && chtOpen s) s (plainWrite s x v)
  else if !isAtl r then s
  else if x.reg.is R.HMB_ACK then hmbAckWrite s x.i v
  else if x.reg.is R.AMB_DATA then ambWrite s x.i v
  else if x.reg.is R.HDB_CLR then hdbClr s v
  else if x.reg.is R.ADB_SET then adbSet s v
  else plainWrite s x v

/-- Who may start a queue by its doorbell (R361, spec/14, "Registers"): an engine's queue no host starts. -/
def mayRing (s : State) (r : Requester) (q : Nat) : Bool :=
  isAtl r || (isHost r && s.on R.DQ_CTL_HOST q && !s.on R.DQ_OWN_EN q)

/-- DMA (spec/14): Atelier; of a queue given to it the host writes the doorbell, the record queue's tail and W1C bits. -/
def dmaWrite (s : State) (r : Requester) (x : RegRef) (v : Nat) : State :=
  let host := isHost r && s.on R.DQ_CTL_HOST x.i && 0x40031000 ≤ x.reg.base
  if !isAtl r && !host then s
  else if x.reg.is R.DQ_DB then onlyIf (v.testBit 0 && mayRing s r x.i) s (dqStart s x.i)
  else if x.reg.is R.DQ_RQ_TAIL then rqTailWrite s x.i v
  else if !isAtl r then clearWrite s x v
  else if x.reg.is R.DQ_CTL then dqCtlWrite s x.i v
  else if x.reg.is R.DQ_RING_LO then plainWrite s x (v / 32 * 32)
  else if x.reg.is R.DQ_RQ_LO then plainWrite s x (v / 16 * 16)
  else if x.reg.is R.DQ_HEAD then onlyIf (!s.on R.DQ_CTL_EN x.i) s (plainWrite s x v)
  else if x.reg.is R.DQ_OWN then onlyIf (!ownsMore s x.i v) s (plainWrite s x v)
  else plainWrite s x v

/-- MEM (spec/16): Atelier and Patina; MEM_REMAP_CTL from Patina and Armature. -/
def memWrite (s : State) (r : Requester) (x : RegRef) (v : Nat) : State :=
  if x.reg.is R.MEM_REMAP_CTL then onlyIf (isPat r || isArm r) s (remapCtlWrite s v)
  else if !isAtl r && !isPat r then s
  else if x.reg.is R.MEM_BK_PWR then bankRequest s r x.i (v % 4)
  else plainWrite s x v

/-- TB (spec/06): Atelier and Armature; TB_SNAP and TB_TSF_POP from the host too. A domain's RATE and INTEG belong to the servo
in SERVO and STEPRATE. -/
def tbWrite (s : State) (r : Requester) (x : RegRef) (v : Nat) : State :=
  let own := isAtl r || isArm r
  if x.reg.is R.TB_SNAP then onlyIf ((own || isHost r) && v.testBit 0) s (tbSnap s)
  else if x.reg.is R.TB_TSF_POP then onlyIf ((own || isHost r) && v.testBit 0) s (tsfPop s)
  else if !own then s
  else if x.reg.is R.TB_CTL then refTrack (plainWrite s x v)
  else if x.reg.is R.TB_D_CTL then domCtlWrite s x.i v
  else if x.reg.is R.TB_D_LOAD then onlyIf (v.testBit 0) s (domLoad s x.i)
  else if x.reg.is R.TB_D_ADJ then domAdj s x.i v
  else if x.reg.is R.TB_D_MEAS then measWrite s x.i v
  else if x.reg.isOf [R.TB_D_RATE, R.TB_D_INTEG] then
    let m := s.get R.TB_D_CTL_MODE x.i
    onlyIf (m = 0 || m = 3) s (walkRefresh (plainWrite s x v))
  else if x.reg.is R.TB_WALK_CTL then walkCtlWrite s v
  else if x.reg.is R.TB_IG_CTL then igCtlWrite s x.i v
  else plainWrite s x v

/-- SS (spec/02): table writes and SS_AWR from Atelier. -/
def ssWrite (s : State) (r : Requester) (x : RegRef) (v : Nat) : State :=
  if x.reg.is R.SS_IND_CMD then
    if v % 4 = 1 then indRead s else if v % 4 = 2 then onlyIf (isAtl r) s (indWrite s) else s
  else if x.reg.is R.SS_HWR_HANDLE then wrPortWrite s false 0 (w32 v)
  else if x.reg.is R.SS_HWR_CTL then wrPortWrite s false 4 (w32 v)
  else if x.reg.is R.SS_HWR_DATA then wrPortWrite s false (0x80 + 4 * x.i) (w32 v)
  else if x.reg.is R.SS_AWR_HANDLE then onlyIf (isAtl r) s (wrPortWrite s true 0 (w32 v))
  else if x.reg.is R.SS_AWR_CTL then onlyIf (isAtl r) s (wrPortWrite s true 4 (w32 v))
  else if x.reg.is R.SS_AWR_DATA then onlyIf (isAtl r) s (wrPortWrite s true (0x80 + 4 * x.i) (w32 v))
  else if x.reg.is R.SS_CG_CTL then cgCtlWrite s x.i v
  else if x.reg.is R.SS_CG_CMT then onlyIf (v.testBit 0) s (cgCommand s x.i)
  else if x.reg.is R.SS_CG_DONE then cgDone s (.bus r) x.i (v % 256)
  else plainWrite s x v

/-- CE (spec/03): the registers that start, bind, time, load, migrate and play are Atelier's and Patina's;
unlocked debug halts and starts engines (R422). -/
def ceWrite (s : State) (r : Requester) (x : RegRef) (v : Nat) : State :=
  let own := isAtl r || isPat r
  if x.reg.is R.CE_SLACK_CLR then onlyIf (v.testBit 0) s (slackClear s x.i)
  else if x.reg.isOf [R.CE_LATE_CNT, R.CE_ERR] then plainWrite s x v
  else if x.reg.is R.CE_ERR_EN then engErrEnWrite s x.i v
  else if x.reg.is R.CE_CTL && (own || r == .debug) then engCtlWrite s x.i v
  else if !own then s
  else if x.reg.is R.CE_CYC then engCycWrite s x.i v
  else if x.reg.is R.CE_MIG_CTL then migCtlWrite s v
  else if x.reg.is R.CE_MQ_PORT then mqPortWrite s x.i v
  else if x.reg.is R.CE_LD_SEL then loaderSel s v
  else if x.reg.is R.CE_LD_DATA then loaderWrite s v
  else plainWrite s x v

/-- RASP (spec/11): Atelier; FIFOs and INJ under R298. -/
def raspWrite (s : State) (r : Requester) (x : RegRef) (v : Nat) : State :=
  if x.reg.is R.RASP_U_INJ then if raspMay s r x.i then raspInject s x.i (w32 v) else raspDeny s r
  else if x.reg.is R.RASP_U_PULL then if raspMay s r x.i then raspPull s x.i (w32 v) else raspDeny s r
  else if !isAtl r then s
  else if x.reg.is R.RASP_START then raspGo s v
  else if x.reg.is R.RASP_TW_DATA then raspTableWrite s (w32 v)
  else if x.reg.is R.RASP_U_CTL then raspCtlWrite s x.i v
  else if x.reg.is R.RASP_U_DIV then raspDivWrite s x.i v
  else plainWrite s x v

/-- SW and MAC (spec/08): Atelier. The operative gate list is not written (R234). -/
def swWrite (s : State) (r : Requester) (x : RegRef) (v : Nat) : State :=
  if !isAtl r then s
  else if x.reg.is R.SW_IND_CMD then
    match v % 8 with
    | 1 => swIndRead s
    | 2 => swIndWrite s
    | 3 => fdbInsert s
    | 4 => fdbDelete s
    | 5 => fdbLookup s
    | _ => s
  else if x.reg.is R.SW_P_RSV then rsvWrite s x.i v
  else if x.reg.is R.SW_GCL_CTL then gclCtlWrite s x.i v
  else if x.reg.is R.SW_GCL_A then onlyIf (s.on R.SW_GCL_STAT_OPER x.i) s (plainWrite s x v)
  else if x.reg.is R.SW_GCL_B then onlyIf (!s.on R.SW_GCL_STAT_OPER x.i) s (plainWrite s x v)
  else if x.reg.is R.MAC_CTL then macCtlWrite s x.i v
  else if x.reg.is R.MAC_MAXLEN then plainWrite s x (maxLenTaken v)
  else plainWrite s x v

/-- CAN (spec/09): an owned controller's buffers and FIFO are Atelier's (R256); timing and filters change in INIT (R254). -/
def canWrite (s : State) (r : Requester) (x : RegRef) (v : Nat) : State :=
  let n := x.i
  if x.reg.isOf [R.TXB_ID, R.TXB_FMT, R.TXB_AF, R.TXB_CTL, R.TXB_STAT, R.CAN_TX_DATA, R.CAN_RX_POP] && !canMay s r n then s
  else if x.reg.is R.CAN_CTL then canCtlWrite s n v
  else if x.reg.is R.TXB_ID then txbId s n x.j v
  else if x.reg.isOf [R.TXB_FMT, R.TXB_AF] then txbWrite s n x.j fun s => plainWrite s x v
  else if x.reg.is R.TXB_CTL then txbCtlWrite s n x.j v
  else if x.reg.is R.CAN_TX_DATA then txbData s n x.j x.k v
  else if x.reg.is R.CAN_RX_POP then onlyIf (v.testBit 0) s (canPop s n)
  else if x.reg.isOf [R.CAN_NBT, R.CAN_DBT, R.CAN_TDC, R.CAN_PWM, R.CAN_FLT] then
    onlyIf (s.on R.CAN_STAT_INIT n) s (plainWrite s x v)
  else plainWrite s x v

/-- FX (spec/10): Atelier; the host pops edges and, under HOST_SCH, writes schedules. -/
def fxWrite (s : State) (r : Requester) (x : RegRef) (v : Nat) : State :=
  if x.reg.is R.FX_EDGE_POP then onlyIf ((isAtl r || isHost r) && v.testBit 0) s (edgePop s)
  else if x.reg.is R.FX_CH_SCH_CTL then onlyIf (schMay s r x.i) s (schArm s x.i x.j v)
  else if x.reg.is R.FX_CH_SCH_TIME then onlyIf (schMay s r x.i) s (plainWrite s x v)
  else if !isAtl r then s
  else if x.reg.is R.FX_CH_CFG then fxCfgWrite s x.i v
  else if x.reg.is R.FX_CH_CMD then fxCmdWrite s x.i v
  else if x.reg.is R.FX_GRP_CTL then grpCtlWrite (if v.testBit 1 then vlpTaken s x.i else s) x.i v
  else if x.reg.is R.FX_HOLD_RELEASE then onlyIf (v.testBit 0) s (holdRelease s)
  else plainWrite s x v

/-- PK (spec/20): Atelier; the second remote-access port is the host's. -/
def pkWrite (s : State) (r : Requester) (x : RegRef) (v : Nat) : State :=
  let ra := x.reg.isOf [R.PK_RA_ADDR, R.PK_RA_DATA, R.PK_RA_CMD] && x.i == 1
  if (if ra then !isHost r else !isAtl r) then s
  else if x.reg.isOf [R.PK_RA_ADDR, R.PK_RD_LOCAL, R.PK_RD_REMOTE] then plainWrite s x (v / 4 * 4)
  else if x.reg.is R.PK_CTL then pkCtlWrite s v
  else if x.reg.is R.PK_RA_CMD then raCmdWrite s x.i v
  else if x.reg.is R.PK_RD_CTL then rdCtlWrite s x.i v
  else if x.reg.is R.PK_RRST then rrstWrite s v
  else if x.reg.is R.PK_L_CTL then pkLinkCtl s x.i v
  else plainWrite s x v

/-- PAT (spec/19): Atelier. -/
def patWrite (s : State) (r : Requester) (x : RegRef) (v : Nat) : State :=
  if !isAtl r then s
  else if x.reg.is R.PAT_SHARE then shareWrite s v
  else if x.reg.is R.PAT_TEL_BASE then plainWrite s x (v / 256 * 256)
  else plainWrite s x v

/-- PWR (spec/21): Atelier. A change of PWR_PD_CTL that takes BUDGET in or out of effect gives the request its target. -/
def pwrWrite (s : State) (r : Requester) (x : RegRef) (v : Nat) : State :=
  if !isAtl r then s
  else if x.reg.is R.PWR_CTL then pwrCtlWrite s v
  else if x.reg.is R.PWR_BUDGET then budgetWrite s v
  else if x.reg.is R.PWR_PD_CTL then
    pwrFollow s (plainWrite s x v)
  else plainWrite s x v

/-- SEC (R403, R405, R407): Armature writes the firewall's registers, which every other requester reads only. -/
def secWrite (s : State) (x : RegRef) (v : Nat) : State :=
  if x.reg.isOf [R.SEC_FW_R_BASE, R.SEC_FW_R_LIMIT] then s.wr x.reg v x.i
  else if x.reg.is R.SEC_FW_R_PERM then s.wr R.SEC_FW_R_PERM (v % 256 + 2 ^ 31 * bit01 (v.testBit 31)) x.i
  else if x.reg.is R.SEC_FW_DEFAULT then s.wr R.SEC_FW_DEFAULT (v % 256)
  else plainWrite s x v

/-- A write of a register that the firewall has passed, by the rules of its block. -/
def blockWrite (s : State) (r : Requester) (x : RegRef) (v : Nat) : State :=
  match x.reg.base / 0x10000 with
  | 0x4000 => rstWrite s r x v
  | 0x4001 => evhWrite s r x v
  | 0x4002 => hostWrite s r x v
  | 0x4003 => dmaWrite s r x v
  | 0x4004 => memWrite s r x v
  | 0x4005 => tbWrite s r x v
  | 0x4006 => ssWrite s r x v
  | 0x4008 => ceWrite s r x v
  | 0x4009 => ceWrite s r x v
  | 0x400A => raspWrite s r x v
  | 0x400B => swWrite s r x v
  | 0x400C => swWrite s r x v
  | 0x400F => swWrite s r x v
  | 0x4010 => swWrite s r x v
  | 0x4012 => canWrite s r x v
  | 0x4013 => fxWrite s r x v
  | 0x4014 => pkWrite s r x v
  | 0x4015 => patWrite s r x v
  | 0x4016 => hostWrite s r x v
  | 0x4017 => pwrWrite s r x v
  | _ => onlyIf (isArm r) s (secWrite s x v)

/-! ### Reads -/

/-- A number whose bit `i` tells whether `p i` holds. -/
def flags (n : Nat) (p : Nat → Bool) : Nat := (numsWhere n p).foldl (fun a i => a + 2 ^ i) 0

/-- Whether an entry of the channel cache is pinned (R321): by its PIN bit, a running stream, or an instance not stopped. -/
def chPinned (s : State) (x : ChEntry) : Bool :=
  (hdr x.bytes 2 2).testBit 1 || s.cmd.streams.any (·.ch == x.ch)
    || !(instWhere s fun i => i.st != 0 && i.ch == x.ch).isEmpty

/-- The physical engines that carry no logical one, in ascending order (spec/03, "Registers"). -/
def looseEngines (s : State) : List Nat := numsWhere 52 fun p => (List.range 48).all fun e => s.get R.CE_MAP_PHYS e != p

/-- The registers of the host interface that belong to PCIe, and to the quad-SPI bus (R300). -/
def pcieRegs : List Reg :=
  [R.HIF_CPL_TO, R.HIF_TAGS, R.HIF_PCI_ID, R.HIF_PCI_SUBID, R.MSIX_ADDR_LO, R.MSIX_ADDR_HI, R.MSIX_DATA, R.MSIX_CTL,
    R.MSIX_PBA]

/-- The mask that a WAIT in progress names. -/
def waitMask (x : Eng) : Nat :=
  match x.wait with
  | .lines m _ _ _ => m.toNat
  | _ => 0

/-- The value of a register that is computed from other state when it is read; none for a register that holds it. -/
def derived (s : State) (x : RegRef) : Option Nat :=
  let i := x.i
  if x.reg.is R.EVH_T_PEND then some (evhPendWord s i x.j)
  else if x.reg.is R.EVH_T_SUMMARY then some (evhSummary s i)
  else if x.reg.is R.EVH_SRC_CFG then
    some (setBits (s.rd R.EVH_SRC_CFG i) 16 1 (bit01 (isLevelSource i && levelNow s i)))
  else if x.reg.is R.EVH_T_STAT then some (setBits (s.rd R.EVH_T_STAT i) 0 1 (bit01 (asleep s i)))
  else if x.reg.is R.TB_WALK_REM then some (walkRem s)
  else if x.reg.is R.SS_NITEMS then some (s.store.items.filter fun p => itValid p.2).length
  else if x.reg.is R.SS_NCASTS then some (s.store.casts.filter fun p => caValid p.2).length
  else if x.reg.is R.SS_CG_NITEMS then some (cgItems s i)
  else if x.reg.is R.CE_PC then some (s.eng i).pc.toNat
  else if x.reg.is R.CE_WAITMASK then some (waitMask (s.eng i))
  else if x.reg.is R.CE_STAT then
    some (setBits (s.rd R.CE_STAT i) 3 1 (bit01 ((winPort s i false).elim false (inMaquette s)
      || (winPort s i true).elim false (inMaquette s))))
  else if x.reg.is R.RASP_EVT then some (raspEvt s)
  else if x.reg.is R.RASP_U_STAT then some (raspStat s i)
  else if x.reg.is R.RASP_U_SR then some (s.unit i).sr.toNat
  else if x.reg.is R.RASP_U_CNT then some (s.unit i).cnt.toNat
  else if x.reg.is R.GPIO_PIN then some (setBits (s.rd R.GPIO_PIN i) 16 1 (bit01 (pinLevel s i)))
  else if x.reg.is R.CAN_RX_DATA then some (canRxWord s i x.j)
  else if x.reg.is R.DMA_EVT_SUM0 then some (dmaEvtSum s 0)
  else if x.reg.is R.DMA_EVT_SUM1 then some (dmaEvtSum s 1)
  else if x.reg.is R.HIF_TAGS then some (min 256 (tagsUsed s))
  else if x.reg.is R.HIF_CHC_STAT then
    some (s.cmd.cache.length + 2 ^ 16 * (s.cmd.cache.filter (chPinned s)).length)
  else if x.reg.is R.MEM_STAT then some (setBits (s.rd R.MEM_STAT) 1 1 (bit01 (bankInits s)))
  else if x.reg.is R.RST_AWD_LEFT then some (awdLeft s)
  else if x.reg.is R.RST_IDLE_CE_LO then some (flags 32 fun n => blockIdle s 1 n)
  else if x.reg.is R.RST_IDLE_CE_HI then some (flags 16 fun n => blockIdle s 1 (32 + n))
  else if x.reg.is R.RST_IDLE_MAC then some (flags 24 fun n => blockIdle s 2 n)
  else if x.reg.is R.RST_IDLE_MISC then
    some (flags 4 (fun n => blockIdle s 3 n) + 2 ^ 16 * flags 16 fun n => blockIdle s 4 n)
  else if x.reg.is R.RST_IDLE_DQ_LO then some (flags 32 fun n => blockIdle s 5 n)
  else if x.reg.is R.RST_IDLE_DQ_HI then some (flags 32 fun n => blockIdle s 5 (32 + n))
  else none

/-- Whether a register belongs to the host interface that HOST_IF does not select (R300). -/
def unselected (s : State) (x : Reg) : Bool :=
  if s.on R.HIF_STAT_IF then x.isOf pcieRegs else x.is R.HIF_SPI_LAST

/-- A read of a register: its value, and what the read does to the device. -/
def blockRead (s : State) (r : Requester) (x : RegRef) : State :=
  if unselected s x.reg then s.answer 0
  else if x.reg.is R.TB_FRC_LO then frcRead s r
  else if x.reg.is R.TB_FRC_HI then s.answer (tabGet 0 s.time.frcHi (frcLatch r)).toNat
  else if x.reg.is R.CE_LD_DATA then loaderRead s
  else if x.reg.is R.RASP_TW_DATA then raspTableRead s
  else if x.reg.is R.PWR_VREQ then
    let t := voltsRead s
    t.answer (t.rd R.PWR_VREQ)
  else if x.reg.is R.MEM_REMAP_STAT then
    let t := remapSeen s
    t.answer (t.rd R.MEM_REMAP_STAT)
  else if x.reg.isOf [R.FX_GRP_VLP, R.FX_GRP_ILP, R.FX_CH_CUR] then
    let t := if x.reg.is R.FX_GRP_VLP then vlpTaken s x.i else if x.reg.is R.FX_GRP_ILP then ilpTaken s x.i else loadTaken s x.i
    t.answer (t.rd x.reg x.i)
  else if x.reg.is R.RASP_U_PUSH then
    if raspMay s r x.i then
      let p := raspPush s x.i
      p.1.answer p.2.toNat
    else raspDeny (s.answer 0) r
  else match derived s x with
    | some v => s.answer v
    | none => s.answer (regReadWord x.reg (s.rd x.reg x.i x.j x.k))

/-! ### Addresses -/

/-- The register that an address names. -/
def regRef (a : Nat) : Option RegRef := (regAt a).map fun x => ⟨x.1, x.2.1, x.2.2.1, x.2.2.2⟩

/-- The frames of the physical engines that carry no logical one (spec/03, "Registers"). -/
def inSpareFrames (a : Nat) : Bool := 0x40098000 ≤ a && a < 0x4009A000 && (a - 0x40098000) % 0x800 ≤ 0x58

/-- The word that a spare frame shows: STATE SPARE, or RETIRED, and zeros. -/
def spareFrameWord (s : State) (a : Nat) : Nat :=
  if (a - 0x40098000) % 0x800 = 4 then
    match (looseEngines s)[(a - 0x40098000) / 0x800]? with
    | some p => if s.get R.PAT_CE_STATE p = 3 then 7 else 6
    | none => 0
  else 0

/-- Whether the map assigns an address (R21, R23); reserved offsets of a block are not assigned. -/
def assigned (s : State) (a : Nat) : Bool :=
  if inBlocks a then inSpareFrames a || (regRef (a / 4 * 4)).isSome else (memOpen s a).isSome

/-- A write of bytes that the firewall has passed (R4, R23, R37). -/
def passedWrite (s : State) (r : Requester) (a : Nat) (bs : List Byte) : State :=
  if inBlocks a then
    if inSpareFrames a then s
    else match regRef (a / 4 * 4) with
      | none => addrErr s r
      | some x => if bs.length = 4 && a % 4 = 0 then blockWrite s r x (leNat bs) else s
  else fabWrite s r a bs

/-- A write to the fabric: whether it reaches the device (R22, R306), the firewall (R405), then the address. -/
def busWrite (s : State) (r : Requester) (a : Nat) (bs : List Byte) : State :=
  if !reaches s r a then s
  else if fwSpan s r true a bs.length then passedWrite { s with bus := {} } r a bs
  else fwRefuse s r a

/-- A read of `n` bytes that the firewall has passed: the bytes, and the state after it. -/
def passedRead (s : State) (r : Requester) (a n : Nat) : State × List Byte :=
  let zeros := List.replicate n (0 : Byte)
  if inBlocks a then
    if n != 4 || a % 4 != 0 then
      (if assigned s a then s.answer 0 else (addrErr s r).answer 0, zeros)
    else if inSpareFrames a then
      let s := s.answer (spareFrameWord s a)
      (s, leBytes 4 s.bus.rdata.toNat)
    else match regRef a with
      | none => ((addrErr s r).answer 0, zeros)
      | some x =>
        let s := blockRead s r x
        (s, leBytes 4 s.bus.rdata.toNat)
  else match memSpan s a n with
    | none => ((addrErr s r).answer 0, zeros)
    | some s =>
      let bs := s.bytes .fabric a n
      (s.answer (leNat bs), bs)

/-- A read from the fabric. -/
def busRead (s : State) (r : Requester) (a n : Nat) : State × List Byte :=
  if !reaches s r a then (s, List.replicate n 0)
  else if fwSpan s r false a n then passedRead s r a n
  else (fwRefuse s r a, List.replicate n 0)

/-- The bytes of an access. -/
def widthBytes : Width → Nat
  | .b8 => 1
  | .b16 => 2
  | .b32 => 4
  | .b64 => 8

/-- REGISTER_WRITE (R4, R21 to R23, R37, R303, R405, R406). -/
def execRegisterWrite (r : Requester) (w : Width) (a v : Word) (s : State) : Host.Outcome State Fault Refusal :=
  .next (busWrite s r a.toNat (leBytes (widthBytes w) v.toNat))

/-- ADDRESS_ERROR (R23): an access to an address that the map does not assign; to an assigned one it is no such access. -/
def execAddressError (r : Requester) (wr : Bool) (a : Word) (s : State) : Host.Outcome State Fault Refusal :=
  .next (if assigned s a.toNat then s
    else if wr then busWrite s r a.toNat (leBytes 4 0) else (busRead s r a.toNat 4).1)

end Sys2Proof.Machine
end

