-- ==== Sys2Proof/Machine/CmdOps.lean ====
section
/-! DEFINITION. Atelier's command service (R318 to R323, R324 to R328, R335): commands from mailboxes, the channel table and its
cache, parameter areas, batches, and configuration records. -/
namespace Sys2Proof.Machine

/-- Whether a life-cycle change is in progress (R339). -/
def lcBusy (s : State) : Bool := s.sec.lc.isSome

/-! ### The channel table (R318 to R322) -/

/-- The space of the table, parameter areas and buffers (R318). -/
def chtSpace (s : State) : Space := if s.on R.HIF_CHT_CTL_LOC then .fabric else .host

/-- Whether the device can read that space (R305). -/
def chtUp (s : State) : Bool := s.on R.HIF_CHT_CTL_LOC || hostMemUp s

/-- An address as the space has it: fabric addresses have 32 bits (R21). -/
def chtAddr (s : State) (a : Nat) : Nat := if s.on R.HIF_CHT_CTL_LOC then a % 2 ^ 32 else a

/-- Bytes of the table, of a parameter area or of a buffer: device memory is read as Atelier reads it (R318, R405). -/
def parBytes (s : State) (a n : Nat) : List Byte :=
  if s.on R.HIF_CHT_CTL_LOC then agentBytes s (.atl 0) a n else s.bytes .host a n

/-- What that read does to the machine (R380, R406). -/
def parOpen (s : State) (a n : Nat) : State := if s.on R.HIF_CHT_CTL_LOC then agentOpen s (.atl 0) a n else s

/-- Write such bytes. -/
def parWrite (s : State) (a : Nat) (bs : List Byte) : State :=
  if s.on R.HIF_CHT_CTL_LOC then agentWrite s (.atl 0) a bs else s.setBytes .host a bs

/-- Write words. -/
def parWords (s : State) (a : Nat) (ws : List Nat) : State := parWrite s a (ws.flatMap (leBytes 4))

/-- The place of entry `c` of the table. -/
def entryPlace (s : State) (c : Nat) : Nat := chtAddr s (s.get64 R.HIF_CHT_BASE_LO R.HIF_CHT_BASE_HI + 64 * c)

/-- Entry `c` of the table. -/
def entryAt (s : State) (c : Nat) : List Byte := parBytes s (entryPlace s c) 64

/-- What reading an entry does to the machine. -/
def entryOpen (s : State) (c : Nat) : State := parOpen s (entryPlace s c) 64

/-- The fields of an entry (R319). -/
def chType (b : List Byte) : Nat := hdr b 0x00 1
def chGen (b : List Byte) : Nat := hdr b 0x01 1
def chFlag (b : List Byte) (k : Nat) : Bool := (hdr b 0x02 2).testBit k
def chDb (b : List Byte) : Nat := bits (hdr b 0x02 2) 3 5
def chAddr (b : List Byte) : Nat := hdr b 0x08 8
def chLen (b : List Byte) : Nat := hdr b 0x10 4
def chCg (b : List Byte) : Nat := hdr b 0x14 1
def chDq (b : List Byte) : Nat := hdr b 0x15 1
def chNbuf (b : List Byte) : Nat := hdr b 0x16 2
def chBuf (b : List Byte) : Nat := hdr b 0x18 8
def chStride (b : List Byte) : Nat := hdr b 0x20 4
def chFirst (b : List Byte) : Nat := hdr b 0x24 4
def chItems (b : List Byte) : Nat := hdr b 0x28 4

/-- The place of a channel's parameter area. -/
def parAddr (s : State) (b : List Byte) : Nat := chtAddr s (chAddr b)

/-- The cached copy of an entry. -/
def cached (s : State) (c : Nat) : Option (List Byte) := (s.cmd.cache.find? fun e => e.ch == c).map (·.bytes)

/-- Replace the cache. -/
def State.setCache (s : State) (l : List ChEntry) : State := { s with cmd := { s.cmd with cache := l } }

/-! ### Commands in order (R342, R343) -/

/-- Whether the command of mailbox `n` waits for an earlier one that names its channel (R342). -/
def chanBusy (s : State) (earlier : List Nat) (n : Nat) : Bool :=
  chanOps.contains (hmbOp s n) && earlier.any fun m => chanOps.contains (hmbOp s m) && hmbCh s m == hmbCh s n

/-- The commands accepted before that of mailbox `n` and not yet acknowledged. -/
def earlierThan (s : State) (n : Nat) : List Nat := s.cmd.order.takeWhile fun m => m != n

/-- The opcodes of packs, of store batches and of configuration commands (R329). -/
def packOps : List Nat := [0x10, 0x11, 0x12, 0x13]
def storeOps : List Nat := [0x18, 0x19, 0x1A, 0x1B, 0x1C]
def cfgOps : List Nat := [0x20, 0x21, 0x22, 0x23, 0x24, 0x28]

/-- The registers that the records of a configuration command name which are still to be applied (R335, R343). -/
def recordRegs (s : State) (n : Nat) : List Nat :=
  let b := (cached s (hmbCh s n)).getD (entryAt s (hmbCh s n))
  let r := match s.job n with
    | .record a i _ => (a, i)
    | _ => (parAddr s b, 0)
  (List.range (hmbArg s n - r.2)).map fun i => leNat (parBytes s (r.1 + 16 * (r.2 + i)) 4)

/-- Whether the command of mailbox `n` waits for an earlier one that is in progress and acts on the same object (R343): a pack slot or
instance, an item, group or cast run, a register named by a record. Where the object is known only when the earlier command runs, it
waits for any of that kind. DESIGN CHOICE (log 247) -/
def objBusy (s : State) (earlier : List Nat) (n : Nat) : Bool :=
  let op := hmbOp s n
  earlier.any fun m =>
    let p := hmbOp s m
    let untaken := decide (s.job m = .none)
    (storeOps.contains op && storeOps.contains p && untaken)
      || (packOps.contains op && packOps.contains p && (untaken || (p == 0x10 && op != 0x10)))
      || (cfgOps.contains op && cfgOps.contains p && (recordRegs s n).any fun a => (recordRegs s m).contains a)
      || (op == 0x58 && cfgOps.contains p)

/-- Whether the command of mailbox `n` waits for an earlier one (R342, R343). -/
def mustWait (s : State) (n : Nat) : Bool :=
  chanBusy s (earlierThan s n) n || objBusy s (earlierThan s n) n

/-- Whether Atelier takes the command of mailbox `n` next (R315, R342, R343): in acceptance order, passing those that wait for their
channel or their object. -/
def canTake (s : State) (n : Nat) : Bool :=
  !s.on R.HIF_STAT_ATL_RESTART && s.on R.HMB_STAT_FULL n && s.cmd.order.contains n && decide (s.job n = .none)
    && !mustWait s n && (earlierThan s n).all fun m => decide (s.job m ≠ .none) || mustWait s m

/-- Atelier takes the command of mailbox `n` where it is of opcode `op` (R342). -/
def takeCmd (s : State) (n op : Nat) (f : State → State) : State :=
  if canTake s n && hmbOp s n == op then f s else s

/-- A command without a channel that a life-cycle change turns away (R326, R339). -/
def plainCmd (s : State) (n op : Nat) (f : State → State) : State :=
  takeCmd s n op fun s => if lcBusy s then ack s n stBusy 0 else f s

/-! ### The cache (R321, R322) -/

/-- Invalidate a cached copy. -/
def cacheDrop (s : State) (c : Nat) : State := s.setCache (s.cmd.cache.filter fun e => e.ch != c)

/-- A cached copy is used: it is the most recently used one. -/
def cacheUse (s : State) (c : Nat) (b : List Byte) : State :=
  let s := cacheDrop s c
  s.setCache (s.cmd.cache ++ [⟨c, b⟩])

/-- Remove the first entry that satisfies a test. -/
def dropFirst (p : ChEntry → Bool) : List ChEntry → List ChEntry
  | [] => []
  | e :: l => if p e then l else e :: dropFirst p l

/-- An entry is loaded (R321): a full cache evicts its least recently used unpinned entry. -/
def cacheLoad (s : State) (c : Nat) (b : List Byte) : State :=
  let s := cacheDrop (s.addSat R.HIF_CHC_MISS_V 1) c
  let s := if s.cmd.cache.length < 256 then s else s.setCache (dropFirst (fun e => !chPinned s e) s.cmd.cache)
  s.setCache (s.cmd.cache ++ [⟨c, b⟩])

/-- The number of pinned entries (R321). -/
def pinCount (s : State) : Nat := (s.cmd.cache.filter (chPinned s)).length

/-- Whether a running stream or an instance that is not stopped holds a channel's entry (R321, R322). -/
def chHeld (s : State) (c : Nat) : Bool :=
  s.cmd.streams.any (·.ch == c) || !(instWhere s fun i => i.st != 0 && i.ch == c).isEmpty

/-- Whether one more entry can be pinned (R321). -/
def canPin (s : State) (c : Nat) : Bool :=
  decide (pinCount s < 192) || s.cmd.cache.any fun e => e.ch == c && chPinned s e

/-- A command on an entry with RING = 1 rings ADB bit DB when it is acknowledged (R319). -/
def ringOn (s : State) (n : Nat) (b : List Byte) : State :=
  if chFlag b 2 then { s with cmd := { s.cmd with ring := tabSet 0 s.cmd.ring n (chDb b + 1) } } else s

/-- The checks of a command on the entry it uses, in their order (R326, R318, R322, R305, R339, R321), then the command's own. -/
def withEntry (s : State) (n c : Nat) (b : List Byte) (types : List Nat) (need : Nat) (f : State → List Byte → State) : State :=
  let s := ringOn s n b
  let s := if s.on R.HIF_CHT_CTL_CHECK_GEN && !chHeld s c then entryOpen s c else s
  let gen := s.on R.HIF_CHT_CTL_CHECK_GEN && !chHeld s c
  if !types.contains (chType b) then ack s n stBadCh 0
  else if gen && !chtUp s then ack s n stTimeout 0
  else if gen && chGen (entryAt s c) != chGen b then
    ack (cacheDrop (s.addSat R.HIF_CHC_STALE_V 1) c) n stStale 0
  else if chLen b < need then ack s n stBadState 0
  else if need != 0 && !chtUp s then ack s n stTimeout 0
  else if lcBusy s && hmbOp s n != 0x30 then ack s n stBusy 0
  else f (parOpen s (parAddr s b) need) b

/-- A command with a channel whose TYPE is one of `types` and which needs `need` bytes of parameters (R318, R321, R326). An
entry that is invalid, or of a TYPE that the command does not accept, is not cached (R327). DEDUCED -/
def chanCmd (s : State) (n op : Nat) (types : List Nat) (need : Nat) (f : State → List Byte → State) : State :=
  takeCmd s n op fun s =>
    let c := hmbCh s n
    if !s.on R.HIF_CHT_CTL_EN then ack s n stBadState 0
    else if s.get R.HIF_CHT_N_V ≤ c then ack s n stBadCh 0
    else match cached s c with
      | some b => withEntry (cacheUse (s.addSat R.HIF_CHC_HIT_V 1) c b) n c b types need f
      | none =>
        let s := entryOpen s c
        if !chtUp s then ack s n stTimeout 0
        else if !chFlag (entryAt s c) 0 then ack (s.addSat R.HIF_CHC_MISS_V 1) n stBadCh 0
        else if !types.contains (chType (entryAt s c)) then
          ack (ringOn (s.addSat R.HIF_CHC_MISS_V 1) n (entryAt s c)) n stBadCh 0
        else
          let t := cacheLoad s c (entryAt s c)
          if 192 < pinCount t then withEntry (cacheDrop t c) n c (entryAt s c) types need fun s _ => ack s n stNoResource 0
          else withEntry t n c (entryAt s c) types need f

/-! ### Parameter areas and batches (R327, R328) -/

/-- What becomes of an entry of a batch: applied, with what it adds to the acknowledge's value; refused; or it waits. -/
inductive EntryRes where
  | applied (s : State) (count : Nat)
  | failed (status : Nat)
  | waits

/-- A batch (R328): `todo` entries of `size` bytes from entry `i` on, with the STATUS byte at `stat`; `sum` is the value so far. -/
def batch (n a size stat : Nat) (f : State → Nat → List Byte → EntryRes) : Nat → Nat → Nat → State → State
  | 0, _, sum, s => ack s n stOk (min sum 0xFFFF)
  | todo + 1, i, sum, s =>
    match f s (a + size * i) (parBytes s (a + size * i) size) with
    | .applied t k => batch n a size stat f todo (i + 1) (sum + k) t
    | .waits => s.setJob n (.record a i s.now)
    | .failed st =>
      let s := parWrite s (a + size * i + stat) [BitVec.ofNat 8 st]
      if i = 0 then ack s n st 0 else ack s n stPartial i

/-- A command that is a batch of ARG entries (R328). -/
def batchCmd (s : State) (n op size stat : Nat) (f : State → Nat → List Byte → EntryRes) : State :=
  chanCmd s n op [1] (size * hmbArg s n) fun s b =>
    if hmbArg s n = 0 then ack s n stBadState 0
    else batch n (parAddr s b) size stat f (hmbArg s n) 0 0 s

/-! ### Configuration records (R335) -/

/-- The addresses that a configuration command accepts. -/
def cfgRange (op a : Nat) : Bool :=
  match op with
  | 0x20 => (0x40100000 ≤ a && a < 0x40118000) || (0x40050400 ≤ a && a < 0x40050540)
  | 0x21 => 0x400B0000 ≤ a && a < 0x40100000
  | 0x22 => 0x40050000 ≤ a && a < 0x40060000
  | 0x23 => 0x40120000 ≤ a && a < 0x40130000
  | 0x24 => 0x400A0000 ≤ a && a < 0x400B0000
  | _ => (0x40130000 ≤ a && a < 0x40140000) || (0x40170800 ≤ a && a < 0x40170810)

/-- The registers of a port's gate list, and of a generator. -/
def gclRegs : List Reg :=
  [R.SW_GCL_CTL, R.SW_GCL_BASE_LO, R.SW_GCL_BASE_HI, R.SW_GCL_CYCLE, R.SW_GCL_LEN, R.SW_GCL_CHG_LO, R.SW_GCL_CHG_HI,
    R.SW_GCL_STAT, R.SW_GCL_A, R.SW_GCL_B]
def igRegs : List Reg :=
  [R.TB_IG_CTL, R.TB_IG_START_LO, R.TB_IG_START_HI, R.TB_IG_PERIOD, R.TB_IG_PFRAC, R.TB_IG_WIDTH, R.TB_IG_NEXT_LO,
    R.TB_IG_NEXT_HI, R.TB_IG_CNT, R.TB_IG_SKIP, R.TB_IG_STAT]

/-- A register that a WRITE or MODIFY may not name (R335). -/
def cfgDenied (s : State) (x : RegRef) : Bool :=
  x.reg.is R.SW_P_OWN
    || ((x.reg.is R.MAC_CTL || x.reg.isOf gclRegs) && (instOfPort s x.i).isSome)
    || (x.reg.isOf igRegs && (instOfIg s x.i).isSome)
    || (blockReg 3 x.reg && s.on R.CAN_CTL_OWNER_EN x.i)
    || (blockReg 4 x.reg && s.on R.RASP_U_CTL_OWNER_EN x.i)

/-- Atelier's write of a record, with the two exceptions of R335. -/
def cfgWrite (s : State) (x : RegRef) (v : Nat) : State :=
  let put := fun (s : State) (v : Nat) => blockWrite s (.atl 0) x v
  if x.reg.is R.MAC_CTL && s.get R.MAC_CTL_STATE x.i != 0 && s.get R.MAC_CTL_MODE x.i != bits v 4 3 then
    put (put (put s (setBits (s.rd R.MAC_CTL x.i) 0 2 0)) (setBits v 0 2 0)) v
  else if x.reg.is R.FX_CH_CFG && fxMode s x.i != 0
      && (fxMode s x.i != bits v 0 3 || bits v 4 4 != bits (s.rd R.FX_CH_CFG x.i) 4 4
        || bits v 19 2 != s.get R.FX_CH_CFG_COM x.i) then
    put (put s (setBits (s.rd R.FX_CH_CFG x.i) 0 3 0)) v
  else put s v

/-- The rate of a port in kbit/s by which Atelier judges idle slopes (R212, R239): while its link is down, the rate of its mode, and
for SGMII the highest; in Type 8 mode that of the ring's bits. DESIGN CHOICE -/
def modeSpeed (s : State) (p : Nat) : Nat :=
  if type8 s p then 1000000 / t8Bit s p
  else 1000 * if s.on R.MAC_STAT_LINK p then portRate s p
  else if p < 16 then (match s.get R.MAC_CTL_MODE p with | 2 => 2500 | 3 => 10000 | _ => 1000)
  else if s.get R.MAC_CTL_MODE p = 0 then 100 else 10

/-- The status with which Atelier refuses a value of a register, if it does: reserved cells above 8,192 (R229), idle slopes of
a port's shaped classes above 75% of its rate (R239), OW_OFF without RB (R273), a fifth Rasp unit of an engine (R298), a fifth queue of an engine (R361), a period
of the field group outside 50 µs to 10 ms (R278, the last a DESIGN CHOICE). -/
def cfgRefused (s : State) (x : RegRef) (v : Nat) : Option Nat :=
  if x.reg.is R.SW_P_RSV && 24 ≤ x.i then
    let total := (List.range 30).foldl (fun n p => n + if p = x.i then v % 4096 else s.get R.SW_P_RSV_V p) 0
    if 8192 < total then some stNoResource else none
  else if x.reg.is R.SW_CBS then
    let p := x.i / 8
    let slope := fun w : Nat => if w.testBit 31 then w % 2 ^ 24 else 0
    let total := (List.range 8).foldl (fun n c => n + slope (if 8 * p + c = x.i then v else s.rd R.SW_CBS (8 * p + c))) 0
    if 3 * modeSpeed s p < 4 * total then some stBadState else none
  else if x.reg.is R.RASP_U_CTL && v.testBit 14
      && 4 ≤ (numsWhere 16 fun u => u != x.i && raspOwned s (bits v 8 6) u).length then some stNoResource
  else if x.reg.is R.DQ_OWN && ownsMore s x.i v then some stNoResource
  else if x.reg.is R.FX_CH_CFG && v.testBit 10 && !v.testBit 3 then some stBadState
  else if x.reg.is R.TB_IG_PERIOD && svcIg s x.i && (v < 50000 || 10000000 < v) then some stBadState
  else none

/-- Atelier's write of a record, unless it refuses the value. -/
def cfgPut (s : State) (x : RegRef) (v : Nat) : EntryRes :=
  match cfgRefused s x v with
  | some st => .failed st
  | none => .applied (cfgWrite s x v) 1

/-- A configuration record of a command (R335). -/
def cfgEntry (op : Nat) (s : State) (a : Nat) (bs : List Byte) : EntryRes :=
  let addr := hdr bs 0 4
  let action := hdr bs 4 1
  let value := hdr bs 8 4
  let mask := hdr bs 12 4
  if 3 < action then .failed stBadState
  else if !cfgRange op addr then .failed stDenied
  else match regRef addr with
    | none => .failed stBadState
    | some x =>
      let t := blockRead s (.atl 0) x
      let old := t.bus.rdata.toNat
      if action < 2 && cfgDenied s x then .failed stDenied
      else match action with
        | 0 => cfgPut s x value
        | 1 => cfgPut t x (old - (old &&& mask) + (value &&& mask))
        | 2 => .applied (parWords t (a + 8) [old]) 1
        | _ => if old &&& mask = value then .applied t 1 else .waits

/-- A configuration command. -/
def cfgCmd (s : State) (n op : Nat) : State := batchCmd s n op 16 5 (cfgEntry op)

/-- A WAIT record is polled (R335): when its condition holds the batch goes on. -/
def recordPoll (s : State) (n : Nat) : State :=
  match s.job n with
  | .record a i _ =>
    match cfgEntry (hmbOp s n) s (a + 16 * i) (parBytes s (a + 16 * i) 16) with
    | .applied t _ => batch n a 16 5 (cfgEntry (hmbOp s n)) (hmbArg s n - i - 1) (i + 1) (i + 1) (t.setJob n .none)
    | _ => s
  | _ => s

/-- RECORD_WAIT_TIMEOUT (R335, R328): a WAIT record that has waited for 10 ms fails, unless its condition holds now. -/
def recordTimeout (s : State) (n : Nat) : State :=
  match s.job n with
  | .record a i since =>
    if s.on R.HIF_STAT_ATL_RESTART || s.now < since + 10000000 then s
    else match cfgEntry (hmbOp s n) s (a + 16 * i) (parBytes s (a + 16 * i) 16) with
      | .applied _ _ => recordPoll s n
      | _ =>
        let s := parWrite s (a + 16 * i + 5) [BitVec.ofNat 8 stTimeout]
        if i = 0 then ack s n stTimeout 0 else ack s n stPartial i
  | _ => s

end Sys2Proof.Machine
end

