-- ==== Sys2Proof/Machine/FriezeOps.lean ====
section
/-! DEFINITION. Frieze (spec/07): frames and their sections, a node's cycle, the star's relay, guardian, calibration and cold
start. Frame offsets count from the destination address. -/
namespace Sys2Proof.Machine

/-- The number of items that an area of `w` words takes (R156, R157). -/
def areaItems (c : FzCfg) (w : Nat) : Nat := (32 * w + c.itemBits - 1) / c.itemBits

/-- The first item of an area (R157): nodes in slot order, inputs first. A node holds its own section only. -/
def areaFirst (x : FzInst) (first j : Nat) (out : Bool) : Nat :=
  let before := if x.role = 1 then x.cfg.sects.take j else []
  before.foldl (fun a w => a + areaItems x.cfg w.1 + areaItems x.cfg w.2) first
    + (if out then areaItems x.cfg (sectLen x.cfg j).2 else 0)

/-- The bytes of an area of `w` words from the values of its items (R156). -/
def areaBytes (c : FzCfg) (w : Nat) (l : List Nat) : List Byte := (l.flatMap (leBytes (c.itemBits / 8))).take (4 * w)

/-- The values of an area's items in their read views (R46). -/
def areaViews (s : State) (c : FzCfg) (h w : Nat) : List Nat :=
  (List.range (areaItems c w)).map fun k => (insertView s (h + k)).2

/-- The item writes that an area's bytes make (R156). -/
def areaWrites (c : FzCfg) (h : Nat) (bs : List Byte) : List (Nat × ItemBits × ItemBits) :=
  let b := c.itemBits / 8
  (List.range ((bs.length + b - 1) / b)).map fun k =>
    let part := (bs.drop (b * k)).take b
    (h + k, BitVec.ofNat 1024 (leNat part), BitVec.ofNat 1024 (2 ^ (8 * part.length) - 1))

/-- An instance's engine writes items through its window (R41, R42). -/
def instWrite (s : State) (i : Nat) (l : List (Nat × ItemBits × ItemBits)) : State :=
  match (s.inst i).engines with
  | [] => s
  | e :: _ => if l.isEmpty then s else queueWrite s ⟨.engine (Fin.ofNat 48 e) 11, l⟩

/-- An instance's engine tells its group that a cycle's writes are complete (R53): a cycle without it is late (R188, R18). -/
def fzDone (s : State) (i : Nat) : State :=
  let x := s.inst i
  match x.engines, x.groups with
  | e :: _, g :: _ => cgDone s (.engine (Fin.ofNat 48 e)) g ((s.rd R.SS_CG_SEQ g + 1) % 256)
  | _, _ => s

/-- Frieze time of an instance, in whole ns. -/
def fzNow (s : State) (i : Nat) : Nat := domTime s (s.fzi i).dom

/-- The corrected receive time of an SFD that was seen `age` ns ago, in quarter ns (R167). -/
def fzRx (s : State) (i p age : Nat) : Int := rxStamp s p (s.fzi i).dom - 4 * (age : Int)

/-- A transmitter writes LEADER_TIME (R192) into a frame without FCS and sends it on a port. -/
def fzSend (s : State) (i p : Nat) (f : List Byte) (good : Bool) : State :=
  stampSend (instCount s i 4 1) p (s.fzi i).dom (some (i, 0)) f good false

/-- Whether a frame of `len` bytes, preamble and SFD among them, that starts at `t` ends by `lim`, both in 2^-8 ns, at a rate in Mbit/s:
exact, since a byte is no whole number of 2^-8 ns at every rate (R191, R196). -/
def endsBy (rate len : Nat) (t lim : Int) : Bool := decide ((2048000 * len : Nat) ≤ (rate : Int) * (lim - t))

/-- The LEADER_TIME that a frame sent now on a port carries. -/
def fzStampNow (s : State) (i p : Nat) : Nat := (txStamp s p (s.fzi i).dom / 4).toNat

/-- Destination, source and EtherType of a frame that an instance sends on a port. -/
def fzAddr (s : State) (c : FzCfg) (p : Nat) : List Byte :=
  c.da ++ beBytes 6 (s.rd R.MAC_ADDR_LO p + 2 ^ 32 * s.get R.MAC_ADDR_HI_V p) ++ beBytes 2 c.etype

/-- Whether a frame's EtherType and header are those of the network (R187, R189). -/
def fzHead (c : FzCfg) (f : List Byte) : Bool := beAt f 12 2 == c.etype && fzVer f == 1 && fzType f != 3

/-- Whether a frame's FCS, EtherType and version are those of the network (R187, R189). -/
def fzOurs (c : FzCfg) (f : List Byte) : Bool := fcsOk f && fzHead c f

/-- Whether a frame with a good FCS is a cyclic frame of the network. -/
def fzCyclic (c : FzCfg) (f : List Byte) : Bool := fzOurs c f && fzType f == 0 && fzNodes f == c.slots.length

/-- Whether a cyclic frame is valid (R187). -/
def fzValid (x : FzInst) (f : List Byte) : Bool :=
  fzCyclic x.cfg f && (x.valid == 0 || fzCycle f == (x.rxK + 1) % 2 ^ 32)

/-! ### A node -/

/-- A node arms acquisition (R194): STEPRATE takes ACQ; in SERVO mode the next measurement loads the domain. -/
def fzAcquire (s : State) (i : Nat) : State :=
  let d := (s.fzi i).dom
  if s.get R.TB_D_CTL_MODE d = 2 then (walkAbort s d).raise R.TB_D_CTL_ACQ d else s.modFzi i fun x => { x with acq := true }

/-- A measurement of Frieze time in 2^-8 ns (R194). -/
def fzMeasure (s : State) (i : Nat) (e : Int) : State :=
  let x := s.fzi i
  if x.acq then
    let s := s.setFzi i { x with acq := false }
    if s.get R.TB_D_CTL_MODE x.dom = 1 then domStep s x.dom (addOffs (s.dom x.dom).offs.toNat (-(e * 2 ^ 32)))
    else measWrite s x.dom (u32 (sat32 e))
  else measWrite s x.dom (u32 (sat32 e))

/-- The node's delay, in 2^-8 ns: the mean of its last four results (R193). -/
def fzDelay (x : FzInst) : Option Int :=
  if x.delays.isEmpty then none else some (x.delays.foldl (· + ·) 0 / x.delays.length)

/-- Program the periodic generators of an instance for the cycle that follows S_k (R142, R186): each at its offset from S_k. -/
def fzAlign (s : State) (i : Nat) : State :=
  let x := s.fzi i
  x.igs.foldl (fun s g =>
    let s := igCtlWrite s g.1 (4 * x.dom)
    let s := s.put64 R.TB_IG_START_LO R.TB_IG_START_HI (x.s0 + x.cfg.cycle + g.2) g.1
    igCtlWrite s g.1 (1 + 2 + 4 * x.dom)) s

/-- Where a node's mini-slot opens in its present cycle: A_j (R195). -/
def fzSlotAt (x : FzInst) : Nat := x.s0 + x.cfg.acycOff + slotPos x.cfg x.cfg.node * x.cfg.miniLen

/-- The values of a node's own input items: those captured at SAMPLE for cycle `k` where there are some, but an item with LIVE = 1
as it reads now (R186, R46; "Passing a node"). -/
def fzInputs (s : State) (i k : Nat) : List Nat :=
  let x := s.fzi i
  let j := slotPos x.cfg x.cfg.node
  let h := areaFirst x (s.inst i).first j false
  let now := areaViews s x.cfg h (sectLen x.cfg j).2
  match x.sample with
  | some (m, l) => if m = k then now.zipIdx.map fun v => if itLive (s.item (h + v.2)) then v.1 else l.getD v.2 v.1 else now
  | none => now

/-- SAMPLE of the coming cycle (R186): a node that returns frames captures the inputs that it will write into them. -/
def fzSample (s : State) (i : Nat) : State :=
  let x := s.fzi i
  let k := (x.k + 1) % 2 ^ 32
  if (x.st = 2 || x.st = 3) && x.phased && ((x.s0 + x.cfg.cycle : Nat) : Int) + x.cfg.sampleOff ≤ fzNow s i
      && x.sample.elim true (fun m => m.1 != k) then
    let j := slotPos x.cfg x.cfg.node
    s.setFzi i { x with sample := some (k, areaViews s x.cfg (areaFirst x (s.inst i).first j false) (sectLen x.cfg j).2) }
  else s

/-- A node's cycles go on with Frieze time, whether frames come or not (R186); a cycle without one counts as a frame lost (R158). A
leader's go on with its originations. -/
def fzRoll (s : State) (i : Nat) : State :=
  let x := s.fzi i
  if x.phased && x.st != 3 && 0 < x.cfg.cycle && x.s0 + x.cfg.cycle ≤ fzNow s i then
    let n := (fzNow s i - x.s0) / x.cfg.cycle
    let s := s.setFzi i { x with k := (x.k + n) % 2 ^ 32, s0 := x.s0 + n * x.cfg.cycle, mini := false, got := false }
    if x.st = 2 then instCount s i 7 (n - bit01 x.got) else s
  else s

/-- An acyclic frame with its payload, 64 bytes at least (R189, R191). -/
def fzAcyclic (s : State) (c : FzCfg) (k p src dst kind : Nat) (payload : List Byte) : List Byte :=
  let f := fzAddr s c p ++ fzHeader k 0 2 src dst kind ++ payload
  f ++ List.replicate (60 - f.length) 0

/-- At A_j the first frame that was asked for by then leaves, one in each mini-slot (R193, R195). -/
def fzMiniSend (s : State) (i : Nat) : State :=
  let x := s.fzi i
  match x.due with
  | (at_, kind, dst, payload) :: rest =>
    if (x.st = 2 || x.st = 3) && x.phased && !x.mini && at_ ≤ fzSlotAt x && fzSlotAt x ≤ fzNow s i
        && fzNow s i < fzSlotAt x + x.cfg.miniLen then
      let y := { x with due := rest, mini := true }
      if kind = 1 then
        let s := s.setFzi i { y with reqAt := some x.k }
        fzSend s i x.port (fzAcyclic s x.cfg x.k x.port x.cfg.node 0 1 (beBytes 4 ((fzDelay x).getD 0).toNat)) true
      else
        fzSend (instCount (s.setFzi i y) i 9 1) i x.port (fzAcyclic s x.cfg x.k x.port x.cfg.node dst 0 payload) true
    else s
  | [] => s

/-- What a node's own clock brings; a SAMPLE at S_k itself comes before the cycle begins. -/
def fzClock (s : State) (i : Nat) : State := fzMiniSend (fzSample (fzRoll (fzSample s i) i) i) i

/-- The clocks of the nodes that run here. -/
def fzClocks (s : State) : State :=
  s.fz.foldl (fun s p => if (s.inst p.1).st != 0 && (s.fzi p.1).role != 2 then fzClock s p.1 else s) s

/-- A node enters LISTEN (R194, R203, R205); `restart` tells that its listen timeout restarts. -/
def fzListen (s : State) (i : Nat) (restart : Bool) : State :=
  fzAcquire (s.modFzi i fun x =>
    { x with st := 0, valid := 0, missed := 0, since := if restart then fzNow s i else x.since }) i

/-- Whether the second engine of a leader candidate runs, which originates its frames (R155). -/
def fzLeads (s : State) (i : Nat) : Bool := ((s.inst i).engines[1]?).elim true (engActive s)

/-- CYCLIC_FRAME_ORIGINATE (R186, R190, R155): at S_k the leader originates the frame of cycle k. A leader whose frame has not returned
for 4 cycles leads no more (R205). -/
def fzOriginate (s : State) (i : Nat) : State :=
  let s := fzSample s i
  let x := s.fzi i
  if x.st = 3 && x.s0 + x.cfg.cycle ≤ fzNow s i && 4 ≤ x.missed then fzListen s i false
  else if x.st = 3 && x.s0 + x.cfg.cycle ≤ fzNow s i && fzLeads s i then
    let k := (x.k + 1) % 2 ^ 32
    let first := (s.inst i).first
    let body := (List.range x.cfg.slots.length).flatMap fun j =>
      let n := x.cfg.slots.getD j 0
      let w := sectLen x.cfg j
      let own := n == x.cfg.node
      [BitVec.ofNat 8 n, if own then 4 else 0, BitVec.ofNat 8 w.1, BitVec.ofNat 8 w.2]
        ++ areaBytes x.cfg w.1 (areaViews s x.cfg (areaFirst x first j true) w.1)
        ++ (if own then areaBytes x.cfg w.2 (fzInputs s i k) else List.replicate (4 * w.2) 0)
    let f := fzAddr s x.cfg x.port ++ fzHeader k 0 0 x.cfg.node x.cfg.slots.length 0 ++ body
    let s := if x.missed = 0 then s else instCount s i 7 1
    let s := s.setFzi i { x with k := k, s0 := x.s0 + x.cfg.cycle, missed := x.missed + 1, mini := false }
    fzSend s i x.port f true
  else s

/-- Whether LATCH of a frame's cycle has passed (R188): nothing is taken from such a frame, and the group records LATE. -/
def fzAfterLatch (s : State) (i : Nat) (f : List Byte) : Bool :=
  let x := s.fzi i
  x.phased && decide ((x.s0 : Int) + diff32 (fzCycle f) x.k * x.cfg.cycle + x.cfg.latchOff < fzNow s i)

/-- A section's STATUS byte. -/
def sectStatus (c : FzCfg) (f : List Byte) (j : Nat) : Nat := byteAt f (sectAt c j + 1)

/-- Set bits of a section's STATUS. -/
def setStatus (c : FzCfg) (f : List Byte) (j bits_ : Nat) : List Byte :=
  patch f (sectAt c j + 1) [BitVec.ofNat 8 (sectStatus c f j ||| bits_)]

/-- The leader takes the inputs of the returned frame (R188). -/
def fzReturned (s : State) (i : Nat) (f : List Byte) : State :=
  let x := s.fzi i
  let first := (s.inst i).first
  let l := (List.range x.cfg.slots.length).flatMap fun j =>
    let st := sectStatus x.cfg f j
    let w := sectLen x.cfg j
    if x.cfg.slots.getD j 0 != x.cfg.node && st % 2 = 0 && st / 4 % 2 = 1 then
      areaWrites x.cfg (areaFirst x first j false) ((f.drop (sectAt x.cfg j + 4 + 4 * w.1)).take (4 * w.2))
    else []
  let up := (numsWhere x.cfg.slots.length fun j =>
    x.cfg.slots.getD j 0 == x.cfg.node || (sectStatus x.cfg f j % 2 == 0 && sectStatus x.cfg f j / 4 % 2 == 1)).length
  fzDone (instWrite (s.setFzi i { x with up := up }) i l) i

/-- An ACTIVE node passes a cyclic frame on (R186, "Passing a node"): its inputs, IN_VALID and NODE_ERR, which its program knows (a
free value), go in, LEADER_TIME and FCS validity stay; the outputs of a valid frame that comes before LATCH of its cycle are written, and its group is told (R188). A frame
with other sections goes on as it came, and one that is no cyclic frame of the network does not return. -/
def fzPass (s : State) (i : Nat) (valid : Bool) (f : List Byte) : State :=
  let x := s.fzi i
  if !(beAt f 12 2 == x.cfg.etype && fzVer f == 1 && fzType f == 0) then s
  else if fzNodes f != x.cfg.slots.length then spliceSend s x.port f
  else
  let first := (s.inst i).first
  let j := slotPos x.cfg x.cfg.node
  let w := sectLen x.cfg j
  let at_ := sectAt x.cfg j
  let r := s.draw 1
  let st := sectStatus x.cfg f j
  let g := patch (dropFcs f) (at_ + 4 + 4 * w.1) (areaBytes x.cfg w.2 (fzInputs s i (fzCycle f)))
  let g := patch g (at_ + 1) [BitVec.ofNat 8 (setBits (setBits st 2 1 1) 4 1 r.1.toNat)]
  let s := spliceSend r.2 x.port (withFcs g (fcsOk f))
  if valid then fzDone (instWrite s i (areaWrites x.cfg (areaFirst x first j true) ((f.drop (at_ + 4)).take (4 * w.1)))) i else s

/-- A node integrates (R205): ACTIVE from now on, it takes S_k from LEADER_TIME of this frame of cycle k. By how much the frame left its
transmitter after S_k no rule tells a node, so it is a free value of less than a cycle, kept while the node is in the network. -/
def fzIntegrate (s : State) (i : Nat) (f : List Byte) : State :=
  let r := s.draw 32
  let s := r.2.modFzi i fun x =>
    { x with st := 2, phased := true, got := true, s0 := fzTime f - (if x.cfg.cycle = 0 then 0 else r.1.toNat % x.cfg.cycle) }
  fzAlign (instCount s i 19 1) i

/-- CYCLIC_FRAME_RECEIVE (R187, R188, R194, R203): a node or the leader receives a cyclic frame, its SFD `age` ns ago. -/
def fzReceive (s : State) (i : Nat) (f : List Byte) (age : Nat) : State :=
  let x := s.fzi i
  if x.role = 2 || !(s.inst i).used then s
  else
    let s := fzRoll (fzSample s i) i
    let x := s.fzi i
    let valid := fzValid x f
    let fresh := !fzAfterLatch s i f
    let t := fzRx s i x.port age
    let s := if valid then instCount s i 5 1 else if fzOurs x.cfg f then s else instCount s i 6 1
    let s := if fzCyclic x.cfg f then s.modFzi i fun y => { y with got := true } else s
    let s := if valid then
        let y := { s.fzi i with rxK := fzCycle f, valid := x.valid + 1 }
        let s := s.setFzi i (if x.st = 3 then y else { y with k := fzCycle f, mini := y.mini && fzCycle f == x.k })
        let s := if x.st = 3 then s else fzMeasure s i (t * 64 - (fzTime f * 256 + (fzDelay x).getD 0))
        s.modFzi i fun y => { y with since := (fzRx s i x.port age / 4).toNat }
      else s
    let q := sectStatus x.cfg f (slotPos x.cfg x.cfg.node) / 2 % 2 = 1
    match x.st with
    | 3 => let s := if fzCyclic x.cfg f then s.modFzi i fun y => { y with missed := 0 } else s
           let s := if valid && fresh then fzReturned s i f else s
           if fzCyclic x.cfg f && q then fzListen s i false else s
    | 2 => let s := fzPass s i (valid && fresh) f
           if fzCyclic x.cfg f && q then fzListen s i false else s
    | 0 => if valid && 1 ≤ x.valid then fzIntegrate s i f else s
    | _ => s

/-- LISTEN_TIMEOUT (R203): a candidate sends its cold-start frame at once. -/
def fzListenTimeout (s : State) (i : Nat) : State :=
  let x := s.fzi i
  if (s.inst i).used && (x.st = 0 || x.st = 2) && x.role != 2
      && x.since + 4 * x.cfg.cycle + x.cfg.node * 2000 ≤ fzNow s i then
    let s := fzListen s i true
    if x.cfg.cand && x.role = 1 then
      let f := fzAddr s x.cfg x.port ++ fzHeader 0 0 1 x.cfg.node 0 0 ++ List.replicate 30 0
      let s := s.modFzi i fun y => { y with st := 1, csAt := fzNow s i }
      fzSend (instCount s i 18 1) i x.port f true
    else s
  else s

/-- COLDSTART_RELAY_RECEIVE (R205). -/
def fzColdRelay (s : State) (i : Nat) (f : List Byte) : State :=
  let x := s.fzi i
  if x.role = 1 && x.st = 1 && fzOurs x.cfg f && fzType f == 1 then
    let s := instCount s i 5 1
    if fzSrc f = x.cfg.node && fzNow s i ≤ x.csAt + x.cfg.cycle then
      fzAlign (s.setFzi i { x with st := 3, s0 := x.csAt, k := 0, missed := 0, up := 0, phased := true }) i
    else fzListen s i true
  else s

/-- COLDSTART_TIMEOUT (R205). -/
def fzColdTimeout (s : State) (i : Nat) : State :=
  let x := s.fzi i
  if x.st = 1 && x.csAt + x.cfg.cycle < fzNow s i then fzListen s i true else s

/-- LEADER_RETURN_TIMEOUT (R205, "Node states"): the fourth cycle in a row ends without a return. -/
def fzLeaderTimeout (s : State) (i : Nat) : State :=
  let x := s.fzi i
  if x.st = 3 && 4 ≤ x.missed && x.s0 + x.cfg.cycle ≤ fzNow s i then fzListen s i false else s

/-! ### The star -/

/-- The star sends on a node's branch, perhaps cut short (R197): on its own port, or through the device that carries the branch, which
stamps the frame as it leaves there (R192, R206). -/
def fzBranchSend (s : State) (i n : Nat) (f : List Byte) (good cut : Bool) : State :=
  let m := fzMap (s.fzi i) n
  if m.2.1 = pkId s then stampSend (instCount s i 4 1) m.1 (s.fzi i).dom (some (i, n)) f good cut
  else pkSend (instCount s i 4 1) m.2.1 (.relay (Fin.ofNat 24 m.1) f good cut)

/-- A branch's gate takes its edges (R196): through a generator of this device, or of the one that carries the branch, in cluster time
(R206). -/
def fzEdges (s : State) (i n : Nat) (l : List (Nat × Bool)) : State :=
  let m := fzMap (s.fzi i) n
  if m.2.1 = pkId s then gateSet s i n l
  else
    let far := (domTime s (s.get R.PK_TIME_CTL_DOM) : Int) - fzNow s i
    pkSend (s.modBr i n fun b => { b with edges := l }) m.2.1
      (.gate (Fin.ofNat 24 m.1) (l.map fun e => (BitVec.ofNat 64 (e.1 + far).toNat, e.2)))

/-- A branch that is not ACTIVE any more has no windows. -/
def fzShut (s : State) (i n : Nat) : State := fzEdges (s.modBr i n fun b => { b with open_ := false }) i n []

/-- T_n of a relay that leaves now (R196): of a branch on another device, the time at which it leaves the head, to which that device's
own measurement is held when a start comes back (R206). -/
def fzTn (s : State) (i n : Nat) : Int :=
  let m := fzMap (s.fzi i) n
  if m.2.1 = pkId s then txStamp s m.1 (s.fzi i).dom else 4 * (fzNow s i : Int)

/-- The corrected time of an SFD seen `age` ns ago on a node's branch; of one on another device, which corrects it (R206). -/
def fzRxOn (s : State) (i n age : Nat) : Int :=
  let m := fzMap (s.fzi i) n
  if m.2.1 = pkId s then fzRx s i m.1 age else 4 * ((fzNow s i : Int) - age)

/-- Whether cycle `c` is among the 16 that end with cycle `k`; the count wraps (R189, R199). -/
def fzRecent (k c : Nat) : Bool := (k + 2 ^ 32 - c) % 2 ^ 32 ≤ 15

/-- How many of `n` cycles that pass had no accepted origination and are not counted yet (R198). -/
def fzUncounted (x : FzInst) (n : Nat) : Nat := n - (if x.origin.isSome || x.lostSeen then 1 else 0)

/-- `n` cycles of a star pass (R196 to R202): what each branch did in the present one is settled, and a calibrated branch is
ACTIVE from then on (R202). -/
def fzAdvance (x : FzInst) (n : Nat) : FzInst :=
  let step := (256 * x.cfg.guard / 4 : Nat)
  let rep : Int := ((fzBr x x.leader).repD : Int)
  let d := if x.dUsed < rep then min rep (x.dUsed + n * step) else max rep (x.dUsed - n * step)
  let br := x.br.foldl (fun t p =>
    let b := p.2
    let quiet := if b.acc || (b.st == 2 && b.ret) then n - 1 else b.missed + n
    let up := b.st == 2 && b.samples.length == 8
    let b := if up then { b with st := 3, strikes := [], samples := [], dev := 0, maxDev := 0 } else b
    let calm := if b.seen = 0 then b.silent + n else n - 1
    tabSet {} t p.1 { b with
      missed := quiet
      silent := calm
      samples := if b.st = 2 && (!b.acc || 1 < n) then ([] : List Int) else b.samples
      acc := false
      ret := false
      seen := 0
      mini := false
      tn := none }) ([] : Tab FzBranch)
  { x with k := (x.k + n) % 2 ^ 32, s0 := x.s0 + n * x.cfg.cycle, br := br, dUsed := d, pos := none, origin := none,
           lost := x.lost + fzUncounted x n, lostSeen := false }

/-- Bring a star to the cycle that time `t` (ns) falls in: a cycle begins GUARD before its leader's frame is due (R196); the cycles
without a frame count as lost (R198). -/
def fzSync (s : State) (i : Nat) (t : Int) : State :=
  let x := s.fzi i
  let from_ : Int := x.s0 + x.dUsed / 256 - x.cfg.guard
  if x.run && 0 < x.cfg.cycle && from_ + x.cfg.cycle ≤ t then
    let n := ((t - from_) / x.cfg.cycle).toNat
    instCount (s.setFzi i (fzAdvance x n)) i 22 (fzUncounted x n)
  else s

/-- A strike (R199): three within 16 cycles quarantine the branch. -/
def fzStrike (s : State) (i n : Nat) : State :=
  let k := (s.fzi i).k
  let b := fzBr (s.fzi i) n
  let l := k :: b.strikes.filter (fzRecent k)
  let s := instCount s i 16 1
  if 3 ≤ l.length then
    fzShut (instCount (s.modBr i n fun b => { b with strikes := l, total := b.total + 1, st := 4, quar := b.quar + 1, silent := 0 })
      i 17 1) i n
  else s.modBr i n fun b => { b with strikes := l, total := b.total + 1 }

/-- The frame phase ends with the relay to the leader (R186, R209). -/
def fzToLeader (s : State) (i : Nat) : State :=
  let x := s.fzi i
  let j := slotPos x.cfg x.leader
  let st := (fzBr x x.leader).st
  let f := if st = 4 then setStatus x.cfg x.frame j 2 else if st = 2 then setStatus x.cfg x.frame j 8 else x.frame
  let s := fzBranchSend s i x.leader f x.good x.cut
  let s := if (fzMap x x.leader).2.1 = pkId s then s else phaseEnd s i (fzTn s i x.leader)
  s.modFzi i fun x => { x with pos := none }

/-- The relay goes on over the positions that are left (R196, R198, R200, R201): it stops at an ACTIVE branch; on a branch in
LISTEN, CALIB or QUARANTINE it leaves together with the next one, whose copy has MISSING set. -/
def fzRelay (s : State) (i : Nat) : List Nat → State
  | [] => fzToLeader s i
  | j :: rest =>
    let x := s.fzi i
    let n := x.cfg.slots.getD j 0
    let b := fzBr x n
    if n = x.leader then fzRelay s i rest
    else if b.st = 0 then
      fzRelay (s.setFzi i { x with frame := setStatus x.cfg x.frame j 1 }) i rest
    else
      let f := if b.st = 4 then setStatus x.cfg x.frame j 2 else if b.st = 2 then setStatus x.cfg x.frame j 8 else x.frame
      let t := fzTn s i n
      let s := s.modBr i n fun b => { b with tn := some t }
      let s := if b.st = 3 && (fzMap x n).2.1 != pkId s then
          fzEdges s i n (gateEdges x n (fzRate s x n) (64 * t + 256 * b.rt))
        else s
      let s := fzBranchSend s i n f x.good x.cut
      if b.st = 3 then s.modFzi i fun x => { x with frame := f, pos := some j }
      else fzRelay (s.modFzi i fun x => { x with frame := setStatus x.cfg f j 1 }) i rest

/-- The positions after `j`. -/
def slotsAfter (x : FzInst) (j : Nat) : List Nat := (List.range x.cfg.slots.length).drop j

/-- Where an ACTIVE branch's next start is expected in the frame phase, in 2^-8 ns (R196). -/
def fzExpected (x : FzInst) (n : Nat) : Option Int :=
  if n = x.leader then (if x.origin.isSome then none else some (256 * (x.s0 : Int) + x.dUsed))
  else if x.pos = some (slotPos x.cfg n) then (fzBr x n).tn.map fun t => 64 * t + 256 * ((fzBr x n).rt : Int) else none

/-- The windows of the leader's branch in the next cycle (R196). -/
def fzLeadEdges (s : State) (i : Nat) : State :=
  let x := s.fzi i
  if x.run && (fzBr x x.leader).st = 3 then
    let y := fzAdvance x 1
    fzEdges s i x.leader (gateEdges y x.leader (fzRate s x x.leader) (256 * (y.s0 : Int) + y.dUsed))
  else s

/-- An edge of a branch's gate comes, placed by its generator (R196); after the last of a cycle the leader's branch has the next one's. -/
def fzGateEdge (s : State) (i n : Nat) : State :=
  let b := fzBr (s.fzi i) n
  match b.edges with
  | [] => s
  | e :: rest =>
    let s := gateSet (s.modBr i n fun b => { b with open_ := e.2 }) i n rest
    if rest.isEmpty && n = (s.fzi i).leader then fzLeadEdges (fzSync s i (fzNow s i)) i else s

/-- An edge of a gate that this device carries for a star head on another (R206). -/
def farEdge (s : State) (p : Nat) (x : FarGate) : State :=
  match x.edges with
  | [] => s
  | e :: rest =>
    igOnce { s with farGates := tabSet none s.farGates p (some { x with edges := rest, open_ := e.2 }) } x.ig
      (s.get R.PK_TIME_CTL_DOM) (rest.head?.map (·.1))

/-- The gates whose generator has fired. -/
def gatesFired (s : State) (g : Nat) : State :=
  let s := (s.fz.flatMap fun p => (p.2.gates.filter (·.2 == g)).map fun q => (p.1, q.1)).foldl (fun s q => fzGateEdge s q.1 q.2) s
  s.farGates.foldl (fun s p => match p.2 with
    | some x => if x.ig = g then farEdge s p.1 x else s
    | none => s) s

/-- A branch is ACTIVE and a start on it is accepted at `t`, in quarter ns: its gate closes F later (R196). -/
def fzGateUntil (s : State) (i n : Nat) (t : Int) : State :=
  let x := s.fzi i
  fzEdges s i n ((upNs (64 * t + wire256 (fzRate s x n) (fzLen x.cfg + 12)), false) :: miniEdges x n)

/-- A sample of a branch in CALIB (R202): eight in a row within GUARD, and a REPORTED_D, give RT; the branch keeps them until
the next cycle, from which it is ACTIVE. -/
def fzCalib (s : State) (i n : Nat) (v : Int) : State :=
  let x := s.fzi i
  let b := fzBr x n
  let l := b.samples ++ [v]
  if l.length < 8 then s.modBr i n fun b => { b with samples := l, acc := true }
  else
    let hi := l.foldl max v
    let lo := l.foldl min v
    if hi - lo ≤ 4 * (x.cfg.guard : Int) && b.repD != 0 then
      let rt := ((l.foldl (· + ·) 0 + 16) / 32).toNat
      s.modBr i n fun b => { b with rt := rt, samples := l, missed := 0, acc := true }
    else instCount (s.modBr i n fun b => { b with samples := [], calFail := b.calFail + 1, acc := true }) i 25 1

/-- An accepted start goes on to the next node (R197). -/
def fzAccept (s : State) (i n : Nat) (t e : Int) (f : List Byte) (good cut : Bool) : State :=
  let x := s.fzi i
  let dev := (64 * t - e) / 256
  let s := s.modBr i n fun b => { b with acc := true, missed := 0, dev := dev, maxDev := max b.maxDev dev.natAbs }
  let s := if (fzBr x n).st = 3 then fzGateUntil s i n t else s
  if n = x.leader then
    let s := s.modFzi i fun x => { x with origin := some t, frame := dropFcs f, good := good, cut := cut, lost := 0 }
    let s := if good then fzMeasure s i (t * 64 - (fzTime f * 256 + x.dUsed)) else s
    fzRelay s i (slotsAfter x 0)
  else
    fzRelay (s.modFzi i fun x => { x with frame := dropFcs f, good := good, cut := cut }) i (slotsAfter x (slotPos x.cfg n + 1))

/-- STAR_RELAY_START (R197, R200, R206): a start on branch `n`, its SFD `age` ns ago, carrying `f`; `long` tells that it still
arrived at s + F. A device that carries a branch of the head's measures RT_n: its start came `back` after the relay's SFD there. -/
def fzStart (s : State) (i n : Nat) (f : List Byte) (age : Nat) (long : Bool) (back : Nat) : State :=
  let x := s.fzi i
  if x.role != 2 || !x.run then s
  else
    let t := fzRxOn s i n age
    let s := fzSync s i (t / 4)
    let s := if (fzMap x n).2.1 = pkId s then s else s.modBr i n fun b => { b with tn := b.tn.map fun _ => t - back }
    let x := s.fzi i
    let b := fzBr x n
    let s := s.modBr i n fun b => { b with seen := b.seen + 1 }
    match b.st with
    | 1 => if fcsOk f && b.tn.isSome then s.modBr i n fun b => { b with st := 2, samples := [], missed := 0, acc := true } else s
    | 2 =>
      match b.tn with
      | some u =>
        let s := s.modBr i n fun b => { b with ret := true }
        if !b.acc && fcsOk f && f.length = fzLen x.cfg + 4 && (t - u).natAbs ≤ 2 * x.cfg.cycle then fzCalib s i n (t - u)
        else s
      | none => s
    | 3 =>
      match fzExpected x n with
      | some e =>
        if !b.acc && (64 * t - e).natAbs ≤ 256 * x.cfg.guard then
          let good := fcsOk f && f.length = fzLen x.cfg + 4
          let s := if good && !long then s else fzStrike s i n
          let g := if long then withFcs (f.take (fzLen x.cfg)) false else f
          fzAccept (instCount s i (if good && !long then 5 else 6) 1) i n t e g (good && !long) long
        else fzStrike s i n
      | none => fzStrike s i n
    | _ => s

/-- BYPASS (R198): at C_n the relay goes on without node n, whose section is marked MISSING. -/
def fzBypass (s : State) (i : Nat) : State :=
  let x := s.fzi i
  match x.pos with
  | none => s
  | some j =>
    let n := x.cfg.slots.getD j 0
    match fzExpected x n with
    | some e =>
      if endsBy (fzRate s x n) 72 (e + 256 * x.cfg.guard) (256 * (fzNow s i : Int)) then
        fzRelay (instCount (s.setFzi i { x with frame := setStatus x.cfg x.frame j 1, cut := false }) i 7 1) i (slotsAfter x (j + 1))
      else s
    | none => s

/-- LOST_CYCLE (R198): no origination accepted by C_L. -/
def fzLost (s : State) (i : Nat) : State :=
  let s := fzSync s i (fzNow s i)
  let x := s.fzi i
  let due : Int := 256 * (x.s0 + x.cfg.guard : Nat) + x.dUsed
  if x.role = 2 && x.run && x.origin.isNone && !x.lostSeen && endsBy (fzRate s x x.leader) 72 due (256 * (fzNow s i : Int)) then
    instCount (instCount (s.setFzi i { x with lost := x.lost + 1, lostSeen := true }) i 22 1) i 7 1
  else s

/-- BRANCH_RETURN_TIMEOUT (R198, R200): four cycles without a return. -/
def fzReturnTimeout (s : State) (i n : Nat) : State :=
  let s := fzSync s i (fzNow s i)
  let b := fzBr (s.fzi i) n
  if (b.st = 2 || b.st = 3) && 4 ≤ b.missed then
    let t := s.modBr i n fun b => { b with st := 1, samples := [], missed := 0 }
    if b.st = 3 then fzShut t i n else t
  else s

/-- QUARANTINE_SILENCE (R199): two silent cycles. -/
def fzSilence (s : State) (i n : Nat) : State :=
  let s := fzSync s i (fzNow s i)
  let b := fzBr (s.fzi i) n
  if b.st = 4 && 2 ≤ b.silent then s.modBr i n fun b => { b with st := 1, strikes := [], missed := 0 } else s

/-- Every branch that is present goes to LISTEN (R200). -/
def fzAllListen (x : FzInst) : FzInst :=
  x.cfg.branches.foldl (fun x b => if b.2.2.2.2 then setFzBr x b.1 { fzBr x b.1 with st := 1, samples := [], missed := 0 }
    else x) x

/-- NET_LISTEN (R204): four cycles with no accepted origination. -/
def fzNetListen (s : State) (i : Nat) : State :=
  let s := fzSync s i (fzNow s i)
  let x := s.fzi i
  if x.role = 2 && x.run && 4 ≤ x.lost then
    let t := s.setFzi i { fzAllListen x with run := false, cold := [], lost := 0, pos := none }
    (numsWhere 128 fun n => (fzBr x n).st == 3).foldl (fun s n => fzShut s i n) t
  else s

/-- Whether a star is a cluster star (R184). -/
def fzCluster (s : State) (c : FzCfg) : Bool := c.branches.any fun b => b.2.2.1 != pkId s

/-- A time of the star's domain as cold starts compare it (R204): in a cluster star in cluster time (R206, R450). -/
def coldTime (s : State) (i : Nat) (t : Int) : Int :=
  if fzCluster s (s.fzi i).cfg then t + 4 * ((domTime s (s.get R.PK_TIME_CTL_DOM) : Int) - fzNow s i) else t

/-- COLDSTART_FRAME (R204): from a candidate's branch, with that branch's node ID. -/
def fzCold (s : State) (i n : Nat) (f : List Byte) (age : Nat) : State :=
  let x := s.fzi i
  if x.role = 2 && !x.run && (fzMap x n).2.2.1 && fzOurs x.cfg f && fzType f == 1 && fzSrc f == n then
    let t := fzRxOn s i n age
    instCount (s.setFzi i { x with cold := x.cold ++ [(coldTime s i t, n, dropFcs f, t)] }) i 5 1
  else if x.role = 2 && x.run then
    let s := (fzSync s i (fzRxOn s i n age / 4)).modBr i n fun b => { b with seen := b.seen + 1 }
    if (fzBr (s.fzi i) n).st = 3 then fzStrike s i n else s
  else s

/-- The time unit of an arrival (R204): 16 ns. -/
def coldUnit (t : Int) : Int := t / 64

/-- COLDSTART_DECISION (R204, R206): at the end of the first arrival's unit, in a cluster star 2 µs later, the earliest unit
wins, and within one the lower node. -/
def fzDecide (s : State) (i : Nat) : State :=
  let x := s.fzi i
  match x.cold with
  | [] => s
  | a :: rest =>
    let wait := if fzCluster s x.cfg then 2000 else 0
    if (coldUnit a.1 + 1) * 16 + wait ≤ coldTime s i (4 * fzNow s i) / 4 then
      let w := rest.foldl (fun m c => if coldUnit c.1 < coldUnit m.1 || (coldUnit c.1 = coldUnit m.1 && c.2.1 < m.2.1) then c
        else m) a
      let s := x.cfg.branches.foldl (fun s b => if b.2.2.2.2 then fzBranchSend s i b.1 w.2.2.1 true false else s) s
      let s := s.modFzi i fun x =>
        let x := { x with run := true, leader := w.2.1, s0 := fzTime w.2.2.1, k := 0, dUsed := 0, cold := [], lost := 0,
                          origin := some w.2.2.2 }
        setFzBr x w.2.1 { fzBr x w.2.1 with st := 3, strikes := [], dev := 0, maxDev := 0, missed := 0, acc := true }
      let s := fzLeadEdges s i
      fzAlign (fzMeasure (instCount (fzAcquire s i) i 18 1) i (w.2.2.2 * 64 - fzTime w.2.2.1 * 256)) i
    else s

/-! ### The acyclic phase -/

/-- What the guardian makes of a start in the acyclic phase (R196, R197, R200): it is accepted; it is accepted and cut after some
bytes, since it has not ended by its limit; or it lies outside its mini-slot. -/
inductive MiniUse where
  | whole
  | cut (bytes : Nat)
  | out
  deriving DecidableEq

/-- The guardian's judgement of a frame of `len` bytes, preamble and SFD among them, that began at `t` (2^-8 ns). -/
def miniUse (x : FzInst) (n rate : Nat) (t : Int) (len : Nat) : MiniUse :=
  let b := fzBr x n
  let a : Int := 256 * (x.s0 + x.cfg.acycOff + slotPos x.cfg n * x.cfg.miniLen : Nat)
  if b.st = 3 then
    let m := miniOpen x n
    let lim := m + 256 * ((x.cfg.miniLen : Int) - x.cfg.guard)
    if b.mini || !decide ((t - m).natAbs ≤ 256 * x.cfg.guard) then .out
    else if endsBy rate len t lim then .whole
    else .cut (((lim - t).toNat * rate / 2048000) - 8)
  else if b.st == 2 && a ≤ t && endsBy rate len t (a + 256 * x.cfg.miniLen) then .whole
  else .out

/-- A start in the acyclic phase (R195, R197): counted; on an ACTIVE branch it is a strike outside its slot, and where it does not
end by its limit. -/
def fzMini (s : State) (i n : Nat) (f : List Byte) (age : Nat) : State × MiniUse :=
  let t := fzRxOn s i n age
  let s := fzSync s i (t / 4)
  let x := s.fzi i
  let u := miniUse x n (fzRate s x n) (64 * t) (f.length + 8)
  let s := s.modBr i n fun b => { b with seen := b.seen + 1, mini := b.mini || u != .out }
  if u != .whole && (fzBr x n).st = 3 then (fzStrike s i n, u) else (s, u)

/-- DELAY_REQ (R193): at a node one waits for its mini-slot when it is due; the star takes REPORTED_D from one it receives on
branch `n` and answers it if the answer ends within the mini-slot. -/
def fzDelayReq (s : State) (i n : Nat) (f : List Byte) (age : Nat) : State :=
  let x := s.fzi i
  if x.role != 2 then
    let due := x.delays.length < 4 || x.reqAt.elim true fun k => x.cfg.delayInt ≤ (x.k + 2 ^ 32 - k) % 2 ^ 32
    if (x.st = 2 || x.st = 3) && due && x.due.all fun d => d.2.1 != 1 then
      fzClock (s.setFzi i { x with due := x.due ++ [(fzNow s i, 1, 0, [])] }) i
    else s
  else if fzOurs x.cfg f && fzType f == 2 && fzKind f == 1 then
    let t := fzRxOn s i n age
    let r := fzMini s i n f age
    if r.2 = .whole then
      let s := instCount (r.1.modBr i n fun b => { b with repD := beAt f 30 4 }) i 5 1
      let x := s.fzi i
      let stop := x.s0 + x.cfg.acycOff + (slotPos x.cfg n + 1) * x.cfg.miniLen
      if endsBy (fzRate s x n) 72 (256 * (fzNow s i : Int)) (256 * (stop : Int)) then
        fzBranchSend s i n (fzAcyclic s x.cfg x.k (fzMap x n).1 0 n 2
          (beBytes 4 (u32 (t / 4)) ++ [BitVec.ofNat 8 (t % 4).toNat])) true false
      else instCount s i 24 1
    else r.1
  else s

/-- DELAY_RESP (R193): d = ((t4 − t1) − (t3 − t2)) / 2, in 2^-8 ns. -/
def fzDelayResp (s : State) (i : Nat) (f : List Byte) (age : Nat) : State :=
  let x := s.fzi i
  if x.role != 2 && (s.inst i).used && fzOurs x.cfg f && fzType f == 2 && fzKind f == 2 && fzNodes f == x.cfg.node then
    let t4 := fzRx s i x.port age * 64
    let t3 : Int := fzTime f * 256
    let t2 : Int := t3 - (diff32 (fzTime f) (beAt f 30 4)) * 256 + byteAt f 34 % 4 * 64
    let d := ((t4 - x.t1 * 256) - (t3 - t2)) / 2
    let s := instCount (s.setFzi i { x with delays := (x.delays ++ [d]).drop (x.delays.length + 1 - 4) }) i 5 1
    if x.delays.isEmpty then fzAcquire s i else s
  else s

/-- A DATA payload is delivered to the channel bound to the instance (R195): its length and bytes at offset 0x60 of the parameter area,
after the configuration block (R332, R207), where it fits. DESIGN CHOICE -/
def fzDeliver (s : State) (i : Nat) (payload : List Byte) : State :=
  let s := instCount (s.modFzi i fun x => { x with rxData := x.rxData ++ [payload] }) i 5 1
  match cached s (s.inst i).ch with
  | some b =>
    if chtUp s && 0x64 + payload.length ≤ chLen b then
      parWrite s (parAddr s b + 0x60) (leBytes 4 payload.length ++ payload)
    else s
  | none => s

/-- The star relays a DATA frame from branch `n`, cut after some bytes or whole, to its destination's branch or to all others, as far
as they are idle; of a branch on another device, that device knows and tells (R195). -/
def fzDataRelay (s : State) (i n : Nat) (f : List Byte) (cut : Option Nat) : State :=
  let dst := fzNodes f
  let g := match cut with
    | some k => (dropFcs f).take k
    | none => dropFcs f
  let x := s.fzi i
  let dests := x.cfg.branches.filter fun b => b.1 != n && b.2.2.2.2 && (dst == 0 || b.1 == dst)
  dests.foldl (fun s b =>
    if b.2.2.1 != pkId s then
      pkSend (instCount s i 4 1) b.2.2.1 (.data (Fin.ofNat 256 i) (Fin.ofNat 24 b.2.1) g (fcsOk f) cut.isSome)
    else if spliceFree s b.2.1 then fzBranchSend s i b.1 g (fcsOk f) cut.isSome
    else instCount s i 23 1) s

/-- ACYCLIC_FRAME (R195): a DATA frame that a node wants to send waits for its own mini-slot (`n` its own ID), if it is no longer than
ACYC_MAX (R191), or a node receives one for it or for all; the star relays one from branch `n`, cut-through, so whatever its FCS. -/
def fzData (s : State) (i n : Nat) (f : List Byte) (age : Nat) : State :=
  let x := s.fzi i
  if !(s.inst i).used then s
  else if x.role != 2 then
    if n = x.cfg.node then
      if x.st != 2 && x.st != 3 then s
      else if x.cfg.acycMax < 4 + (fzAcyclic s x.cfg 0 x.port 0 0 0 (f.drop 30)).length then instCount s i 10 1
      else fzClock (s.setFzi i { x with due := x.due ++ [(fzNow s i, 0, fzNodes f, f.drop 30)] }) i
    else if fzOurs x.cfg f && fzType f == 2 && fzKind f == 0 && (fzNodes f == 0 || fzNodes f == x.cfg.node) then
      fzDeliver s i ((dropFcs f).drop 30)
    else s
  else
    let r := fzMini s i n f age
    if fzHead x.cfg f && fzType f == 2 && fzKind f == 0 then
      match r.2 with
      | .whole => fzDataRelay (instCount r.1 i (if fcsOk f then 5 else 6) 1) i n f none
      | .cut k => fzDataRelay r.1 i n f (some k)
      | .out => r.1
    else r.1

/-- The state of a Frieze instance (R159): a leader's nodes are those whose sections came back in order, a star's are its
ACTIVE branches, another node's is itself. DEDUCED -/
def fzSeen (s : State) (i : Nat) : State :=
  let x := s.fzi i
  if x.role = 2 then
    instNodes s i (x.cfg.branches.filter fun b => b.2.2.2.2).length (x.br.filter fun p => p.2.st == 3).length
  else if x.st = 3 then instNodes s i x.cfg.slots.length x.up
  else instNodes s i (if x.role = 1 then 1 else 0) (if x.st = 2 then 1 else 0)

end Sys2Proof.Machine
end

