-- ==== Sys2Proof/Machine/StoreCmd.lean ====
section
/-! DEFINITION. The store commands of Atelier (R333, R334; R39, R51, R58, R60, R173): items, casts and groups. -/
namespace Sys2Proof.Machine

/-- Whether a running instance or the field service owns an item, and a group (R325, R334). -/
def itemHeld (s : State) (h : Nat) : Bool :=
  !(instWhere s fun x => x.st != 0 && x.first ≤ h && h < x.first + x.n).isEmpty
    || s.field.svc.elim false (fun x => x.2.2.1 ≤ h && h < x.2.2.1 + 64)
    || s.field.ch.any fun x => x.2.item == some h || x.2.timeItem == some h
def groupHeld (s : State) (g : Nat) : Bool := !(instWhere s fun x => x.st != 0 && x.groups.contains g).isEmpty

/-- The 64 bits of words 1 and 2 of an entry. -/
def entryBits (bs : List Byte) : BitVec 64 := BitVec.ofNat 64 (hdr bs 4 8)

/-- Whether an item-map entry breaks R39, as the entry of handle `h`. -/
def itemBad (s : State) (h : Nat) (x : BitVec 64) : Bool :=
  itStalePol x == 3 || decide (5242880 < itOffset x + itWidth x) || overlaps s h (itOffset x) (itWidth x)

/-- An entry with the CAST and VALID fields of the table, not of the command (R333). -/
def entryWith (x : BitVec 64) (cast : Nat) : BitVec 64 :=
  BitVec.ofNat 64 (setBits (setBits x.toNat 41 16 cast) 57 1 1)

/-- An entry of ITEM_SET (R334). -/
def itemSet (s : State) (_ : Nat) (bs : List Byte) : EntryRes :=
  let h := hdr bs 0 4 % 262144
  let x := entryBits bs
  let old := s.item h
  if !itValid old then
    if itemBad s h x then .failed stBadState else .applied (setItem s h (entryWith x 0xFFFF)) 1
  else
    let regroup := itCg x != itCg old
    let move := regroup || itOffset x != itOffset old || itWidth x != itWidth old
    if move && itemHeld s h then .failed stDenied
    else if move && s.on R.SS_CG_CTL_EN (itCg old) then .failed stBadState
    else if regroup && s.on R.SS_CG_CTL_EN (itCg x) then .failed stBadState
    else if itemBad s h x then .failed stBadState
    else .applied (setItem s h (entryWith x (itCast old))) 1

/-- An entry of ITEM_CLEAR (R334). -/
def itemClear (s : State) (_ : Nat) (bs : List Byte) : EntryRes :=
  let h := hdr bs 0 4 % 262144
  if !itValid (s.item h) then .failed stBadState
  else if itemHeld s h then .failed stDenied
  else if s.store.casts.any fun p => caValid p.2 && !caRemote p.2 && caDst p.2 == h then .failed stBadState
  else .applied (dropItem s h) 1

/-- The items that through casts reach from a set of items in at most `n` casts (R60). -/
def thruReach (s : State) : Nat → List Nat → List Nat
  | 0, l => l
  | n + 1, l =>
    let next := l.flatMap fun h =>
      ((castRun s (s.item h)).filter fun c => caThrough c && !caRemote c).map caDst
    thruReach s n (l ++ next.filter fun h => !l.contains h)

/-- Whether a through cast from `h` to `d` would close a cycle (R60). -/
def thruCycle (s : State) (h d : Nat) : Bool :=
  d == h || (thruReach s ((s.store.casts.filter fun p => caThrough p.2).length + 1) [d]).contains h

/-- The slots of an item or cast of `w` bits (R49). -/
def slotsOf (w : Nat) : Nat := (w + 63) / 64

/-- The processing slots of a group: its items and the commit casts of its items (R49, R51). -/
def groupSlots (s : State) (g : Nat) : Nat :=
  (groupItems s g).foldl (fun a p =>
    a + slotsOf (itWidth p.2)
      + ((castRun s p.2).filter fun c => !caThrough c).foldl (fun b c => b + slotsOf (caLen c)) 0) 0

/-- Whether slots exceed 25% of a period, given in ns with 16 fraction bits (R51): at 2,000 slots/µs and the factor 1.35. -/
def tooSlow (slots period : Nat) : Bool := decide (period * 10 < slots * 27 * 65536)

/-- The commit period of a group's configuration (R51, R334). -/
def commitPeriod (s : State) (ctl minPeriod : Nat) : Nat :=
  if ctl.testBit 1 then minPeriod * 65536 else igPeriod s (bits ctl 2 5)

/-- Whether what a cast needs of its destination is missing (R58, R173): a valid item that holds the range and, for a cross-device
cast, a group that no SERVO domain places. Of another device's item and group its own state would tell: what it answers is a free
value of the time and the cast, but for a range that no item holds. -/
def castDstBad (s : State) (c : BitVec 64) : Bool :=
  let top := caDoff c + caLen c
  let d := s.item (caDst c)
  if caRemote c && caDev c != pkId s then
    1024 < top || Config.freeValue (2 ^ 128 + s.now * 2 ^ 64 + c.toNat) 1 == 1
  else !itValid d || itWidth d < top || (caRemote c && s.get R.TB_D_CTL_MODE (cgDom s (itCg d)) == 1)

/-- The checks of a cast of source `h` (R58, R60, R173, R334, R51): the status of the first that fails, if one does. -/
def castBad (s : State) (h : Nat) (c : BitVec 64) : Option Nat :=
  let x := s.item h
  let g := itCg x
  let slow := tooSlow (groupSlots s g + slotsOf (caLen c)) (commitPeriod s (s.rd R.SS_CG_CTL g) (tabGet 0 s.cmd.minPeriod g))
  if !itValid x || itWidth x < caSoff c + caLen c then some stBadState
  else if caRemote c && !pkPresent s (caDev c) then some stBadState
  else if castDstBad s c then some stBadState
  else if caRemote c && s.get R.TB_D_CTL_MODE (cgDom s g) == 1 then some stBadState
  else if caThrough c && !caRemote c && thruCycle s h (caDst c) then some stBadState
  else if 65535 ≤ (s.store.casts.filter fun p => caValid p.2).length then some stNoResource
  else if !caThrough c && slow then some stNoResource
  else none

/-- An entry of CAST_SET (R334): the new cast stands at the end of its source's run. -/
def castAdd (s : State) (_ : Nat) (bs : List Byte) : EntryRes :=
  let h := hdr bs 0 4 % 262144
  let c := entryBits bs
  match castBad s h c with
  | some st => .failed st
  | none => .applied (setRun s h (castRun s (s.item h) ++ [c])) 1

/-- What CAST_CLEAR compares (R334): all fields but LAST, VALID and the reserved bits. -/
def castKey (c : BitVec 64) : Nat := setBits (c.toNat % 2 ^ 55) 50 1 0

/-- An entry of CAST_CLEAR (R334): it counts the casts cleared. -/
def castClear (s : State) (_ : Nat) (bs : List Byte) : EntryRes :=
  let w := hdr bs 0 4
  let h := w % 262144
  let run := castRun s (s.item h)
  let keep := if w.testBit 31 then [] else run.filter fun c => castKey c != castKey (entryBits bs)
  if !itValid (s.item h) || (!w.testBit 31 && keep.length = run.length) then .failed stBadState
  else .applied (setRun s h keep) (run.length - keep.length)

/-! ### Groups -/

/-- The group that a CG_SET names, or chooses with ANY = 1 (R334). -/
def cgChosen (s : State) (arg : Nat) : Option Nat :=
  if arg.testBit 8 then (freeGroups s 1).bind (·.head?) else some (arg % 256)

/-- CG_SET (R334, R51): answers the status and, with OK, the group and the new state. -/
def cgSet (s : State) (arg ctl minPeriod : Nat) : State × Nat × Nat :=
  match cgChosen s arg with
  | none => (s, stNoResource, 0)
  | some g =>
    let old := s.rd R.SS_CG_CTL g
    if g = 0 then (s, stDenied, 0)
    else if groupHeld s g then
      if setBits old 16 8 (bits ctl 16 8) = regWriteWord R.SS_CG_CTL old ctl then (cgCtlWrite s g ctl, stOk, g)
      else (s, stDenied, 0)
    else if tooSlow (groupSlots s g) (commitPeriod s ctl minPeriod) then (s, stNoResource, 0)
    else
      let s := { s with cmd := { s.cmd with minPeriod := tabSet 0 s.cmd.minPeriod g minPeriod } }
      (cgCtlWrite s g ctl, stOk, g)

end Sys2Proof.Machine
end

