-- ==== Sys2Proof/Machine/Packs.lean ====
section
/-! DEFINITION. Protocol packs (spec/05; R184, R191, R207, R208; R331, R332): loading, the costs of the roles, starting and
stopping an instance, and its record. -/
namespace Sys2Proof.Machine

/-! ### Loading (R130, R131, R331) -/

/-- PACK_LOAD (R331): the image waits for Armature. -/
def packLoad (s : State) (n : Nat) (b : List Byte) : State :=
  let a := parAddr s b
  let p := chtAddr s (leNat (parBytes s a 8))
  let img := parBytes s p (leNat (parBytes s (a + 8) 4))
  let s := parOpen s p img.length
  { s with packs := { s.packs with loads := s.packs.loads ++ [(n, img)] } }.setJob n .packLoad

/-- The slots that hold a pack, and the running instances of a slot. -/
def slotWith (s : State) (code : Nat) : Option Nat := (List.range 16).find? fun k => (s.slot k).loaded && (s.slot k).code == code
def slotFree (s : State) : Option Nat := (List.range 16).find? fun k => !(s.slot k).loaded
def slotRuns (s : State) (k : Nat) : Bool := !(instWhere s fun x => x.st != 0 && x.slot == k).isEmpty

/-- The pack image area, region 3 of the firewall (R407). -/
def packArea : Nat × Nat := (0x02200000, 0x02400000)

/-- Where an image of `len` bytes goes for slot `k`: the lowest word of the pack image area from which on it fits beside the images
of the other slots (R132, R407). DESIGN CHOICE -/
def imageRoom (s : State) (k len : Nat) : Option Nat :=
  let used := ((List.range 16).filter fun j => j != k && (s.slot j).loaded).map fun j => ((s.slot j).addr, (s.slot j).addr + (s.slot j).len)
  let cands := packArea.1 :: used.map fun u => (u.2 + 3) / 4 * 4
  let fits := cands.filter fun a => a + len ≤ packArea.2 && used.all fun u => a + len ≤ u.1 || u.2 ≤ a
  fits.foldl (fun b a => some (b.elim a (min a))) none

/-- The verified image of a slot, in shared scratch (R132). -/
def slotImage (s : State) (p : PackSlot) : List Byte := s.bytes .fabric p.addr p.len

/-- Checks 5 to 7 of R130 after checks 1 to 4, and whether the image fits (R407): the status, and the slot of a pack that passes. -/
def packCheck (s : State) (img : List Byte) : Nat × Nat :=
  match imageCheck s img with
  | some st => (st, 0)
  | none =>
    if !(hdr img 0x18 4).testBit 0 && lcState s == 2 then (stDenied, 0)
    else if hdr img 0x08 4 / 2 ^ 24 != 3 || 0x03020000 < hdr img 0x0C 4 then (stBadState, 0)
    else
      let fit := fun k => if (imageRoom s k img.length).isSome then (stOk, k) else (stNoResource, 0)
      match slotWith s (imgCode img), slotFree s with
      | some k, _ => if slotRuns s k then (stBusy, 0) else fit k
      | none, some k => fit k
      | none, none => (stNoResource, 0)

/-- PACK_VERIFIED (R130 to R132, R331, R407, R418): the load that came first is at its end; Armature puts the image of a pack that
passes into the pack image area. -/
def packVerified (s : State) : State :=
  match s.packs.loads with
  | [] => s
  | (n, img) :: rest =>
    let s := { s with packs := { s.packs with loads := rest }, boot := { s.boot with armAt := s.now } }
    let r := packCheck s img
    if r.1 = stOk then
      let a := (imageRoom s r.2 img.length).getD 0
      let p : PackSlot := { loaded := true, code := imgCode img, release := hdr img 0x08 4, svn := hdr img 0x10 4,
                            flags := hdr img 0x18 4, roles := hdr img 0x14 4, addr := a, len := img.length }
      ackOrNote (measure ((agentWrite s .arm a img).setSlot r.2 p) 5 (imgCode img) (imgMeas img)) n stOk r.2
    else ackOrNote s n r.1 0

/-- PACK_UNLOAD (R331). -/
def packUnload (s : State) (n : Nat) : State :=
  let k := hmbArg s n % 16
  if !(s.slot k).loaded then ack s n stBadState 0
  else if slotRuns s k then ack s n stBusy 0
  else ack (s.setSlot k {}) n stOk 0

/-! ### The pack table (R141) -/

/-- A number of engines for `n` units at `per` each. -/
def perUnits (n per : Nat) : Nat := (n + per - 1) / per

/-- The engines of a role (R141); none for a pack that the table does not list. -/
def roleEngines (code role : Nat) (q : Config.PackPlan) : Option Nat :=
  match code, role with
  | 0x01, 0 => some (2 * q.units + 1)
  | 0x01, _ => some 1
  | 0x02, 0 => some (perUnits q.units 64 + bit01 q.iso)
  | 0x02, _ => some 1
  | 0x03, _ => some (perUnits q.units 64)
  | 0x04, 0 => some 2
  | 0x04, _ => some 1
  | 0x05, 0 => some 2
  | 0x05, _ => some 1
  | 0x06, _ => some 1
  | 0x07, _ => some 1
  | 0x08, _ => some (perUnits q.units 64 + perUnits q.units2 64)
  | 0x09, _ => some (perUnits q.units 16)
  | 0x0A, 0 => some (q.units + 1)
  | 0x0A, _ => some 1
  | 0x0B, _ => some (if q.rtu then q.units else 1)
  | 0x0C, 0 => some 1
  | 0x0C, 1 => some 2
  | 0x0C, _ => some (perUnits q.units 2 + 1)
  | _, _ => none

/-- The most units of a role, of each of its two kinds (R141). -/
def unitLimit (code role : Nat) (q : Config.PackPlan) : Nat × Nat :=
  match code, role with
  | 0x01, 0 => (8, 0)
  | 0x02, 0 => (256, 0)
  | 0x03, _ => (256, 0)
  | 0x08, _ => (256, 256)
  | 0x09, _ => (32, 0)
  | 0x0A, 0 => (4, 0)
  | 0x0A, _ => (1, 0)
  | 0x0B, _ => (if q.rtu then 16 else 1, 0)
  | 0x0C, _ => (127, 0)
  | _, _ => (1, 0)

/-- The nodes of a role (R141, R148, R152, R154): the most of each unit, or of the instance where it has one unit, and the addresses
that a node may have; none for a role without a node limit. -/
def nodeLimit (code role : Nat) (q : Config.PackPlan) : Option (Nat × Nat × Nat) :=
  match code, role with
  | 0x01, 0 => some (512, 0, 65535)
  | 0x02, 0 => some (256, 0, 65535)
  | 0x03, _ => some (256, 0, 65535)
  | 0x04, 0 => some (239, 0, 65535)
  | 0x05, 0 => some (511, 0, 65535)
  | 0x06, _ => some (125, 1, 125)
  | 0x07, _ => some (254, 0, 65535)
  | 0x08, _ => some (512, 0, 65535)
  | 0x09, _ => some (32, 0, 31)
  | 0x0A, 0 => some (127, 1, 127)
  | 0x0B, _ => some (if q.rtu then (247, 1, 247) else (32, 0, 65535))
  | 0x0C, 1 => some (127, 1, 127)
  | 0x0C, 2 => some (127, 1, 127)
  | _, _ => none

/-- Whether a list repeats an entry. -/
def repeats {α : Type} [BEq α] : List α → Bool
  | [] => false
  | x :: l => l.contains x || repeats l

/-- Whether the units that engines are counted by are those of the nodes (R141): YP10's devices, YP02's connections, YPUA's writer and
reader groups and YPSD's ports are themselves the nodes; elsewhere each node lies on a segment, bus or line of the instance. -/
def unitsMatch (code role : Nat) (q : Config.PackPlan) : Bool :=
  match code, role with
  | 0x02, 0 => q.addrs.length == q.units
  | 0x03, _ => q.addrs.length == q.units
  | 0x08, _ => q.addrs.length == q.units + q.units2
  | 0x09, _ => q.addrs.length == q.units
  | 0x01, 0 => q.addrs.all fun a => a.1 < q.units
  | 0x0A, 0 => q.addrs.all fun a => a.1 < q.units
  | 0x0B, _ => q.addrs.all fun a => a.1 < max 1 q.units
  | _, _ => true

/-- Whether the nodes of a configuration keep to a role's limits; a YPCO device, which has no node limit, has one node ID of its own
(R152). -/
def nodesOk (code role : Nat) (q : Config.PackPlan) : Bool :=
  unitsMatch code role q && match nodeLimit code role q with
  | none => code != 0x0A || q.addrs.length == 1 && q.addrs.all fun a => 1 ≤ a.2 && a.2 ≤ 127
  | some (most, lo, hi) =>
    !repeats q.addrs && q.addrs.all fun a => lo ≤ a.2 && a.2 ≤ hi && (q.addrs.filter fun b => b.1 == a.1).length ≤ most

/-- The bytes of the objects that satisfy a test. -/
def objBytes (q : Config.PackPlan) (p : Config.PackObject → Bool) : Nat := (q.objects.filter p).foldl (fun a x => a + x.bytes) 0

/-- Whether a CAN controller's bus is one that YPCO runs on (R152, R153): a CC bus at 10 kbit/s to 1 Mbit/s, which are 4,000 to 40 periods
of 25 ns a bit (R245). -/
def canRateOk (s : State) (c : Nat) : Bool :=
  let v := s.rd R.CAN_NBT c
  let bit := (bits v 0 8 + 1) * (3 + bits v 8 8 + bits v 16 7)
  s.get R.CAN_CTL_FMT c != 0 || (40 ≤ bit && bit ≤ 4000)

/-- The longest service-data segment that a bus carries in one frame (R153): of 8 bytes in CC mode, 64 in FD mode, 2,048 in XL mode. -/
def sdoMax (fmt : Nat) : Nat := if fmt = 0 then 8 else if fmt = 1 then 64 else 2048

/-- At most one object of each node in each direction (R157). -/
def oneEach (q : Config.PackPlan) : Bool := !repeats (q.objects.map fun x => (x.unit, x.node, x.out))

/-- Whether the objects of a configuration keep to their pack's limits (R143, R145, R149, R151 to R153, R157): of a PDO by the format of
the bus it is for. -/
def objectsOk (s : State) (code role : Nat) (q : Config.PackPlan) : Bool :=
  match code, role with
  | 0x01, 0 => q.frames.all (· ≤ 4)
  | 0x01, _ => [false, true].all fun d => objBytes q (·.out == d) ≤ 1024
  | 0x02, _ => q.ratios.all fun r => 1 ≤ r && r ≤ 512
  | 0x03, _ => q.objects.all (·.bytes ≤ 1444)
  | 0x04, _ => oneEach q
  | 0x05, _ => oneEach q
  | 0x06, _ => oneEach q
  | 0x07, _ => oneEach q && [false, true].all fun d => 8 * objBytes q (·.out == d) ≤ 4096
  | 0x09, _ => q.objects.all fun x => objBytes q (fun y => y.node == x.node && y.out == x.out) ≤ 32
  | 0x0A, _ => (q.cans.all fun c => canRateOk s c && q.sdo ≤ sdoMax (s.get R.CAN_CTL_FMT c)) && q.objects.all fun x =>
      x.bytes ≤ pdoMax (s.get R.CAN_CTL_FMT (q.cans.getD x.unit 0))
        && (q.objects.filter fun y => y.unit == x.unit && y.out == x.out).length ≤ (if role = 0 then 512 else 64)
  | _, _ => true

/-- The function codes that YPMB supports (R154); code 43 is with MEI type 14. -/
def mbCodes : List Nat := [1, 2, 3, 4, 5, 6, 15, 16, 23, 43]

/-- The exception code with which a YPMB server answers a function code, if it does not support it (R154). -/
def mbException (code : Nat) : Option Nat := if mbCodes.contains code then none else some 1

/-- How many generators place the cycles of a role, how many its commits, how many groups it has, and whether a command commits them
(R142, R157); none where the tables leave it to the configuration. -/
def instantNeed (code role : Nat) (q : Config.PackPlan) : Option (Nat × Nat × Nat × Bool) :=
  let cycles := (q.igs.filter (·.use == .cycle)).length
  match code, role with
  | 0x01, 0 => some (1, q.units, q.units, false)
  | 0x01, _ => some (0, 1, 1, false)
  | 0x02, _ => some (1, q.ratios.eraseDups.length, q.ratios.eraseDups.length, false)
  | 0x03, _ => some (cycles, 0, min cycles 8, true)
  | 0x04, 0 => some (1, 1, 1, false)
  | 0x05, 0 => some (1, 1, 1, false)
  | 0x06, _ => some (1, 1, 1, false)
  | 0x07, _ => some (1, 1, 1, false)
  | 0x09, _ => some (0, 0, 1, true)
  | 0x0A, 0 => some (1, q.units, q.units, false)
  | 0x0B, 0 => some (cycles, q.groups.length, q.groups.length, false)
  | 0x0B, _ => some (0, 0, 1, true)
  | _, _ => none

/-- How many groups a role has whose instants R142 does not list (R157): YP13's and YP19's nodes and a YPCO device one, YPUA one for each
publishing interval, up to 8. -/
def groupNeed (code role cycles : Nat) : Option Nat :=
  match code, role with
  | 0x04, 1 => some 1
  | 0x05, 1 => some 1
  | 0x08, _ => some (min cycles 8)
  | 0x0A, 1 => some 1
  | _, _ => none

/-- Whether a role has a group for each of its segments or buses (R157): that of segment or bus k is the instance's group k. -/
def groupPerUnit (code role : Nat) : Bool := role == 0 && (code == 0x01 || code == 0x0A)

/-- How many generators at LATCH or SAMPLE an instance may have (R142): YPSD one for each port, the others one. -/
def alignedMax (code : Nat) (q : Config.PackPlan) : Nat := if code = 0x09 then q.units else 1

/-- Whether the generators and groups of a configuration are those of its role (R142, R157): engines take their cycles from cycle
generators, groups their commits from commit generators or a command, and there are at most 8 groups. -/
def instantsOk (code role : Nat) (q : Config.PackPlan) : Bool :=
  let use := fun k => (q.igs[k]?).map (·.use)
  let count := fun u => (q.igs.filter (·.use == u)).length
  q.groups.length ≤ 8 && count .latch ≤ alignedMax code q && count .sample ≤ alignedMax code q
    && q.groups.all (fun g => g.byCmd || use g.ig == some .commit)
    && q.engines.all (fun e => e.cyc.elim true fun k => use k == some .cycle)
    && q.objects.all (fun x => x.group < q.groups.length && (!groupPerUnit code role || x.group == x.unit))
    && (groupNeed code role (count .cycle)).elim true (fun n => q.groups.length == n)
    && (instantNeed code role q).elim true fun n =>
      count .cycle == n.1 && count .commit == n.2.1 && q.groups.length == n.2.2.1 && q.groups.all (·.byCmd == n.2.2.2)

/-- Whether the CAN controllers, Rasp units, GPIO pins and field channels named are those that the role needs (R141, R148, R151,
R152): each unit's three pins lie in one VIO bank. -/
def unitsOk (code role : Nat) (q : Config.PackPlan) : Bool :=
  let n := match code, role with
    | 0x06, _ => (0, 1, 0)
    | 0x09, _ => (0, 0, q.units)
    | 0x0A, 0 => (q.units, 0, 0)
    | 0x0A, _ => (1, 0, 0)
    | 0x0B, _ => (0, if q.rtu then q.units else 0, 0)
    | _, _ => (0, 0, 0)
  let pin := fun k => (q.pins.getD k 0).val / 32
  q.cans.length == n.1 && q.rasps.length == n.2.1 && q.pins.length == 3 * n.2.1 && q.chans.length == n.2.2
    && !repeats q.cans && !repeats q.rasps && !repeats q.pins && !repeats q.chans
    && (List.range n.2.1).all fun k => pin (3 * k) == pin (3 * k + 1) && pin (3 * k) == pin (3 * k + 2)

/-- The time need of a role (R138, R141): 0 NONE, 1 MASTER, 2 LEADER, 3 FOLLOW. -/
def roleNeed (code role : Nat) (follow : Bool) : Nat :=
  match code, role with
  | 0x01, 0 => if follow then 3 else 1
  | 0x01, _ => 3
  | 0x02, 0 => 1
  | 0x02, _ => 3
  | 0x03, _ => if follow then 3 else 0
  | 0x04, 0 => 1
  | 0x04, _ => 3
  | 0x05, 0 => 1
  | 0x05, _ => 3
  | 0x08, _ => 3
  | 0x0C, 1 => 2
  | 0x0C, _ => 3
  | _, _ => 0

/-- The default gap in ns for a cycle in ns (R136, R141). -/
def defaultGap (code role cycle : Nat) : Nat :=
  let from_ := fun (gap least : Nat) => if least ≤ cycle then gap else 0
  match code, role with
  | 0x01, 0 => from_ 20000 250000
  | 0x02, 0 => from_ 20000 250000
  | 0x03, _ => 20000
  | 0x04, 0 => from_ 15000 200000
  | 0x05, 0 => from_ 20000 250000
  | 0x06, _ => 50000
  | 0x07, _ => 50000
  | 0x08, _ => from_ 15000 250000
  | 0x09, _ => 50000
  | 0x0A, _ => 20000
  | 0x0B, _ => 50000
  | 0x0C, 1 => from_ 15000 100000
  | _, _ => 0

/-- The shortest and the longest cycle of a role in ns (R141, R150); a role whose cycle another device sets has no limits here. -/
def cycleRange (code role : Nat) (q : Config.PackPlan) : Nat × Nat :=
  match code, role with
  | 0x01, 0 => (31250, 10000000)
  | 0x02, _ => (if q.iso then 31250 else 250000, 4000000)
  | 0x03, _ => (250000, 10000000000)
  | 0x04, 0 => (100000, 10000000)
  | 0x05, 0 => (31250, 10000000)
  | 0x06, _ => (1000000, 1000000000)
  | 0x07, _ => (1000000, 100000000)
  | 0x08, _ => (62500, 10000000000)
  | 0x09, _ => (400000, 132800000)
  | 0x0A, 0 => (500000, 100000000)
  | 0x0B, 0 => (1000000, 60000000000)
  | 0x0C, _ => (20000, 10000000)
  | _, _ => (0, 2 ^ 48)

/-- The period of a generator in 2^-16 ns; less than 100 ns is taken as 100 ns (R176). -/
def planPeriod (g : Config.PackIg) : Nat := 65536 * max 100 g.period.toNat + g.pfrac.toNat

/-- Whether the intervals that the cycle generators place lie within the role's range; YPSD, which has none, has a cycle for each port. -/
def cyclesOk (code role : Nat) (q : Config.PackPlan) : Bool :=
  let r := cycleRange code role q
  (code != 0x09 || (q.portCycles.length == q.units && q.portCycles.all fun c => r.1 ≤ c.toNat && c.toNat ≤ r.2))
  && q.igs.all fun g => g.use != .cycle
    || (65536 * r.1 ≤ planPeriod g * max 1 g.times.toNat && planPeriod g * max 1 g.times.toNat ≤ 65536 * r.2)

/-- The ports of a mask, in ascending order. -/
def portList (mask : Nat) : List Nat := numsWhere 24 mask.testBit

/-- Whether a mask is one pair of PHY ports: P0/P1, P2/P3, P4/P5 or P6/P7 (R141). -/
def phyPair (mask : Nat) : Bool := (List.range 4).any fun k => mask == 3 * 2 ^ (16 + 2 * k)

/-- Whether the ports named suit the role (R137, R141, R149): a YP12 segment with cable redundancy has two, YP08's is a PHY port in Type 8 serial mode. -/
def portsOk (s : State) (code role mask : Nat) (q : Config.PackPlan) : Bool :=
  let n := (portList mask).length
  match code, role with
  | 0x01, 0 => n == q.units + q.twin.length && !repeats q.twin && q.twin.all (· < q.units)
  | 0x01, _ => phyPair mask
  | 0x02, 0 => n == bit01 q.iso
  | 0x02, _ => n == 2 * bit01 q.iso
  | 0x04, 0 => n == 1
  | 0x04, _ => n == 2
  | 0x05, _ => n == 2
  | 0x07, _ => n == 1 && (portList mask).all (type8 s)
  | 0x0C, 0 => n == 1
  | 0x0C, 1 => n == 1
  | 0x0C, _ => true
  | _, _ => n == 0

/-- The ports that engine `k` of an instance binds, among the instance's `n` (R137, R143, R144, R147, R155): as A and as B. -/
def rolePorts (code role : Nat) (q : Config.PackPlan) (n count k : Nat) : Option Nat × Option Nat :=
  let pair : Option Nat × Option Nat := (some 0, some 1)
  match code, role with
  | 0x01, 0 =>
    if k % 2 = 0 && k < 2 * q.units then
      let at_ := k / 2 + (q.twin.filter (· < k / 2)).length
      (some at_, if q.twin.contains (k / 2) then some (at_ + 1) else none)
    else (none, none)
  | 0x01, _ => pair
  | 0x02, 0 => if q.iso && k + 1 = count then (some 0, none) else (none, none)
  | 0x02, _ => if q.iso then pair else (none, none)
  | 0x04, 0 => if k = 0 then (some 0, none) else (none, none)
  | 0x04, _ => pair
  | 0x05, _ => if k = 0 then pair else (none, none)
  | 0x07, _ => (some 0, none)
  | 0x0C, 0 => (some 0, none)
  | 0x0C, 1 => (some 0, none)
  | 0x0C, _ => if k + 1 = count then (none, none) else (some (2 * k), if 2 * k + 1 < n then some (2 * k + 1) else none)
  | _, _ => (none, none)

/-- Whether engine `k` of an instance is attached to the switch core (R137): YP10's for its cyclic class, YP02's, YPUA's, and YPMB's over
TCP. -/
def roleAttach (code role : Nat) (q : Config.PackPlan) (count k : Nat) : Bool :=
  match code, role with
  | 0x02, 0 => !(q.iso && k + 1 == count)
  | 0x02, _ => !q.iso
  | 0x03, _ => true
  | 0x08, _ => true
  | 0x0B, _ => !q.rtu
  | _, _ => false

/-! ### Items (R156, R157) -/

/-- A number put into its place in a rising list. -/
def insertKey (k : Nat × Nat) : List (Nat × Nat) → List (Nat × Nat)
  | [] => [k]
  | x :: l => if k.1 < x.1 || (k.1 == x.1 && k.2 < x.2) then k :: x :: l else if k == x then x :: l else x :: insertKey k l

/-- The items of an object: 1,024 bits each but the last (R156). -/
def objItems (x : Config.PackObject) : List Config.PackItem :=
  (List.range ((8 * x.bytes + 1023) / 1024)).map fun k =>
    { widthM1 := Fin.ofNat 1024 (min 1024 (8 * x.bytes - 1024 * k) - 1), group := x.group, out := x.out }

/-- The items of a configuration (R157): in node order, of each node its inputs and then its outputs; a YPSD port has the 8-bit port
qualifier as its last input. -/
def planItems (code : Nat) (q : Config.PackPlan) : List Config.PackItem :=
  let keys := (q.objects.map fun x => (x.unit, x.node)) ++ if code = 0x09 then q.addrs else []
  (keys.foldl (fun l k => insertKey k l) []).flatMap fun k =>
    let of := fun (d : Bool) => (q.objects.filter fun x => x.unit == k.1 && x.node == k.2 && x.out == d).flatMap objItems
    of false ++ (if code = 0x09 then [{ widthM1 := 7 }] else []) ++ of true

/-! ### Frieze (R184, R191, R207, R208) -/

/-- The port mode of a Frieze branch (R184): SGMII, 1000BASE-X, 2500BASE-X, 10GBASE-R by their codes, 4 for 100BASE-TX; none for a mode
that no branch may have. -/
def fzMode (s : State) (p : Nat) : Option Nat :=
  let m := s.get R.MAC_CTL_MODE p
  if p < 16 then (if m < 4 then some m else none) else if m = 0 then some 4 else none

/-- The rate in Mbit/s that a port's mode gives (R212). -/
def modeRate (s : State) (p : Nat) : Nat :=
  if p < 16 then
    match s.get R.MAC_CTL_MODE p with
    | 2 => 2500
    | 3 => 10000
    | _ => 1000
  else 100

/-- The configuration of a Frieze instance (R207), its tables read from shared scratch. -/
def fzParse (s : State) (cfg : List Byte) : FzCfg :=
  let n := hdr cfg 0x1B 1
  let tab := fun (a len : Nat) => s.bytes .fabric a len
  let sect := tab (hdr cfg 0x2C 4) (2 * n)
  let br := tab (hdr cfg 0x30 4) 254
  { cycle := hdr cfg 0x00 4, sampleOff := s32 (hdr cfg 0x04 4), latchOff := hdr cfg 0x08 4, acycOff := hdr cfg 0x0C 4
    miniLen := hdr cfg 0x10 4, guard := hdr cfg 0x14 2, acycMax := hdr cfg 0x16 2, etype := hdr cfg 0x18 2
    node := hdr cfg 0x1A 1, delayInt := hdr cfg 0x1C 1, cand := (hdr cfg 0x1D 1).testBit 0, da := (cfg.drop 0x20).take 6
    slots := (tab (hdr cfg 0x28 4) n).map (·.toNat)
    sects := (List.range n).map fun j => (byteAt sect (2 * j), byteAt sect (2 * j + 1))
    branches := (List.range 127).filterMap fun i =>
      let b := byteAt br (2 * i)
      let f := byteAt br (2 * i + 1)
      if f.testBit 1 then some (i + 1, b % 32, b / 32, f.testBit 0, true) else none }

/-- Whether a configuration breaks R184, R191 or R208. Of a cluster star's branches on other devices, those devices know the
modes of the line lanes; a PHY port runs 100BASE-TX. -/
def fzBad (s : State) (role mask : Nat) (c : FzCfg) : Bool :=
  let n := c.slots.length
  let mine := (c.branches.filter fun b => b.2.2.1 == pkId s).map (·.2.1)
  let port := if role = 2 then mine.headD 0 else (portList mask).headD 0
  let rate := modeRate s port
  c.cycle < 20000 || 10000000 < c.cycle || 0 < c.sampleOff || c.sampleOff < -((c.cycle : Int) - 1000)
    || c.latchOff < 1000 || c.cycle < c.latchOff + 1000 || c.guard < 40 || 2000 < c.guard
    || c.acycMax < 64 || 1518 < c.acycMax || (role != 2 && (c.node < 1 || 127 < c.node || !c.slots.contains c.node))
    || n < 1 || 127 < n || c.delayInt < 1
    || c.cycle < c.acycOff + n * c.miniLen || rate * c.miniLen < (c.acycMax + 8) * 8000 + 2 * rate * c.guard
    || repeats c.slots || c.slots.any (fun i => i < 1 || 127 < i)
    || c.sects.any (fun w => 1020 < 4 * w.1 + 4 * w.2) || 9018 < fzLen c + 4 || (fzMode s port).isNone
    || (role == 2 && (c.branches.any (24 ≤ ·.2.1) || (c.branches.any (16 ≤ ·.2.1) && c.branches.any (·.2.1 < 16))
      || repeats (c.branches.map fun b => (b.2.1, b.2.2.1))))
    || (role == 2 && (4 < (c.branches.filter fun b => b.2.2.2.1).length || repeats mine || mine.any (24 ≤ ·)
      || mine.any (fun p => fzMode s p != fzMode s port) || flags 24 (fun p => mine.contains p) != mask))

/-- The items of a Frieze role (R156, R157): a leader candidate holds every node's section, a node its own; inputs first. -/
def fzItems (role : Nat) (c : FzCfg) : List Config.PackItem :=
  let area := fun (w : Nat) (out : Bool) => (List.range (areaItems c w)).map fun k =>
    ({ widthM1 := Fin.ofNat 1024 (min c.itemBits (32 * w - c.itemBits * k) - 1), group := 0, out := out } : Config.PackItem)
  let sect := fun j => area (sectLen c j).2 false ++ area (sectLen c j).1 true
  if role = 1 then (List.range c.slots.length).flatMap sect
  else if role = 0 then sect (slotPos c c.node)
  else []

/-- The width of the items that a pack splits areas into: whole bytes, at most 1,024 bits, and so that no section has more than 8 items
(R157); else 1,024 bits. -/
def fzItemBits (c : FzCfg) (b : Nat) : Nat :=
  let ok := b % 8 = 0 && 8 ≤ b && b ≤ 1024
    && c.sects.all fun w => areaItems { c with itemBits := b } w.1 + areaItems { c with itemBits := b } w.2 ≤ 8
  if ok then b else 1024

/-- What a Frieze role asks for (R141, R142, R155, R157): a node and a leader candidate have a cycle and a commit generator, and one at
LATCH or SAMPLE where the pack aligns something to it; a star a cycle generator and one for the gate of each of its own branches. The
one group expects a DONE in each cycle (R188). Without an offset of the pack's the commit is at LATCH. DESIGN CHOICE -/
def fzPlan (s : State) (role : Nat) (c : FzCfg) (q : Config.PackPlan) : Config.PackPlan :=
  let per := BitVec.ofNat 32 c.cycle
  let mine := (c.branches.filter fun b => b.2.2.1 == pkId s).length
  let commit := (q.igs.find? (·.use == .commit)).elim (BitVec.ofNat 32 c.latchOff) (·.offset)
  let also := fun (u : Config.IgUse) (o : Nat) =>
    if q.igs.any (·.use == u) then [({ use := u, period := per, offset := BitVec.ofNat 32 o } : Config.PackIg)] else []
  let igs : List Config.PackIg := if role = 2 then { period := per } :: List.replicate mine { use := .gate }
    else [{ period := per }, { use := .commit, period := per, offset := commit }]
      ++ also .latch c.latchOff ++ also .sample ((c.cycle + c.sampleOff) % c.cycle).toNat
  { q with
    units := if role = 2 then mine else 0, units2 := 0, items := fzItems role c, objects := [], igs := igs
    groups := if role = 2 then [] else [{ ig := 1, writers := 1 }]
    engines := q.engines.map fun e => { e with cyc := e.cyc.map fun _ => 0 }
    addrs := if role = 0 then [] else c.slots.map fun n => (0, n), cans := [], rasps := [], pins := [], chans := [], fdb := [], filters := [] }

/-- A new Frieze instance (R191, R200, R203, R204): a node listens, a star is in NET_LISTEN with its branches in LISTEN; its ports take
the network's frames. `igs` are its generators with their uses. -/
def fzBegin (s : State) (i role dom port : Nat) (c : FzCfg) (igs : List (Nat × Config.PackIg)) : State :=
  let local_ := c.branches.filter fun b => b.2.2.1 == pkId s
  let gates := (local_.map (·.1)).zip ((igs.filter (·.2.use == .gate)).map (·.1))
  let at_ := (igs.filter (·.2.use != .gate)).map fun g => (g.1, if g.2.use = .cycle then 0 else g.2.offset.toNat)
  let s := s.setFzi i { role := role, dom := dom, port := port, cfg := c, igs := at_, gates := gates }
  let ports := if role = 2 then local_.map (·.2.1) else [port]
  let s := ports.foldl (fun s p => if s.get R.MAC_MAXLEN_V p < fzLen c + 4 then s.put R.MAC_MAXLEN_V (fzLen c + 4) p else s) s
  if role = 2 then s.modFzi i fun x => c.branches.foldl (fun x b => setFzBr x b.1 { st := 1 }) x
  else fzListen s i true

/-! ### Starting an instance (R134 to R138, R332) -/

/-- The domain of an instance that starts (R138): none when the start lacks one. `hint` is the TIME word of R332. -/
def startDomain (s : State) (need src hint : Nat) : Option Nat :=
  let runs := s.packs.insts.filter fun p => p.2.used && p.2.st != 0
  let lead := runs.any fun p => p.2.need == 2
  let master := lead || runs.any fun p => p.2.need == 1
  let fol := runs.filter fun p => p.2.need == 3
  let srcs := (fol.map fun p => p.2.src).eraseDups
  let doms := (if master then [0] else []) ++ fol.map fun p => p.2.dom
  match need with
  | 0 => some 0
  | 3 =>
    match fol.find? fun p => p.2.src == src with
    | some p => some p.2.dom
    | none =>
      if 2 ≤ srcs.length + bit01 master then none
      else if hint.testBit 0 && !doms.contains (bits hint 1 1) then some (bits hint 1 1)
      else [0, 1].find? fun d => !doms.contains d
  | k => if (k == 2 && lead) || 2 ≤ srcs.length then none else some 0

/-- The instance of a channel, running or stopped. -/
def instOfCh (s : State) (c : Nat) : Option Nat := (instWhere s fun x => x.ch == c).head?

/-- The lowest free instance number (R158: 8 bits). -/
def instFree (s : State) : Option Nat := (List.range 256).find? fun i => !(s.inst i).used

/-- Whether a stopped instance's items and groups are those that its next start needs, so that it keeps them (R140). DEDUCED -/
def instKeeps (s : State) (x : Inst) (p : Config.PackPlan) : Bool :=
  x.n == p.items.length && x.groups.length == p.groups.length
    && p.items.zipIdx.all fun q =>
      let e := s.item (x.first + q.2)
      itValid e && itWidth e == q.1.widthM1.val + 1 && itCg e == x.groups.getD q.1.group 0

/-- A stopped instance's items are given up. -/
def instRelease (s : State) (i : Nat) : State :=
  let x := s.inst i
  let s := (List.range x.n).foldl (fun s k =>
    if itValid (s.item (x.first + k)) then dropItem s (x.first + k) else s) s
  s.setInst i { x with groups := [], first := 0, n := 0 }

/-- Allocate the items of an instance from handle `h` on: each at the lowest place that has room. DESIGN CHOICE -/
def addItems (groups : List Nat) : List Config.PackItem → Nat → State → Option State
  | [], _, s => some s
  | x :: l, h, s =>
    match freeOffset s (x.widthM1.val + 1) with
    | none => none
    | some o => addItems groups l (h + 1)
        (setItem s h (itemEntry o (x.widthM1.val + 1) (groups.getD x.group 0) 0xFFFF false x.out false false 0))

/-- Items and groups of an instance that starts: its own again, or new ones (R134, R140). Answers the groups and first handle. -/
def startItems (s : State) (i : Nat) (p : Config.PackPlan) : Option (State × List Nat × Nat) :=
  let x := s.inst i
  if x.used && instKeeps s x p then some (s, x.groups, x.first)
  else
    let s := instRelease s i
    match freeGroups s p.groups.length, freeHandles s p.items.length with
    | some g, some h => (addItems g p.items h s).map fun t => (t, g, h)
    | _, _ => none

/-- Program a generator of an instance (R134, R142): periodic, in the instance's domain; a Frieze instance's run from the moment it
knows S_k. -/
def startIg (s : State) (g dom : Nat) (run : Bool) (p : Config.PackIg) : State :=
  let s := (s.wr R.TB_IG_PERIOD p.period.toNat g).put R.TB_IG_PFRAC_V p.pfrac.toNat g
  let s := s.put64 R.TB_IG_START_LO R.TB_IG_START_HI (domTime s dom + p.offset.toNat) g
  if run then igCtlWrite s g (1 + 2 + 4 * dom) else s

/-- Configure a group of an instance. -/
def startGroup (s : State) (g : Nat) (igs : List Nat) (p : Config.PackGroup) : State :=
  let s := { s with cmd := { s.cmd with minPeriod := tabSet 0 s.cmd.minPeriod g p.minPeriod.toNat } }
  cgCtlWrite s g (1 + 2 * bit01 p.byCmd + 4 * igs.getD p.ig 0 + 2 ^ 7 * p.writers + 2 ^ 16 * 0xFF)

/-- The engines of an instance that bind a port, in ascending order. -/
def portEngines (s : State) (es : List Nat) (p : Nat) : List Nat :=
  es.filter fun e => (s.on R.CE_BIND_A_EN e && s.get R.CE_BIND_PORT_A e == p) || (s.on R.CE_BIND_B_EN e && s.get R.CE_BIND_PORT_B e == p)

/-- Program an engine of an instance (R73, R79, R131, R136, R137): its memories, the ports it binds, its attachment, cycle and gap. -/
def startProg (s : State) (e slot : Nat) (bind : Option Nat × Option Nat) (attach : Bool) (igs : List Nat) (gap : Nat)
    (p : Config.PackEngine) : State :=
  let s := s.modEng e fun x => { x with bad := [] }
  let s := ((s.zero (.imem e) 0 0x4000).zero (.dmem e) 0 0x2000).setWords (.imem e) 0 ((p.code.take 4096).map (·.toNat))
  let s := s.setBytes (.dmem e) 0 (p.data.take 8192)
  let half := fun (o : Option Nat) => o.elim 0 fun q => q + 128
  let s := s.wr R.CE_BIND (half bind.1 + 256 * half bind.2) e
  let s := match p.cyc with
    | some k => engCycWrite s e (igs.getD k 0 + 256)
    | none => engCycWrite s e 0
  let s := (s.wr R.CE_GAP_OFF p.gapOff e).put R.CE_GAP_LEN_V gap e
  let s := s.wr R.CE_CTL (match p.start with | some k => 4 + 8 * igs.getD k 0 | none => 0) e
  s.modEng e fun x => { x with packSlot := slot, attach := if attach then some (e % 2) else none }

/-- Write the owner table of a port: an entry for each engine of the instance that binds it (R73, R137). -/
def startOwner (s : State) (es : List Nat) (p : Nat) : State :=
  (portEngines s es p).zipIdx.foldl (fun s q => s.wr R.SW_P_OWN (q.1 + 128) p q.2) s

/-- The cycle of an engine's program in 2^-16 ns, where it has one (R176). -/
def progCycle (plan : Config.PackPlan) (p : Config.PackEngine) : Option Nat := p.cyc.map fun k => planPeriod (plan.igs.getD k {})

/-- The cycle in use of an instance in 2^-16 ns: that of its first cycle generator. DESIGN CHOICE (log 240) -/
def planCycle (plan : Config.PackPlan) : Option Nat := (plan.igs.find? (·.use == .cycle)).map planPeriod

/-- The gap of an engine's program (R136): what the pack declares, else the pack table's for the engine's cycle, or for the instance's
where the engine has none of its own. -/
def progGap (code role : Nat) (plan : Config.PackPlan) (p : Config.PackEngine) : Nat :=
  p.gap.elim (defaultGap code role ((((progCycle plan p).orElse fun _ => planCycle plan).getD 0) / 65536)) (·.toNat)

/-- Whether an engine has too much work for its cycle (R135): W of 1.35 ns each is more than the cycle less the gap. -/
def progSlow (code role : Nat) (plan : Config.PackPlan) (p : Config.PackEngine) : Bool :=
  (progCycle plan p).elim false fun c => decide ((c : Int) * 100 - 6553600 * progGap code role plan p < p.w * 135 * 65536)

/-- The plan of an instance, with what the pack table, R157 and R207 say of it, and a Frieze configuration; or the status that
refuses it: a configuration that the tables of spec/05 do not allow is no configuration of the pack. DEDUCED -/
def startPlan (s : State) (p : PackSlot) (role mask : Nat) (cfg : List Byte) :
    Except Nat (Config.PackPlan × Option FzCfg × List Config.PackEngine) :=
  let own := Config.packPlan (slotImage s p) role mask cfg
  let engines := fun (q : Config.PackPlan) =>
    (List.range ((roleEngines p.code role q).getD q.engines.length)).map fun k => q.engines.getD k {}
  let lim := fun (q : Config.PackPlan) => unitLimit p.code role q
  let bad := fun (q : Config.PackPlan) =>
    (lim q).1 < q.units || (lim q).2 < q.units2 || !portsOk s p.code role mask q || !cyclesOk p.code role q
      || !nodesOk p.code role q || !objectsOk s p.code role q || !unitsOk p.code role q
      || (p.code == 0x0B && role == 0 && (q.funcs.any (fun c => (mbException c).isSome) || q.meis.any (· != 14)))
      || (p.code != 0x0C && !instantsOk p.code role q)
  let count := fun (q : Config.PackPlan) => { q with nodes := BitVec.ofNat 16 (if (nodeLimit p.code role q).isSome then q.addrs.length else 0) }
  if p.code = 0x0C then
    let c := fzParse s cfg
    let c := { c with itemBits := fzItemBits c ((own.getD {}).itemBits) }
    let q := count (fzPlan s role c (own.getD {}))
    if cfg.length < 64 || fzBad s role mask c || bad q then .error stBadState else .ok (q, some c, engines q)
  else match own with
    | none => .error stBadState
    | some q =>
      let q := count { q with items := planItems p.code q }
      if bad q then .error stBadState else .ok (q, none, engines q)

/-- Whether what a configuration names is free (R134, R141): CAN controllers and Rasp units without an owner, pins without a unit, field
channels of no other instance, and 32 SDCI ports on the device. -/
def unitsFree (s : State) (code : Nat) (q : Config.PackPlan) : Bool :=
  q.cans.all (fun c => !s.on R.CAN_CTL_OWNER_EN c) && q.rasps.all (fun u => !s.on R.RASP_U_CTL_OWNER_EN u)
    && q.pins.all (fun p => s.get R.GPIO_PIN_OWN p == 0)
    && q.chans.all (fun c => (instWhere s fun x => x.st != 0 && x.chans.contains c.val).isEmpty)
    && (code != 0x09 || (s.packs.insts.filter fun p => p.2.used && p.2.st != 0 && p.2.code == 0x09).foldl
      (fun a p => a + p.2.units) q.units ≤ 32)

/-- The CAN controllers, Rasp units and pins of an instance go to its engines, unit by unit (R148, R152, R256, R287, R298). -/
def unitsTaken (s : State) (es : List Nat) (q : Config.PackPlan) : State :=
  let s := q.cans.zipIdx.foldl (fun s c => (s.put R.CAN_CTL_OWNER_LE (es.getD c.2 0) c.1).raise R.CAN_CTL_OWNER_EN c.1) s
  let s := q.rasps.zipIdx.foldl (fun s u => (s.put R.RASP_U_CTL_OWNER_LE (es.getD u.2 0) u.1).raise R.RASP_U_CTL_OWNER_EN u.1) s
  q.pins.zipIdx.foldl (fun s p => s.put R.GPIO_PIN_OWN ((q.rasps.getD (p.2 / 3) 0).val + 1) p.1) s

/-- They have no owner any more. DESIGN CHOICE -/
def unitsGiven (s : State) (x : Inst) : State :=
  let s := x.cans.foldl (fun s c => s.clr R.CAN_CTL_OWNER_EN c) s
  let s := x.rasps.foldl (fun s u => s.clr R.RASP_U_CTL_OWNER_EN u) s
  x.pins.foldl (fun s p => s.put R.GPIO_PIN_OWN 0 p) s

/-- The 8 KiB of shared scratch of a YP12 subdevice (R143): the highest free below the pack image area. DESIGN CHOICE -/
def scratchArea (s : State) : Option Nat :=
  ((List.range 256).map fun k => packArea.1 - 0x2000 * (k + 1)).find? fun a =>
    (instWhere s fun x => x.st != 0 && x.area == some a).isEmpty

/-- Atelier installs the FDB entries and stream filters that classify a pack's frames (R137, R240): static, to the engine. None where a
set of the FDB has no room. -/
def installed (s : State) (es : List Nat) (q : Config.PackPlan) : Option State :=
  let s := q.filters.foldl (fun s x => setSwWord s 3 x.1 0 (es.getD x.2 0 * 16 + 2 ^ 10 + 2 ^ 31)) s
  q.fdb.foldl (fun o x => o.bind fun s =>
    (fdbVictim s x.mac.toNat x.fid.toNat).map fun i =>
      fdbWrite s i (x.mac.toNat % 2 ^ 32) (x.mac.toNat / 2 ^ 32 + x.fid.toNat * 65536)
        (2 + 4 * es.getD x.engine 0 + 2 ^ 12 + 2 ^ 13) (x.stream.elim 0 fun h => h.val + 2 ^ 15) 0) (some s)

/-- They are taken away again. DESIGN CHOICE -/
def uninstalled (s : State) (x : Inst) : State :=
  let s := x.filters.foldl (fun s h => setSwWord s 3 h 0 0) s
  x.fdb.foldl (fun s k => (fdbFind s k.1 k.2).elim s fun i => setSwWord s 0 i 2 0) s

/-- Whether the device has a cross-device cast (R173). -/
def remoteCasts (s : State) : Bool := s.store.casts.any fun p => caValid p.2 && caRemote p.2

/-- The mode that an instance's time need gives its domain (R139, R143, R171, R173, R194): STEPRATE where R173 or a cluster star asks for
it; SERVO for YP12's DC_REF = SUBDEVICE, and for a domain in FREE mode, in which measurements steer nothing. DEDUCED -/
def startMode (s : State) (code need dom : Nat) (cluster : Bool) : State :=
  let m := s.get R.TB_D_CTL_MODE dom
  if need < 2 then s
  else if remoteCasts s || cluster then (if m = 2 then s else domCtlWrite s dom 2)
  else if m = 0 || m = 3 || (code = 0x01 && m = 2) then domCtlWrite s dom 1
  else s

/-- Allocate and program an instance (R134 to R138): the state in which it starts, or the status that refuses it. -/
def startAll (s : State) (i ch slot role mask hint : Nat) (plan : Config.PackPlan) (fz : Option FzCfg)
    (progs : List Config.PackEngine) : Except Nat State :=
  let p := s.slot slot
  let need := roleNeed p.code role plan.follow
  let block := plan.block || (p.code == 0x01 && role == 0)
  let area := if p.code = 0x01 && role = 1 then scratchArea s else none
  match freeEngines s progs.length block, freeIgs s plan.igs.length, startDomain s need plan.src hint, startItems s i plan with
  | some es, some igs, some dom, some (s1, groups, first) =>
    if progs.any (progSlow p.code role plan) || !unitsFree s p.code plan || (p.code == 0x01 && role == 1 && area.isNone) then
      .error stNoResource
    else
      let ports := portList mask
      let bind := fun k =>
        let b := rolePorts p.code role plan ports.length progs.length k
        (b.1.bind fun j => ports[j]?, b.2.bind fun j => ports[j]?)
      let attach := roleAttach p.code role plan progs.length
      let s2 := (igs.zip plan.igs).foldl (fun s q => startIg s q.1 dom fz.isNone q.2) s1
      let s3 := (groups.zip plan.groups).foldl (fun s q => startGroup s q.1 igs q.2) s2
      let slow := groups.any fun g =>
        tooSlow (groupSlots s3 g) (commitPeriod s3 (s3.rd R.SS_CG_CTL g) (tabGet 0 s3.cmd.minPeriod g))
      let s4 := (es.zip progs).zipIdx.foldl (fun s q =>
        startProg s q.1.1 slot (bind q.2) (attach q.2) igs (progGap p.code role plan q.1.2) q.1.2) s3
      if slow then .error stNoResource
      else if ports.any (fun q => 4 < (portEngines s4 es q).length)
          || (es.zipIdx.any fun q => attach q.2 && s4.on R.CE_BIND_B_EN q.1) then .error stBadState
      else if es.any fun e => 4 < (numsWhere 16 (raspOwned (unitsTaken s4 es plan) e)).length then .error stNoResource
      else match installed (unitsTaken (ports.foldl (fun s q => startOwner s es q) s4) es plan) es plan with
        | none => .error stNoResource
        | some s5 =>
          let ign := fun (u : Config.IgUse) => ((igs.zip plan.igs).filter (·.2.use == u)).map (·.1)
          let s6 := (startMode s5 p.code need dom (fz.elim false (fzCluster s5))).setInst i {
            used := true, st := 1, slot := slot, code := p.code, noCheck := !p.flags.testBit 0, role := role, ch := ch
            engines := es, groups := groups, igs := igs, first := first, n := plan.items.length, ports := mask, need := need
            src := plan.src, dom := dom, words := tabSet 0 [] 8 (w32 plan.nodes.toNat), countAt := s.now, units := plan.units
            rasps := plan.rasps.map (·.val), pins := plan.pins.map (·.val), cans := plan.cans.map (·.val)
            chans := plan.chans.map (·.val), area := area, cycs := ign .cycle
            late := groups.foldl (fun a g => a + s5.rd R.SS_CG_LATE g) 0
            fdb := plan.fdb.map fun x => (x.mac.toNat, x.fid.toNat), filters := plan.filters.map (·.1.val) }
          let s7 := fz.elim s6 fun c => fzBegin s6 i role dom (ports.headD 0) c (igs.zip plan.igs)
          .ok (es.foldl engRun s7)
  | _, _, _, _ => .error stNoResource

/-- Word 14 of the instance record (R158). -/
def instRes (x : Inst) : Nat :=
  x.groups.headD 0 + 2 ^ 8 * x.groups.length + 2 ^ 16 * x.engines.headD 0 + 2 ^ 24 * x.engines.length

/-- PACK_START (R332). -/
def packStart (s : State) (n : Nat) (b : List Byte) : State :=
  let ch := hmbCh s n
  let slot := hmbArg s n % 16
  let role := bits (hmbArg s n) 4 5
  let a := parAddr s b
  let s := parOpen s a (chLen b)
  let mask := leNat (parBytes s a 4) % 2 ^ 24
  let hint := leNat (parBytes s (a + 4) 4)
  let p := s.slot slot
  if !p.loaded || !p.roles.testBit role then ack s n stBadState 0
  else if chHeld s ch then ack s n stBusy 0
  else if (portList mask).any fun q => (instOfPort s q).isSome || inMaquette s q then ack s n stBusy 0
  else if !canPin s ch then ack s n stNoResource 0
  else match startPlan s p role mask (parBytes s (a + 0x20) (chLen b - 0x20)), (instOfCh s ch).orElse fun _ => instFree s with
    | .error st, _ => ack s n st 0
    | .ok _, none => ack s n stNoResource 0
    | .ok (plan, fz, progs), some i =>
      match startAll s i ch slot role mask hint plan fz progs with
      | .error st => ack s n st 0
      | .ok s =>
        let x := s.inst i
        let s := parWords s (a + 0x10) [instRes x, x.first, x.n, x.igs.headD 0 + 2 ^ 8 * x.igs.length]
        ack (notify s 1 i 1) n stOk i

/-! ### Stopping (R140) -/

/-- PACK_STOP (R140): every engine is stopped. -/
def packStop (s : State) (n : Nat) : State :=
  match (instWhere s fun x => x.st != 0 && x.st != 4 && x.ch == hmbCh s n).head? with
  | none => ack s n stBadState 0
  | some i =>
    let x := s.inst i
    let s := notify (s.setInst i { x with st := 4 }) 1 i 4
    (x.engines.foldl engStop s).setJob n (.packStop i)

/-- The smallest SLACK_MIN of an instance's engines (R158). -/
def instSlack (s : State) (x : Inst) : Nat :=
  match x.engines with
  | [] => (tabGet 0 x.words 11).toNat
  | es => u32 (es.foldl (fun m e => min m (s.gets R.CE_SLACK_MIN_V e)) 0x7FFFFFFF)

/-- An engine of an instance is free again: its binding, cycle and attachment are gone. -/
def engFree (s : State) (e : Nat) : State :=
  (engCycWrite (s.wr R.CE_BIND 0 e) e 0).modEng e fun x => { x with packSlot := 0, attach := none }

/-! ### The instance record (R158, R209) -/

/-- The pack-specific counters of a pack (R158), those of the units it has: of each segment, bus or port. -/
def packCounters (code units : Nat) : Nat :=
  match code with
  | 0x01 => 3 * units
  | 0x02 => 3
  | 0x03 => 2
  | 0x04 => 2
  | 0x05 => 3
  | 0x06 => 3
  | 0x07 => 3
  | 0x08 => 2
  | 0x09 => units
  | 0x0A => 3 * units
  | 0x0B => 3
  | _ => 0

/-- The words of a record that a pack's programs count, which they alone know; YPFZ's are computed. -/
def instLive (x : Inst) : List Nat :=
  if x.code = 0x0C then [] else [4, 5, 6, 7, 9, 10] ++ (List.range (packCounters x.code x.units)).map (16 + ·)

/-- A pack's counters are brought on (R158): each grows by a free value, once in a nanosecond; they were cleared at the start. -/
def instAdvance (s : State) (i : Nat) : State :=
  let x := s.inst i
  if x.st = 0 || x.countAt = s.now then s
  else (instLive x).foldl (fun s w =>
    let d := s.draw 32
    instCount d.2 i w d.1.toNat) (s.setInst i { x with countAt := s.now })

/-- INSTANCE_STOPPED (R140): all engines of a stopping instance are HALTED. -/
def instStopped (s : State) (i : Nat) : State :=
  if (s.inst i).used && (s.inst i).st = 4 && (s.inst i).engines.all fun e => engState s e == 0 then
    let s := instAdvance s i
    let x := s.inst i
    let ws := tabSet 0 x.words 11 (w32 (instSlack s x))
    let s := x.groups.foldl (fun s g => cgCtlWrite s g (setBits (s.rd R.SS_CG_CTL g) 0 1 0)) s
    let s := x.igs.foldl (fun s g => igCtlWrite s g (setBits (s.rd R.TB_IG_CTL g) 0 1 0)) s
    let s := uninstalled (unitsGiven (x.engines.foldl engFree s) x) x
    let y := { x with st := 0, engines := [], igs := [], ports := 0, words := ws, rasps := [], pins := [], cans := [] }
    let s := (numsWhere 128 fun n => !(fzBr (s.fzi i) n).edges.isEmpty).foldl (fun s n => fzShut s i n) s
    let s := (s.setInst i { y with chans := [], area := none, cycs := [], fdb := [], filters := [] }).setFzi i {}
    ackJobs (notify s 1 i 0) (.packStop i) stOk 0
  else s

/-- The nodes of an instance that exchange data (R159): for a pack other than YPFZ its programs know them alone, a free value. -/
def instSeen (s : State) (i : Nat) : State :=
  let conf := (tabGet 0 (s.inst i).words 8).toNat % 65536
  let r := s.draw 16
  instNodes r.2 i conf (if conf = 0 then r.1.toNat % 2 else r.1.toNat % (conf + 1))

/-- A round of an instance (R158, R159): LATE_CYCLES, and how many of its nodes exchange data. An instance without a cycle generator has
one at each presentation of its first group. DESIGN CHOICE (log 240) -/
def instRound (s : State) (i : Nat) : State :=
  let x := s.inst i
  let late := x.groups.foldl (fun a g => a + s.rd R.SS_CG_LATE g) 0
  let s := instCount (s.setInst i { x with late := late }) i 3 (if x.late < late then 1 else 0)
  if x.code = 0x0C then s else instSeen s i

/-- A cycle instant of an instance (R158): CYCLES. -/
def instCycle (s : State) (i : Nat) : State := instRound (instCount s i 2 1) i

/-- The 64 words of an instance record. -/
def instRecord (s : State) (i : Nat) : State × List Nat :=
  let s := instAdvance s i
  let x := s.inst i
  (s, (List.range 64).map fun k => match k with
    | 0 => x.st + 2 ^ 8 * bit01 x.noCheck + 2 ^ 12 * x.slot + 2 ^ 24 * x.code
    | 1 => x.role + 2 ^ 8 * i
    | 11 => instSlack s x
    | 12 => x.first
    | 13 => x.n
    | 14 => instRes x
    | _ => (tabGet 0 x.words k).toNat)

/-- The branch record of a node ID (R210). -/
def branchRecord (x : FzInst) (n : Nat) : List Nat :=
  let b := fzBr x n
  let m := fzMap x n
  let recent := (b.strikes.filter (fzRecent x.k)).length
  [b.st + 2 ^ 4 * min recent 15 + 2 ^ 8 * n + 2 ^ 16 * m.1 + 2 ^ 21 * m.2.1 + 2 ^ 24 * bit01 m.2.2.1,
    b.rt, u32 b.dev, b.maxDev, b.total, b.quar, b.repD, b.calFail]

end Sys2Proof.Machine
end

