-- ==== Sys2Proof/Machine/DevCmd.lean ====
section
/-! DEFINITION. Atelier's commands on channels, diagnostics, spares and the device (R330, R336 to R341; R419): their checks and
effects. -/
namespace Sys2Proof.Machine

/-! ### Channels (R330, R319, R320, R322) -/

/-- A field that must be zero. -/
def zeroBytes (bs : List Byte) : Bool := bs.all (· == 0)

/-- Whether the common fields of an entry are in range (R319). -/
def chFieldsOk (b : List Byte) : Bool :=
  bits (hdr b 2 2) 9 7 == 0 && hdr b 4 4 == 0 && zeroBytes (b.drop 0x2C) && chAddr b % 4 == 0 && decide (chLen b ≤ 65536)
    && chLen b % 4 == 0

/-- The valid items of a stream, in handle order, with their entries. -/
def streamItems (s : State) (b : List Byte) : List (Nat × BitVec 64) :=
  s.store.items.filter fun p => itValid p.2 && chFirst b ≤ p.1 && p.1 < chFirst b + chItems b

/-- The bytes of an item in a stream's buffer (R320): whole words, as IW_DATA. -/
def itemBytes (x : BitVec 64) : Nat := 4 * ((itWidth x + 31) / 32)

/-- The bytes of a stream's items. -/
def streamLen (s : State) (b : List Byte) : Nat := (streamItems s b).foldl (fun a p => a + itemBytes p.2) 0

/-- Whether a stream's fields, its items and its buffers are as R319 and R320 ask; every item is one of the group. DEDUCED -/
def streamOk (s : State) (b : List Byte) : Bool :=
  decide (1 ≤ chNbuf b) && decide (chNbuf b ≤ 256) && chBuf b % 64 == 0 && chStride b % 64 == 0 && decide (chFirst b < 262144)
    && decide (1 ≤ chItems b) && decide (chItems b ≤ 262144) && decide (chDq b < 64)
    && (streamItems s b).length == chItems b && (streamItems s b).all (fun p => itCg p.2 == chCg b)
    && decide (streamLen s b + (if chFlag b 8 then 0 else 16) ≤ chStride b)

/-- Whether a stream's queue can carry it (R320, R330): enabled, not HALTED, and no engine's. DEDUCED -/
def streamQueueOk (s : State) (q : Nat) : Bool :=
  s.on R.DQ_CTL_EN q && s.get R.DQ_STAT_STATE q != 3 && !s.on R.DQ_OWN_EN q

/-- Whether a running stream uses a queue. -/
def streamOnQueue (s : State) (q : Nat) : Bool :=
  s.cmd.streams.any fun e => chDq e.bytes == q

/-- Replace the running streams. -/
def State.setStreams (s : State) (l : List ChEntry) : State := { s with cmd := { s.cmd with streams := l } }

/-- CH_OPEN (R330): answers GEN; a group stream runs from the group's next presentation on. -/
def chOpen (s : State) (n : Nat) (b : List Byte) : State :=
  let c := hmbCh s n
  if !chFieldsOk b then ack s n stBadState 0
  else if chType b != 3 then ack s n stOk (chGen b)
  else if !streamOk s b || !streamQueueOk s (chDq b) then ack s n stBadState 0
  else if s.cmd.streams.any (·.ch == c) || streamOnQueue s (chDq b) then ack s n stBusy 0
  else if !canPin s c then ack s n stNoResource 0
  else ack (s.setStreams (s.cmd.streams ++ [⟨c, b⟩])) n stOk (chGen b)

/-- CH_CLOSE (R330). -/
def chClose (s : State) (n : Nat) (b : List Byte) : State :=
  let c := hmbCh s n
  if chType b = 2 && chHeld s c then ack s n stBusy 0
  else ack (cacheDrop (s.setStreams (s.cmd.streams.filter fun e => e.ch != c)) c) n stOk 0

/-- CH_REFRESH (R322, R330): an entry that cannot be used leaves the cached copy as it is. DEDUCED -/
def chRefresh (s : State) (n : Nat) (_ : List Byte) : State :=
  let c := hmbCh s n
  let b := entryAt s c
  if chHeld s c then ack s n stBusy 0
  else if !chtUp s then ack s n stTimeout 0
  else if !chFlag b 0 || !([1, 2, 3].contains (chType b)) then ack s n stBadCh 0
  else
    let t := cacheLoad (entryOpen s c) c b
    if 192 < pinCount t then ack s n stNoResource 0 else ack t n stOk (chGen b)

/-! ### Diagnostics (R336) -/

/-- The value that a read of a register shows. -/
def regView (s : State) (r : Reg) (i : Nat) : Nat := (derived s ⟨r, i, 0, 0⟩).getD (regReadWord r (s.rd r i))

/-- The word at a register address, 0 where there is none. -/
def wordView (s : State) (a : Nat) : Nat :=
  match regRef a with
  | some x => (derived s x).getD (regReadWord x.reg (s.rd x.reg x.i x.j x.k))
  | none => 0

/-- The channel TYPE and the words of a selector; none for a selector that is not defined. -/
def diagShape (sel : Nat) : Option (Nat × Nat) :=
  if sel = 0 then some (2, 64)
  else if sel = 1 then some (1, 8)
  else if sel = 2 then some (1, 192)
  else if sel = 3 then some (1, 1024)
  else if 0x100 ≤ sel && sel < 0x200 then some (2, 8)
  else if 0x200 ≤ sel && sel < 0x300 then some (1, 12)
  else none

/-- What a selector copies; none where there is no such instance or branch. Free values may be drawn. -/
def diagWords (s : State) (c sel : Nat) : Option (State × List Nat) :=
  if sel = 0 then (instOfCh s c).map (instRecord s)
  else if sel = 1 then
    some (s, [R.SS_NITEMS, R.SS_NCASTS, R.SS_WR_CNT, R.SS_THRU_CNT, R.SS_THRU_DEPTH, R.SS_REMOTE_CNT, R.SS_ECC_HANDLE,
      R.SS_EVT].map fun r => regView s r 0)
  else if sel = 2 then
    some (s, (List.range 48).flatMap fun e =>
      [R.CE_STAT, R.CE_SLACK_MIN, R.CE_LATE_CNT, R.CE_PACE].map fun r => regView s r e)
  else if sel = 3 then
    some (s, (List.range 256).flatMap fun g =>
      [R.SS_CG_LATE, R.SS_CG_COLLIDE, R.SS_CG_OVR, R.SS_CG_STALE].map fun r => regView s r g)
  else if sel < 0x200 then
    match instOfCh s c with
    | some i =>
      let x := s.inst i
      let k := sel - 0x100
      if x.code = 0x0C && x.role = 2 && x.st != 0 && 1 ≤ k && k ≤ 127 then some (s, branchRecord ((fzSync s i (fzNow s i)).fzi i) k) else none
    | none => none
  else some (s, (List.range 12).map fun k => wordView s (R.SS_CG_CTL.addr (sel - 0x200) 0 0 + 4 * k))

/-- DIAG_READ (R336). -/
def diagRead (s : State) (n : Nat) : State :=
  let sel := hmbArg s n
  let shape := diagShape sel
  chanCmd s n 0x30 (shape.elim [1, 2] fun x => [x.1]) (shape.elim 0 fun x => 4 * x.2) fun s b =>
    match shape, diagWords s (hmbCh s n) sel with
    | some _, some (t, ws) => ack (parWords t (parAddr s b) ws) n stOk ws.length
    | _, _ => ack s n stBadState 0

/-! ### Spares (R337) -/

/-- A SPARE_SWAP of a kind. -/
def spareCmd (s : State) (n kind : Nat) (f : State → Nat → State) : State :=
  if bits (hmbArg s n) 0 3 = kind then plainCmd s n 0x38 fun s => f s (bits (hmbArg s n) 3 9) else s

/-- KIND 0: a migration, acknowledged when the engine resumes. -/
def swapEngine (s : State) (n unit : Nat) : State :=
  if 48 ≤ unit then ack s n stBadState 0
  else if migBusy s then ack s n stBusy 0
  else if (spareEngine s).isNone then ack s n stNoResource 0
  else migStart (s.setJob n (.engine unit)) unit false

/-- KIND 1: a bank in use is one that serves a slot of memory or images. -/
def swapBank (s : State) (n unit : Nat) : State :=
  match (bankSlot s unit).filter (· < 88) with
  | none => ack s n stBadState 0
  | some k =>
    if s.get R.MEM_REMAP_STAT_STATE = 1 then ack s n stBusy 0
    else if (spareBank s).isNone then ack s n stNoResource 0
    else remapStart (s.setJob n (.bank unit)) k false

/-- KIND 2: an active lane of a link that is up. -/
def swapLane (s : State) (n unit : Nat) : State :=
  let k := unit / 2
  if 8 ≤ unit then ack s n stBadState 0
  else if (tabGet (0, false) s.pk.swap k).1 != 0 then ack s n stBusy 0
  else if !s.on R.PK_L_STAT_UP k then ack s n stBadState 0
  else if !pkSpare s k then ack s n stNoResource 0
  else pkSwap (s.setJob n (.lane unit)) k (unit % 2) false

/-- KIND 3: a segment in service. -/
def swapSegment (s : State) (n unit : Nat) : State :=
  let ch := unit / 8
  let seg := unit % 8
  if 256 ≤ unit || !(s.rd R.FX_CH_SEG ch).testBit seg || (s.fx ch).worn.elim false (fun w => w.1 == seg) then
    ack s n stBadState 0
  else if (s.fx ch).worn.isSome then ack s n stBusy 0
  else if !segSpare s ch then ack s n stNoResource 0
  else segSwap (s.setJob n (.segment unit)) ch seg

/-- KIND 4: armed for the next CORE reset. -/
def swapCore (s : State) (n unit : Nat) : State :=
  if 4 ≤ unit then ack s n stBadState 0
  else if !s.on R.PAT_AC_SPARE 4 || s.pat.coreArm.isSome then ack s n stNoResource 0
  else ack (coreArm s unit) n stOk 1

/-! ### Firmware updates (R338, R400, R402, R417) -/

/-- A FW_UPDATE of a phase. -/
def fwCmd (s : State) (n phase need : Nat) (f : State → List Byte → State) : State :=
  if hmbArg s n % 4 = phase then chanCmd s n 0x40 [1] need f else s

/-- The slot that is not the one started: the inactive slot. DEDUCED -/
def fwSlot (s : State) : Nat := 1 - s.get R.RST_STAT_BOOT_SLOT

/-- Open or close an update. -/
def State.setFw (s : State) (o : Option Nat) : State := { s with cmd := { s.cmd with fwOpen := o } }

/-- BEGIN: the slot is erased. Erased bytes read as unwritten ones do. DESIGN CHOICE -/
def fwBegin (s : State) (n : Nat) : State :=
  if s.cmd.fwOpen.isSome then ack s n stBusy 0
  else
    let k := fwSlot s
    let s := (s.zero .flash (slotFlash k) 0x800000).setFw (some k)
    ack (s.modBoot fun b => { b with unfit := if b.unfit.contains k then b.unfit else b.unfit ++ [k] }) n stOk k

/-- WRITE. -/
def fwWrite (s : State) (n : Nat) (b : List Byte) : State :=
  let a := parAddr s b
  let off := leNat (parBytes s a 4)
  let len := leNat (parBytes s (a + 4) 4)
  match s.cmd.fwOpen with
  | none => ack s n stBadState 0
  | some k =>
    if len % 256 != 0 || 65536 < len || 0x800000 < off + len then ack s n stBadState 0
    else
      let p := chtAddr s (leNat (parBytes s (a + 8) 8))
      let bs := parBytes s p len
      ack ((parOpen s p len).setBytes .flash (slotFlash k + off) bs) n stOk 0

/-- The status of an image that COMMIT finds, 0 if it passes (R338, R400, R417): an Atelier image, or a patch under KEY_ID 0 that
fits the patch area. -/
def fwStatus (s : State) (k : Nat) : Nat :=
  let n := s.mword .flash (slotFlash k + 0x20) + 29792
  if 0x400000 < n then stVerifyFail
  else
    let img := s.bytes .flash (slotFlash k) n
    match imageCheck s img with
    | some st => st
    | none =>
      if imgCode img = 0 then stOk
      else if imgCode img != 0xFFFE || 0x18000 < n then stVerifyFail
      else if hdr img 0x24 4 = 0 then stOk else stDenied

/-- COMMIT: a boot record for an Atelier image, a copy to the patch area for a patch. A refused one leaves the update open. -/
def fwCommit (s : State) (n : Nat) : State :=
  match s.cmd.fwOpen with
  | none => ack s n stBadState 0
  | some k =>
    let st := fwStatus s k
    if st != stOk then ack s n st 0
    else
      let len := s.mword .flash (slotFlash k + 0x20) + 29792
      let img := s.bytes .flash (slotFlash k) len
      let s := if imgCode img = 0 then bootCommit (s.modBoot fun b => { b with unfit := b.unfit.filter (· != k) }) k else (s.zero .flash 0x8000 0x18000).setBytes .flash 0x8000 img
      ack (s.setFw none) n stOk 0

/-- ABORT: the slot stays invalid. -/
def fwAbort (s : State) (n : Nat) : State :=
  if s.cmd.fwOpen.isNone then ack s n stBadState 0 else ack (s.setFw none) n stOk 0

/-! ### Attestation and the life cycle (R339, R419) -/

/-- The length of a report. -/
def reportLen (s : State) : Nat := 128 + 72 * s.get R.SEC_LOG_N_V + 49856

/-- A report without its signature. -/
def reportBody (s : State) (nonce : List Byte) : List Byte :=
  let n := s.get R.SEC_LOG_N_V
  let weak := s.packs.slots.any fun p => p.2.loaded && !p.2.flags.testBit 0
  let fl := bit01 (s.on R.SEC_STAT_LOG_FULL) + 2 * bit01 (s.on R.SEC_STAT_DBG_UNLOCKED) + 4 * bit01 weak
    + 8 * bit01 (s.rd R.SEC_TAMPER != 0)
  leBytes 4 0x54415A59 ++ leBytes 2 1 ++ leBytes 2 n ++ (List.range 4).flatMap (fun i => leBytes 4 (s.rd R.SEC_DEVID i))
    ++ leBytes 1 (lcState s) ++ leBytes 1 fl ++ leBytes 2 0 ++ leBytes 4 (s.get R.SEC_LC_CTR_V) ++ nonce ++ chainC s
    ++ s.bytes .secure 0 (72 * n)

/-- ATTEST: the report is on its way to be signed. -/
def attest (s : State) (n : Nat) (b : List Byte) : State :=
  let a := parAddr s b
  s.setJob n (.attest (a + 0x40) (reportBody s (parBytes s a 32)))

/-- ATTEST_SIGNED (R419): the first report asked for is signed and written. -/
def attestSigned (s : State) : State :=
  match s.cmd.order.findSome? fun n => match s.job n with
    | .attest a body => some (n, a, body)
    | _ => none with
  | none => s
  | some (n, a, body) =>
    let r := s.draw 256
    let t := r.2
    let rep := body ++ Config.slhDsaSign (idSeed s) r.1 body
    if chtUp t then ackOrNote (parWrite t a rep) n stOk (body.length + 49856) else ackOrNote t n stTimeout 0

/-- LC_CHANGE (R339, R409 to R414). -/
def lcChange (s : State) (n : Nat) : State :=
  let target := hmbArg s n % 8
  chanCmd s n 0x50 [1] (lcLength s target) fun s b =>
    let t := parBytes s (parAddr s b) (lcLength s target)
    match lcCheck s target t with
    | some st => ack s n st 0
    | none => lcStart (s.setJob n .lifeCycle) target t

/-! ### Block resets (R340, R396) -/

/-- A BLOCK_RESET of a class. -/
def resetCmd (s : State) (n : Nat) (cls : Nat → Bool) (f : State → Nat → Nat → State) : State :=
  let c := bits (hmbArg s n) 8 4
  if cls c then plainCmd s n 0x58 fun s => f s c (hmbArg s n % 256) else s

/-- Class 0: the reset follows 100 µs after the acknowledge. An undefined class, or index, is out of range. -/
def resetDevice (s : State) (n cls i : Nat) : State :=
  if cls != 0 || (i != 1 && i != 2) then ack s n stBadState 0
  else (ack s n stOk 0).modBoot fun b => { b with hostReset := b.hostReset ++ [(3 - i, s.now + 100000)] }

/-- How many blocks a class has (R340). -/
def classSize (cls : Nat) : Nat :=
  match cls with
  | 1 => 48
  | 2 => 24
  | 3 => 4
  | 4 => 16
  | _ => 64

/-- Whether a running instance, or the field service, owns a block: an engine or a port itself, the others through the engine
that owns them. -/
def blockOwned (s : State) (cls i : Nat) : Bool :=
  let eng := fun e => (instOfEngine s e).isSome || svcEngine s e
  match cls with
  | 1 => eng i
  | 2 => (instOfPort s i).isSome
  | 3 => s.on R.CAN_CTL_OWNER_EN i && eng (s.get R.CAN_CTL_OWNER_LE i)
  | 4 => s.on R.RASP_U_CTL_OWNER_EN i && eng (s.get R.RASP_U_CTL_OWNER_LE i)
  | _ => s.on R.DQ_OWN_EN i && eng (s.get R.DQ_OWN_LE i)

/-- Classes 1 to 5: a block that is not idle is refused first. -/
def resetBlock (s : State) (n cls i : Nat) : State :=
  if classSize cls ≤ i then ack s n stBadState 0
  else if !blockIdle s cls i then ack (s.raise R.RST_BLK_STAT_REFUSED) n stBusy 0
  else if blockOwned s cls i then ack s n stDenied 0
  else if cls = 5 && streamOnQueue s i then ack s n stBusy 0
  else ack (blockRequest (s.clr R.RST_BLK_STAT_DONE) cls i).1 n stOk 0

/-! ### Maquette (R341) -/

/-- The global Maquette registers, in the order of the parameter block after PARTNER. -/
def mqGlobals : List Reg := [R.CE_MQ_REF_BASE, R.CE_MQ_REF_LEN, R.CE_MQ_CAP_BASE, R.CE_MQ_CAP_LEN, R.CE_MQ_START_IG]

/-- Whether a port plays, captures or records. -/
def mqUses (s : State) (p : Nat) : Bool :=
  s.get R.CE_MQ_PORT_MODE p == 3 || s.on R.CE_MQ_PORT_CAPTURE p || s.on R.CE_MQ_PORT_RECORD p

/-- MAQUETTE. -/
def maquette (s : State) (n : Nat) (b : List Byte) : State :=
  let arg := hmbArg s n
  let p := bits arg 0 5
  let mode := bits arg 5 2
  let ws := leWords (parBytes s (parAddr s b) 24) 6
  let gs := mqGlobals.zip (ws.drop 1)
  let partner := ws.headD 0
  let v := mode + 2 ^ 8 * (partner % 32) + 2 ^ 16 * bits arg 7 1 + 2 ^ 17 * bits arg 8 1
  let others := (List.range 24).any fun q => q != p && mqUses s q
  let same := gs.all fun g => s.rd g.1 == g.2
  if 24 ≤ p || (mode = 2 && 24 ≤ partner) || 32 ≤ ws.getD 5 0 then ack s n stBadState 0
  else if others && !same then ack s n stBusy 0
  else ack (mqPortWrite (gs.foldl (fun s g => s.regWrite g.1 g.2) s) p v) n stOk 0

end Sys2Proof.Machine
end

