-- ==== Sys2Proof/Machine/Boot.lean ====
section
/-! DEFINITION. The commands of reset and boot (spec/17), of Armature (spec/18) and of the store's readiness (R65): events on pins,
supplies and timers, and steps of the boot that end. -/
namespace Sys2Proof.Machine

/-- The channels whose entries belong to running streams and to instances that are not stopped (R321). -/
def heldChannels (s : State) : List Nat :=
  (s.cmd.streams.map (·.ch) ++ (instWhere s fun i => i.st != 0).map fun i => (s.inst i).ch).eraseDups

/-- After a CORE reset the entries of running streams and instances are loaded again (R323). -/
def reloadEntries (s : State) : State :=
  (heldChannels s).foldl (fun s c => if chtUp s then cacheLoad (entryOpen s c) c (entryAt s c) else s) s

/-- The commands that came to their end while Atelier restarted are acknowledged in acceptance order (R315, R344). -/
def journalAcks (s : State) : State :=
  s.cmd.order.foldl (fun s n => match s.job n with
    | .done st v => ack s n st v
    | _ => s) s

/-- The field service takes up the channels that are configured and have no item (R277, R278). -/
def svcResume (s : State) : State :=
  (numsWhere 32 fun n => fxMode s n != 0 && (s.fx n).item.isNone).foldl svcEnable s

/-- ATL_READY (R397 step 8, R345, R391, R390, R315): Atelier enables its watchdog with 100 ms, clears ATL_RESTART and tells the host.
-/
def atlReady (s : State) : State :=
  if s.boot.phase != 4 then s
  else
    let reach := s.boot.reach.getD 0
    let s := awdCtlWrite s (1 + 100 * 65536)
    let s := svcResume (if reach = 2 then reloadEntries s else s)
    let s := (s.clr R.HIF_STAT_ATL_RESTART).put R.RST_STAT_REACH_LAST reach
    let s := s.wr R.RST_BOOT_TIME ((s.now - s.boot.releasedAt) / 1000)
    let s := s.modBoot fun b => { b with reach := none, phase := 5 }
    let s := notify s 4 0 (if reach = 2 then 1 else 0)
    let h := bit01 (s.on R.FX_STAT_HOLD) + 2 * bit01 (s.on R.FX_STAT_HOLD_EXPIRED)
    journalAcks (if h = 0 then s else notify s 5 0 h)

/-- UNLOCK (R422, R418, R420): the challenge is renewed; a third failure since POR is tamper. -/
def debugUnlock (s : State) (t : List Byte) : State :=
  let ok := unlockOk s t
  let s := { s with sec := { s.sec with chal := s.sec.chal + 1, fails := s.sec.fails + bit01 !ok } }
  if ok then measure (s.raise R.SEC_STAT_DBG_UNLOCKED) 7 (lcState s) (digest t)
  else if s.sec.fails = 3 then tamper s 3
  else s

/-- STORE_READY (R65): once a POR or a SYSTEM reset is released. -/
def storeReady (s : State) : State :=
  if s.boot.phase = 0 && s.boot.reach.elim false (· < 2) then s else s.raise R.SS_STAT_READY

/-- LC_CHANGE_DONE (R410, R401). -/
def execLcChangeDone (s : State) : Host.Outcome State Fault Refusal := .next (lcChangeDone s)

/-- SECURE_WIPE_DONE (R383). -/
def execSecureWipeDone (s : State) : Host.Outcome State Fault Refusal := .next (secureWipeDone s)

/-- HOST_RESET_PULSE (R340, R387). -/
def execHostResetPulse (s : State) : Host.Outcome State Fault Refusal := .next (hostResetPulse s)

/-- MEMORY_READY (R384, R397 steps 3 and 4). -/
def execMemoryReady (s : State) : Host.Outcome State Fault Refusal := .next (memoryReady s)

/-- SUPPLY_MONITOR_TRIP (R472, R387). -/
def execSupplyMonitorTrip (r : Fin 8) (mv : BitVec 16) (s : State) : Host.Outcome State Fault Refusal :=
  .next (supplyTrip s r mv.toNat)

/-- SUPPLY_GOOD (R387, R472). -/
def execSupplyGood (mvs : List (BitVec 16)) (s : State) : Host.Outcome State Fault Refusal :=
  .next (supplyGood s (mvs.map (·.toNat)))

/-- PORST_N_LOW (R388). -/
def execPorstNLow (len : BitVec 32) (s : State) : Host.Outcome State Fault Refusal :=
  .next (pinPulse s 1 0 1000 5000 len.toNat)

/-- SYSRST_N_LOW (R388). -/
def execSysrstNLow (len : BitVec 32) (s : State) : Host.Outcome State Fault Refusal :=
  .next (pinPulse s 2 1 (sysFilter s).1 (sysFilter s).2 len.toNat)

/-- RESET_RELEASE (R389, R394, R386). -/
def execResetRelease (s : State) : Host.Outcome State Fault Refusal := .next (resetRelease s)

/-- ATELIER_WATCHDOG_EXPIRY (R391). -/
def execAtelierWatchdogExpiry (s : State) : Host.Outcome State Fault Refusal := .next (awdExpire s)

/-- AWD_KICK (R391): a write of 1 to RST_AWD_KICK. -/
def execAwdKick (r : Requester) (s : State) : Host.Outcome State Fault Refusal :=
  .next (guardedWrite s r (R.RST_AWD_KICK.addr 0 0 0) (isAtl r || isArm r) awdKick)

/-- ARMATURE_WATCHDOG_EXPIRY (R392). -/
def execArmatureWatchdogExpiry (s : State) : Host.Outcome State Fault Refusal := .next (armExpire s)

/-- BOOT_IMAGE_READ_DONE (R397 step 5). -/
def execBootImageReadDone (s : State) : Host.Outcome State Fault Refusal := .next (imageRead s)

/-- BOOT_VERIFY_DONE (R397 steps 6 and 7, R399). -/
def execBootVerifyDone (s : State) : Host.Outcome State Fault Refusal := .next (bootVerify s)

/-- ATL_READY (R397 step 8). -/
def execAtlReady (s : State) : Host.Outcome State Fault Refusal := .next (atlReady s)

/-- HBOOT_LENGTH_WRITE (R400). -/
def execHbootLengthWrite (r : Requester) (v : Word) (s : State) : Host.Outcome State Fault Refusal :=
  .next (guardedWrite s r (R.RST_HBOOT_LEN.addr 0 0 0)
    (isAtl r || isArm r || (isHost r && s.on R.RST_STAT_HBOOT_WAIT)) fun s => hbootLength s v.toNat)

/-- TAMPER (R420, R421): source `k`: GLITCH, TEMP, PACE or DEBUG, which an instruction of an open port is not. -/
def execTamper (k : Fin 4) (s : State) : Host.Outcome State Fault Refusal :=
  .next (if k = 3 && debugOpen s then s else tamper s k)

/-- DEBUG_CHALLENGE (R422). -/
def execDebugChallenge (s : State) : Host.Outcome State Fault Refusal := .next (debugChallenge s)

/-- DEBUG_UNLOCK (R422). -/
def execDebugUnlock (t : List Byte) (s : State) : Host.Outcome State Fault Refusal := .next (debugUnlock s t)

/-- STORE_READY (R65). -/
def execStoreReady (s : State) : Host.Outcome State Fault Refusal := .next (storeReady s)

end Sys2Proof.Machine
end

