-- ==== Sys2Proof/Machine/Cmd.lean ====
section
/-! DEFINITION. The commands of AF 3.2.0 (spec/13), each as Atelier takes it from the mailbox named (R342), and what completes
them. -/
namespace Sys2Proof.Machine

/-- PACK_VERIFIED (R130, R131). -/
def execPackVerified (s : State) : Host.Outcome State Fault Refusal :=
  .next (packVerified s)

/-- INSTANCE_STOPPED (R140). -/
def execInstanceStopped (i : Fin 256) (s : State) : Host.Outcome State Fault Refusal :=
  .next (instStopped s i)

/-- UNDEFINED_OPCODE (R326). -/
def execUndefinedOpcode (n : Fin 16) (s : State) : Host.Outcome State Fault Refusal :=
  .next (if canTake s n && !(plainOps.contains (hmbOp s n) || chanOps.contains (hmbOp s n)) then ack s n stBadOp 0 else s)

/-- NOP (R329). -/
def execHmbNop (n : Fin 16) (s : State) : Host.Outcome State Fault Refusal :=
  .next (takeCmd s n 0x00 fun s => ack s n stOk (hmbArg s n))

/-- PING (R329): AF 3.2.0. -/
def execPing (n : Fin 16) (s : State) : Host.Outcome State Fault Refusal :=
  .next (takeCmd s n 0x01 fun s => ack s n stOk 0x3200)

/-- CH_OPEN (R330, R319, R320). -/
def execChOpen (n : Fin 16) (s : State) : Host.Outcome State Fault Refusal :=
  .next (chanCmd s n 0x08 [1, 2, 3] 0 fun s b => chOpen s n b)

/-- CH_CLOSE (R330). -/
def execChClose (n : Fin 16) (s : State) : Host.Outcome State Fault Refusal :=
  .next (chanCmd s n 0x09 [1, 2, 3] 0 fun s b => chClose s n b)

/-- CH_REFRESH (R322, R330). -/
def execChRefresh (n : Fin 16) (s : State) : Host.Outcome State Fault Refusal :=
  .next (chanCmd s n 0x0A [1, 2, 3] 0 fun s b => chRefresh s n b)

/-- PACK_LOAD (R331). -/
def execPackLoad (n : Fin 16) (s : State) : Host.Outcome State Fault Refusal :=
  .next (chanCmd s n 0x10 [1] 16 fun s b => packLoad s n b)

/-- PACK_UNLOAD (R331). -/
def execPackUnload (n : Fin 16) (s : State) : Host.Outcome State Fault Refusal :=
  .next (plainCmd s n 0x11 fun s => packUnload s n)

/-- PACK_START (R332, R134 to R138). -/
def execPackStart (n : Fin 16) (s : State) : Host.Outcome State Fault Refusal :=
  .next (chanCmd s n 0x12 [2] 0x20 fun s b => packStart s n b)

/-- PACK_STOP (R140). -/
def execPackStop (n : Fin 16) (s : State) : Host.Outcome State Fault Refusal :=
  .next (chanCmd s n 0x13 [2] 0 fun s _ => packStop s n)

/-- ITEM_SET (R328, R333, R334). -/
def execItemSet (n : Fin 16) (s : State) : Host.Outcome State Fault Refusal :=
  .next (batchCmd s n 0x18 16 12 itemSet)

/-- ITEM_CLEAR (R328, R333, R334). -/
def execItemClear (n : Fin 16) (s : State) : Host.Outcome State Fault Refusal :=
  .next (batchCmd s n 0x19 4 3 itemClear)

/-- CG_SET (R333, R334, R51). -/
def execCgSet (n : Fin 16) (s : State) : Host.Outcome State Fault Refusal :=
  .next (chanCmd s n 0x1A [1] 16 fun s b =>
    let a := parAddr s b
    let r := cgSet s (hmbArg s n) (leNat (parBytes s a 4)) (leNat (parBytes s (a + 4) 4))
    ack r.1 n r.2.1 r.2.2)

/-- CAST_SET (R328, R333, R334). -/
def execCastSet (n : Fin 16) (s : State) : Host.Outcome State Fault Refusal :=
  .next (batchCmd s n 0x1B 16 12 castAdd)

/-- CAST_CLEAR (R328, R333, R334). -/
def execCastClear (n : Fin 16) (s : State) : Host.Outcome State Fault Refusal :=
  .next (batchCmd s n 0x1C 16 12 castClear)

/-- PORT_CFG (R335). -/
def execPortCfg (n : Fin 16) (s : State) : Host.Outcome State Fault Refusal :=
  .next (cfgCmd s n 0x20)

/-- SW_CFG (R335). -/
def execSwCfg (n : Fin 16) (s : State) : Host.Outcome State Fault Refusal :=
  .next (cfgCmd s n 0x21)

/-- TIME_CFG (R335). -/
def execTimeCfg (n : Fin 16) (s : State) : Host.Outcome State Fault Refusal :=
  .next (cfgCmd s n 0x22)

/-- CAN_CFG (R335). -/
def execCanCfg (n : Fin 16) (s : State) : Host.Outcome State Fault Refusal :=
  .next (cfgCmd s n 0x23)

/-- RASP_CFG (R335). -/
def execRaspCfg (n : Fin 16) (s : State) : Host.Outcome State Fault Refusal :=
  .next (cfgCmd s n 0x24)

/-- FX_CFG (R335). -/
def execFxCfg (n : Fin 16) (s : State) : Host.Outcome State Fault Refusal :=
  .next (cfgCmd s n 0x28)

/-- RECORD_WAIT_TIMEOUT (R335, R328). -/
def execRecordWaitTimeout (n : Fin 16) (s : State) : Host.Outcome State Fault Refusal :=
  .next (recordTimeout s n)

/-- FX_HOLD_REL (R329, R282). -/
def execFxHoldRel (n : Fin 16) (s : State) : Host.Outcome State Fault Refusal :=
  .next (plainCmd s n 0x29 fun s =>
    ack (holdRelease s) n stOk (bit01 (s.on R.FX_STAT_HOLD) + 2 * bit01 (s.on R.FX_STAT_HOLD_EXPIRED)))

/-- DIAG_READ (R336). -/
def execDiagRead (n : Fin 16) (s : State) : Host.Outcome State Fault Refusal :=
  .next (diagRead s n)

/-- SPARE_SWAP KIND 0 (R337, R86). -/
def execSpareSwapEngine (n : Fin 16) (s : State) : Host.Outcome State Fault Refusal :=
  .next (spareCmd s n 0 fun s u => swapEngine s n u)

/-- SPARE_SWAP KIND 1 (R337, R382). -/
def execSpareSwapBank (n : Fin 16) (s : State) : Host.Outcome State Fault Refusal :=
  .next (spareCmd s n 1 fun s u => swapBank s n u)

/-- SPARE_SWAP KIND 2 (R337, R445). -/
def execSpareSwapLane (n : Fin 16) (s : State) : Host.Outcome State Fault Refusal :=
  .next (spareCmd s n 2 fun s u => swapLane s n u)

/-- SPARE_SWAP KIND 3 (R337, R263). -/
def execSpareSwapSegment (n : Fin 16) (s : State) : Host.Outcome State Fault Refusal :=
  .next (spareCmd s n 3 fun s u => swapSegment s n u)

/-- SPARE_SWAP KIND 4, and the refusal of KIND 5 to 7 (R337). -/
def execSpareSwapCore (n : Fin 16) (s : State) : Host.Outcome State Fault Refusal :=
  .next (if bits (hmbArg s n) 0 3 < 5 then spareCmd s n 4 fun s u => swapCore s n u
    else plainCmd s n 0x38 fun s => ack s n stBadState 0)

/-- FW_UPDATE BEGIN (R338). -/
def execFwUpdateBegin (n : Fin 16) (s : State) : Host.Outcome State Fault Refusal :=
  .next (fwCmd s n 0 0 fun s _ => fwBegin s n)

/-- FW_UPDATE WRITE (R338). -/
def execFwUpdateWrite (n : Fin 16) (s : State) : Host.Outcome State Fault Refusal :=
  .next (fwCmd s n 1 16 fun s b => fwWrite s n b)

/-- FW_UPDATE COMMIT (R338, R398, R417). -/
def execFwUpdateCommit (n : Fin 16) (s : State) : Host.Outcome State Fault Refusal :=
  .next (fwCmd s n 2 0 fun s _ => fwCommit s n)

/-- FW_UPDATE ABORT (R338). -/
def execFwUpdateAbort (n : Fin 16) (s : State) : Host.Outcome State Fault Refusal :=
  .next (fwCmd s n 3 0 fun s _ => fwAbort s n)

/-- ATTEST (R339, R419). -/
def execAttest (n : Fin 16) (s : State) : Host.Outcome State Fault Refusal :=
  .next (chanCmd s n 0x48 [1] (0x40 + reportLen s) fun s b => attest s n b)

/-- ATTEST_SIGNED (R419). -/
def execAttestSigned (s : State) : Host.Outcome State Fault Refusal :=
  .next (attestSigned s)

/-- LC_CHANGE (R339, R409 to R414). -/
def execLcChange (n : Fin 16) (s : State) : Host.Outcome State Fault Refusal :=
  .next (lcChange s n)

/-- BLOCK_RESET class 0 (R340). -/
def execBlockResetDevice (n : Fin 16) (s : State) : Host.Outcome State Fault Refusal :=
  .next (resetCmd s n (fun c => c == 0 || 6 ≤ c) fun s c i => resetDevice s n c i)

/-- BLOCK_RESET class 1 (R340, R396). -/
def execBlockResetEngine (n : Fin 16) (s : State) : Host.Outcome State Fault Refusal :=
  .next (resetCmd s n (· == 1) fun s c i => resetBlock s n c i)

/-- BLOCK_RESET class 2 (R340, R396). -/
def execBlockResetPort (n : Fin 16) (s : State) : Host.Outcome State Fault Refusal :=
  .next (resetCmd s n (· == 2) fun s c i => resetBlock s n c i)

/-- BLOCK_RESET class 3 (R340, R396). -/
def execBlockResetCan (n : Fin 16) (s : State) : Host.Outcome State Fault Refusal :=
  .next (resetCmd s n (· == 3) fun s c i => resetBlock s n c i)

/-- BLOCK_RESET class 4 (R340, R396). -/
def execBlockResetRasp (n : Fin 16) (s : State) : Host.Outcome State Fault Refusal :=
  .next (resetCmd s n (· == 4) fun s c i => resetBlock s n c i)

/-- BLOCK_RESET class 5 (R340, R396). -/
def execBlockResetQueue (n : Fin 16) (s : State) : Host.Outcome State Fault Refusal :=
  .next (resetCmd s n (· == 5) fun s c i => resetBlock s n c i)

/-- MAQUETTE (R341, R91). -/
def execMaquette (n : Fin 16) (s : State) : Host.Outcome State Fault Refusal :=
  .next (chanCmd s n 0x60 [1] 24 fun s b => maquette s n b)

/-- NOTIFICATION (R345). -/
def execNotification (s : State) : Host.Outcome State Fault Refusal :=
  .next (sendNote s)

/-! ### Reads that fail (R305, R326) -/

/-- The channel TYPEs that a command accepts and the bytes of parameters that it reads (R329, R333, R335, R336, R338, R339, R341). -/
def chanReq (s : State) (n : Nat) : List Nat × Nat :=
  match hmbOp s n with
  | 0x08 | 0x09 | 0x0A => ([1, 2, 3], 0)
  | 0x10 | 0x1A => ([1], 16)
  | 0x12 => ([2], 0x20)
  | 0x13 => ([2], 0)
  | 0x19 => ([1], 4 * hmbArg s n)
  | 0x30 => (diagShape (hmbArg s n)).elim ([1, 2], 0) fun x => ([x.1], 0)
  | 0x40 => ([1], if hmbArg s n % 4 = 1 then 16 else 0)
  | 0x48 => ([1], 0x20)
  | 0x50 => ([1], lcLength s (hmbArg s n % 8))
  | 0x60 => ([1], 24)
  | _ => ([1], 16 * hmbArg s n)

/-- The state in which a command's first read of host memory that fails leaves it (R318, R321, R322, R326): of its entry, of bytes 0 to 3
of it, or of its parameters; none if it reads nothing there, or an earlier check fails. -/
def failedRead (s : State) (n : Nat) : Option State :=
  let c := hmbCh s n
  if !s.on R.HIF_CHT_CTL_EN || s.on R.HIF_CHT_CTL_LOC || s.get R.HIF_CHT_N_V ≤ c then none
  else match cached s c with
    | none => some s
    | some b =>
      let gen := s.on R.HIF_CHT_CTL_CHECK_GEN && !chHeld s c
      let r := chanReq s n
      if r.1.contains (chType b) && (gen || (r.2 != 0 && r.2 ≤ chLen b)) then
        some (ringOn (cacheUse (s.addSat R.HIF_CHC_HIT_V 1) c b) n b)
      else none

/-- A command's read fails (R305): the command is acknowledged TIMEOUT. Its reads begin after its acceptance. -/
def cmdTimeout (s : State) (ur : Bool) (n : Nat) : State :=
  if cplOver s ur (tabGet 0 s.cmd.since n) && canTake s n && chanOps.contains (hmbOp s n) then
    (failedRead s n).elim s fun s => ack (cplNote s ur) n stTimeout 0
  else s

end Sys2Proof.Machine
end

