-- ==== Sys2Proof/Machine/Dma.lean ====
section
/-! DEFINITION. The DMA engine at work (spec/14): descriptor reads, the movement of a burst's data, returns, records and pulses,
and the commands of its chapter. -/
namespace Sys2Proof.Machine

/-- Fabric reads of a queue (R348): the bytes read, and the status that ends them: 5 FW_DENY, 6 BUS_ERR (R350). -/
def dmaReads (s : State) : List (Nat × Nat) → State × List Byte × Option Nat
  | [] => (s, [], none)
  | (a, n) :: t =>
    if !fwPass s .dma false a then (fwRefuse s .dma a, [], some 5)
    else
      let p := passedRead { s with bus := {} } .dma a n
      if p.1.bus.err then (p.1, [], some 6)
      else
        let q := dmaReads p.1 t
        (q.1, p.2 ++ q.2.1, q.2.2)

/-- Fabric writes of a queue: the number of bytes written, and the status that ends them. -/
def dmaWrites (s : State) : List (Nat × Nat) → List Byte → State × Nat × Option Nat
  | [], _ => (s, 0, none)
  | (a, n) :: t, bs =>
    if !fwPass s .dma true a then (fwRefuse s .dma a, 0, some 5)
    else
      let s := passedWrite { s with bus := {} } .dma a (bs.take n)
      if s.bus.err then (s, 0, some 6)
      else
        let q := dmaWrites s t (bs.drop n)
        (q.1, n + q.2.1, q.2.2)

/-- A read of fabric (`host` false) or host memory: 4 HOST_ERR while the host cannot be reached (R350). -/
def readEnd (s : State) (host : Bool) (a n : Nat) : State × List Byte × Option Nat :=
  if host then if hostMemUp s then (s, s.bytes .host (a % 2 ^ 64) n, none) else (s, [], some 4)
  else dmaReads s (chunks n (a % 2 ^ 32) n)

/-- A write. -/
def writeEnd (s : State) (host : Bool) (a : Nat) (bs : List Byte) : State × Nat × Option Nat :=
  if host then if hostMemUp s then (s.setBytes .host (a % 2 ^ 64) bs, bs.length, none) else (s, 0, some 4)
  else dmaWrites s (chunks bs.length (a % 2 ^ 32) bs.length) bs

/-- The address of a queue's ring entry at HEAD. -/
def ringAt (s : State) (q : Nat) : Nat := s.get64 R.DQ_RING_LO R.DQ_RING_HI q / 32 * 32 + 32 * s.rd R.DQ_HEAD q

/-- The longest frame that HDMA transmit takes, FCS included. HDMA has no MAC of its own: the largest MAC_MAXLEN of the external
ports. DESIGN CHOICE -/
def hdmaMax (s : State) : Nat := (List.range 24).foldl (fun m p => max m (s.rd R.MAC_MAXLEN p)) 0

/-- Whether a descriptor is well formed (R349, R359). -/
def descOk (s : State) (x : DqSt) : Bool :=
  let op := bits x.ctl 0 2
  let src := srcSp x
  let dst := dstSp x
  let sc := x.src % 256
  let dc := x.dst % 256
  let periph := src == 2 || dst == 2
  if op = 3 || x.len = 0 || dst = 3 then false
  else if op = 1 then dst != 2
  else if op = 2 then src != 3 && !periph
  else
    src != 3 && (!periph || x.len % 4 == 0)
      && (src != 2 || (16 ≤ sc && sc < 32) || sc == 0x20)
      && (dst != 2 || dc < 16 || (dc == 0x21 && 60 ≤ x.len && x.len + 4 ≤ hdmaMax s))

/-- DESCRIPTOR_FETCH (R346, R349, R350, R358): the descriptor at HEAD has been read. -/
def descFetch (s : State) (q : Nat) : State :=
  if (s.dq q).phase != 1 || (s.dq q).wait || !s.on R.DQ_CTL_EN q || !s.on R.DMA_CTL_EN then s
  else
    let p := readEnd s (s.on R.DQ_CTL_RING_SP q) (ringAt s q) 32
    let s := p.1
    match p.2.2 with
    | some _ => tagFreed (dqHalt (s.raise R.DQ_STAT_FETCH_ERR q) q)
    | none =>
      let b := p.2.1
      let ctl := hdr b 0 4
      if !ctl.testBit 31 then tagFreed (dqIdle s q)
      else
        let x : DqSt := { s.dq q with
          phase := 2, ctl := ctl, len := hdr b 4 3, src := hdr b 8 8, dst := hdr b 16 8, issued := 0, done := 0
          result := none, bursts := [], held := false, record := s.on R.DQ_CTL_MODE q }
        tagFreed (s.setDq q (if descOk s x then x else { x with phase := 3, result := some 7 }))

/-- The first place at which two byte strings differ. -/
def firstDiff : List Byte → List Byte → Nat → Option Nat
  | a :: s, b :: t, i => if a = b then firstDiff s t (i + 1) else some i
  | _, _, _ => none

/-- The words that a Rasp unit's push FIFO supplies (R359): as bytes, and how many bytes it had. -/
def takePush (s : State) (u n : Nat) : State × List Byte × Nat :=
  (List.range (n / 4)).foldl (fun p _ =>
    let had := s.on R.RASP_U_CTL_EN u && !(p.1.unit u).push.isEmpty
    let w := raspPush p.1 u
    (w.1, p.2.1 ++ leBytes 4 w.2.toNat, p.2.2 + (if had then 4 else 0))) (s, [], 0)

/-- The source's bytes of a COPY burst (R348, R359): the bytes, how many of them the source supplied, and a status. -/
def copySource (s : State) (x : DqSt) (b : Burst) : State × List Byte × Nat × Option Nat :=
  if srcSp x = 2 then
    let c := x.src % 256
    if c = 0x20 then
      let bs := s.dma.hrx.take b.len
      ({ s with dma := { s.dma with hrx := s.dma.hrx.drop b.len } }, bs, bs.length, none)
    else if s.on R.RASP_U_CTL_OWNER_EN (c % 16) then (s, [], 0, some 6)
    else
      let p := takePush s (c % 16) b.len
      (p.1, p.2.1, p.2.2, if p.2.2 < b.len then some 2 else none)
  else
    let p := readEnd s (srcSp x == 1) (x.src + b.off) b.len
    (p.1, p.2.1, p.2.1.length, p.2.2)

/-- The destination takes a burst's bytes. -/
def putDest (s : State) (q : Nat) (x : DqSt) (b : Burst) (bs : List Byte) : State × Nat × Option Nat :=
  if dstSp x = 2 then
    let c := x.dst % 256
    if c = 0x21 then
      ({ s with dma := { s.dma with htx := tabSet [] s.dma.htx q (tabGet [] s.dma.htx q ++ bs) } }, bs.length, none)
    else if s.on R.RASP_U_CTL_OWNER_EN c then (s, 0, some 6)
    else ((toWords bs).foldl (fun s w => raspPull s c w) s, bs.length, none)
  else writeEnd s (dstSp x == 1) (x.dst + b.off) bs

/-- The movement of a burst's data (R349): the bytes transferred (for COMPARE, those that are equal), and a status. -/
def burstMove (s : State) (q : Nat) (x : DqSt) (b : Burst) : State × Nat × Option Nat :=
  match bits x.ctl 0 2 with
  | 0 =>
    let p := copySource s x b
    let w := putDest p.1 q x b p.2.1
    (w.1, min w.2.1 p.2.2.1, w.2.2.or p.2.2.2)
  | 1 =>
    let bs := (List.range b.len).map fun i => BitVec.ofNat 8 (x.src / 256 ^ ((x.dst + b.off + i) % 4))
    putDest s q x b bs
  | _ =>
    let p := readEnd s (srcSp x == 1) (x.src + b.off) b.len
    let w := readEnd p.1 (dstSp x == 1) (x.dst + b.off) b.len
    match p.2.2.or w.2.2 with
    | some st => (w.1, 0, some st)
    | none =>
      match firstDiff p.2.1 w.2.1 0 with
      | some i => (w.1, i, some 1)
      | none => (w.1, b.len, none)

/-- The count and the result of a descriptor after a burst (R349, R350, R360): a COMPARE's DONE is the lowest offset that differs, an
error leaves the bytes transferred before it, and of an aborted descriptor every write that completes counts. -/
def burstCount (x : DqSt) (b : Burst) (moved : Nat) (st : Option Nat) : DqSt :=
  match x.result, st with
  | none, some 1 => { x with done := b.off + moved, result := some 1 }
  | some 1, some 1 => { x with done := min x.done (b.off + moved) }
  | some 1, _ => x
  | some 3, _ => { x with done := x.done + moved }
  | some _, _ => x
  | none, st => { x with done := x.done + moved, result := st }

/-- A descriptor that has nothing in flight and nothing left to issue is to be returned; a frame for HDMA is complete. -/
def descEnd (s : State) (q : Nat) : State :=
  let x := s.dq q
  if x.phase = 2 && x.bursts.isEmpty && !x.held && (x.result.isSome || x.issued == x.len) then
    let f := tabGet [] s.dma.htx q
    let s := descStop s q
    if !f.isEmpty && x.result.isNone then ingressFrame s 27 0 0 (f ++ fcsOf f) else s
  else s

/-- The end of a frame from HDMA (R359): its last byte ends the descriptor; what LEN leaves of it is lost. -/
def hdmaEnd (s : State) (q : Nat) : State :=
  let x := s.dq q
  if fromHdma x && x.result.isNone then
    if s.dma.hrx.isEmpty then s.setDq q { x with result := some 0 }
    else if x.issued = x.len then s.setDq q { x with result := some 8 }
    else s
  else s

/-- Whether a pull FIFO that is full holds a burst by handshake (R359). -/
def pullHolds (s : State) (x : DqSt) (b : Burst) : Bool :=
  let u := x.dst % 256
  bits x.ctl 0 2 == 0 && dstSp x == 2 && u < 16 && s.on R.RASP_U_CTL_EN u && !s.on R.RASP_U_CTL_OWNER_EN u
    && decide (32 < 4 * (s.unit u).pull.length + b.len)

/-- BURST_COMPLETE (R352, R354): the `i`-th burst in flight of a queue, unless its destination holds it. -/
def burstDone (s : State) (q i : Nat) : State :=
  let x := s.dq q
  match if x.phase = 2 then x.bursts[i]? else none with
  | none => s
  | some b =>
    if pullHolds s x b then s
    else
      let p := burstMove s q x b
      let y := p.1.dq q
      let s := p.1.setDq q (burstCount { y with bursts := y.bursts.eraseIdx i } b p.2.1 p.2.2)
      descEnd (hdmaEnd (burstLeaves s) q) q

/-- Carry out what is left of a descriptor, burst by burst. -/
def descRun (s : State) (q : Nat) : Nat → State
  | 0 => s
  | fuel + 1 =>
    if dqReady s q && canIssue s q then descRun (burstDone (issueBurst s q) q (s.dq q).bursts.length) q fuel else s

/-- A descriptor of an operation is carried out whole, when none of its bursts is in flight (R349). -/
def descWhole (s : State) (q op : Nat) : State :=
  let x := s.dq q
  if x.phase = 2 && bits x.ctl 0 2 = op && x.bursts.isEmpty then descRun s q (x.len - x.issued) else s

/-- A completion pulse goes to its target, and starts the queues that it triggers (R351, R355). -/
def dqPulse (s : State) (q : Nat) : State :=
  let kind := s.get R.DQ_PULSE_KIND q
  let idx := s.get R.DQ_PULSE_INDEX q
  if kind = 0 then s
  else
    let s :=
      if kind = 1 then
        let e := s.get R.DQ_OWN_LE q
        match if s.on R.DQ_OWN_EN q then (dqOwned s e).findIdx? (· == q) else none with
        | some j => engLine s e (16 + j)
        | none => s
      else if kind = 3 then if idx < 32 then igCtlWrite s idx (s.rd R.TB_IG_CTL idx ||| 1) else s
      else dqStart s idx
    ((dqTriggered s 2 q).filter fun p => !(kind == 2 && p == idx)).foldl dqStart s

/-- The completion record of a descriptor (R356). -/
def recordWords (s : State) (q r done : Nat) : List Nat :=
  [s.rd R.DQ_HEAD q + q * 2 ^ 16 + (if (s.dq q).wraps then 0 else 2 ^ 31), r, done, domView s 0]

/-- Append a record (R356). -/
def recordPut (s : State) (q r done : Nat) : State :=
  let i := s.rd R.DQ_RQ_HEAD q
  let n := clamp4096 (s.rd R.DQ_RQ_SIZE q)
  let bs := (recordWords s q r done).flatMap (leBytes 4)
  let s := (writeEnd s (s.on R.DQ_CTL_RQ_SP q) (s.get64 R.DQ_RQ_LO R.DQ_RQ_HI q / 16 * 16 + 16 * i) bs).1
  let s := if n ≤ i + 1 then s.setDq q { s.dq q with wraps := !(s.dq q).wraps } else s
  s.put R.DQ_RQ_HEAD_V ((i + 1) % n) q

/-- The queue after a return (R346, R350, R360). -/
def dqNext (s : State) (q r : Nat) : State :=
  if !s.on R.DQ_CTL_EN q then
    ((s.setDq q { s.dq q with phase := 0 }).put R.DQ_STAT_STATE 0 q).raise R.DQ_STAT_IDLE q
  else if 4 ≤ r && r ≤ 7 then dqHalt (s.raise R.DQ_EVT_ERR q) q
  else if s.on R.DQ_CTL_STEP q then dqIdle s q
  else dqRead s q

/-- DESCRIPTOR_RETURN (R347, R350, R355 to R357, R360). -/
def descReturn (s : State) (q : Nat) : State :=
  let x := s.dq q
  let r := x.result.getD 0
  if x.phase != 3 then s
  else if x.record && rqFull s q && r != 3 then (s.put R.DQ_STAT_STATE 4 q).raise R.DQ_EVT_RQ_FULL q
  else
    let host := s.on R.DQ_CTL_RING_SP q
    let a := ringAt s q
    let done := x.done % 2 ^ 24
    let s := (writeEnd s host (a + 0x18) (leBytes 4 r ++ leBytes 4 done)).1
    let s := (writeEnd s host a (leBytes 4 (x.ctl % 2 ^ 31))).1
    let s := if !x.record then s
      else if rqFull s q then s.addSat R.DQ_RQ_LOST_V 1 q
      else recordPut s q r done
    let s := (s.put R.DQ_HEAD_V ((s.rd R.DQ_HEAD q + 1) % clamp4096 (s.rd R.DQ_SIZE q)) q).addSat R.DQ_DONE_CNT_V 1 q
    let s := (s.put R.DQ_STAT_LAST r q).setDq q { s.dq q with lastDone := done, result := none }
    let s := if r = 4 || r = 5 || r = 6 || r = 7 then s.raise R.DQ_EVT_ERR q
      else if r = 2 then s.raise R.DQ_EVT_UNDERRUN q else if r = 1 then s.raise R.DQ_EVT_MISMATCH q else s
    let s := dqNext s q r
    if !x.record && (r = 0 || r = 1 || r = 8) then dqPulse s q else s

/-! ### The commands -/

/-- QUEUE_DOORBELL (R351, R361): DQn_DB takes 1, or DB in the window of the engine that owns the queue. -/
def execQueueDoorbell (w : DoneWriter) (q : Fin 64) (s : State) : Host.Outcome State Fault Refusal :=
  .next (match w with
    | .engine e => if (dqOwned s e).contains q.val then dqStart s q else s.raise R.CE_ERR_IO_RSVD e
    | .bus r => guardedWrite s r (R.DQ_DB.addr q 0 0) (mayRing s r q) fun s => dqStart s q)

/-- DESCRIPTOR_FETCH (R346, R349, R350). -/
def execDescriptorFetch (q : Fin 64) (s : State) : Host.Outcome State Fault Refusal := .next (descFetch s q)

/-- DMA_COPY (R349, R359). -/
def execDmaCopy (q : Fin 64) (s : State) : Host.Outcome State Fault Refusal := .next (descWhole s q 0)

/-- DMA_FILL (R349). -/
def execDmaFill (q : Fin 64) (s : State) : Host.Outcome State Fault Refusal := .next (descWhole s q 1)

/-- DMA_COMPARE (R349). -/
def execDmaCompare (q : Fin 64) (s : State) : Host.Outcome State Fault Refusal := .next (descWhole s q 2)

/-- BURST_GRANT (R353, R354). -/
def execBurstGrant (s : State) : Host.Outcome State Fault Refusal := .next (burstGrant s)

/-- DMA_AGING_GRANT (R31, R353). -/
def execDmaAgingGrant (s : State) : Host.Outcome State Fault Refusal := .next (agingGrant s)

/-- BURST_COMPLETE (R352, R354). -/
def execBurstComplete (q : Fin 64) (i : Fin 16) (s : State) : Host.Outcome State Fault Refusal :=
  .next (burstDone s q i)

/-- DESCRIPTOR_RETURN (R347, R350, R355 to R358, R360). -/
def execDescriptorReturn (q : Fin 64) (s : State) : Host.Outcome State Fault Refusal := .next (descReturn s q)

/-- RQ_TAIL_WRITE (R357). -/
def execRqTailWrite (r : Requester) (q : Fin 64) (v : BitVec 12) (s : State) : Host.Outcome State Fault Refusal :=
  .next (guardedWrite s r (R.DQ_RQ_TAIL.addr q 0 0) (isAtl r || (isHost r && s.on R.DQ_CTL_HOST q))
    fun s => rqTailWrite s q v.toNat)

/-- QUEUE_DISABLE (R360): DQn_CTL with EN clear. -/
def execQueueDisable (r : Requester) (q : Fin 64) (v : Word) (s : State) : Host.Outcome State Fault Refusal :=
  .next (guardedWrite s r (R.DQ_CTL.addr q 0 0) (isAtl r) fun s => dqCtlWrite s q (setBits v.toNat 0 1 0))

/-- QUEUE_RESUME (R350): DQn_CTL with EN and RESUME set. -/
def execQueueResume (r : Requester) (q : Fin 64) (v : Word) (s : State) : Host.Outcome State Fault Refusal :=
  .next (guardedWrite s r (R.DQ_CTL.addr q 0 0) (isAtl r)
    fun s => dqCtlWrite s q (setBits (setBits v.toNat 0 1 1) 7 1 1))

/-- STARVATION_GRANT (R32, R33). -/
def execStarvationGrant (arb : Fin 256) (asking : List (Fin 256)) (first : Fin 256) (s : State) :
    Host.Outcome State Fault Refusal := .next (arbGrant s arb (asking.map (·.val)) first)

end Sys2Proof.Machine
end

