-- ==== Sys2Proof/Machine/Engine.lean ====
section
/-! DEFINITION. Meanings of the commands of the engines as hardware (spec/03; slots of spec/06). -/
namespace Sys2Proof.Machine

/-- A write of a register of the engine block that only Atelier and Patina may write (spec/03, "Registers"). -/
def engBus (s : State) (r : Requester) (a : Nat) (f : State → State) : State :=
  guardedWrite s r a (isAtl r || isPat r) f

/-- ENGINE_START (R80): CE_CTL with RUN set. -/
def execEngineStart (r : Requester) (e : Fin 48) (v : Word) (s : State) : Host.Outcome State Fault Refusal :=
  .next (engBus s r (R.CE_CTL.addr e 0 0) fun s => engCtlWrite s e (setBits v.toNat 0 1 1))

/-- STARTPEND_START (R80): once an instant of START_IG has fired. -/
def execStartpendStart (e : Fin 48) (s : State) : Host.Outcome State Fault Refusal :=
  .next (if engState s e = 5 && (s.eng e).startDue then engBegin s e else s)

/-- ENGINE_STOP (R84, R85): CE_CTL with STOP set. -/
def execEngineStop (r : Requester) (e : Fin 48) (v : Word) (s : State) : Host.Outcome State Fault Refusal :=
  .next (engBus s r (R.CE_CTL.addr e 0 0) fun s => engCtlWrite s e (setBits v.toNat 1 1 1))

/-- STOP_HALT (R84): once the cycle instant has passed. -/
def execStopHalt (e : Fin 48) (s : State) : Host.Outcome State Fault Refusal :=
  .next (if engState s e = 3 && (s.eng e).haltDue then stopHalt s e else s)

/-- SLACK_CLEAR (R81). -/
def execSlackClear (r : Requester) (e : Fin 48) (s : State) : Host.Outcome State Fault Refusal :=
  .next (guardedWrite s r (R.CE_SLACK_CLR.addr e 0 0) true fun s => slackClear s e)

/-- JOB_MARK (R82). -/
def execJobMark (e : Fin 48) (k : Fin 8) (s : State) : Host.Outcome State Fault Refusal := .next (jobMark s e k)

/-- LOADER_DATA_WRITE (R79). -/
def execLoaderDataWrite (r : Requester) (v : Word) (s : State) : Host.Outcome State Fault Refusal :=
  .next (engBus s r (R.CE_LD_DATA.addr 0 0 0) fun s => loaderWrite s v.toNat)

/-- LOADER_DATA_READ (R79): a requester that may not use the loader reads without an access of it. -/
def execLoaderDataRead (r : Requester) (s : State) : Host.Outcome State Fault Refusal :=
  .next (guardedRead s r (R.CE_LD_DATA.addr 0 0 0) fun s => loaderRead s)

/-- LOADER_ZERO (R79): CE_LD_SEL with ZERO set. -/
def execLoaderZero (r : Requester) (v : Word) (s : State) : Host.Outcome State Fault Refusal :=
  .next (engBus s r (R.CE_LD_SEL.addr 0 0 0) fun s => loaderSel s (setBits v.toNat 9 1 1))

/-- LOADER_ZERO_DONE (R79). -/
def execLoaderZeroDone (s : State) : Host.Outcome State Fault Refusal := .next (loaderZeroDone s)

/-- SPLICE_ENTRY_PUSH (R75). -/
def execSpliceEntryPush (e : Fin 48) (b : Bool) (v : Word) (s : State) : Host.Outcome State Fault Refusal :=
  .next (splPush s e b v)

/-- SPLICE_FLUSH (R74, SPL_FLUSH). -/
def execSpliceFlush (e : Fin 48) (b : Bool) (s : State) : Host.Outcome State Fault Refusal := .next (splFlush s e b)

/-- FRAME_RECEIVE (R73 to R78, R85, R169, R214). -/
def execFrameReceive (p : Fin 24) (f : List Byte) (sof eof : Bool) (s : State) : Host.Outcome State Fault Refusal :=
  .next (frameReceive s p f sof eof)

/-- TXD_APPEND (R74, R83). -/
def execTxdAppend (e : Fin 48) (b : Bool) (v : Word) (s : State) : Host.Outcome State Fault Refusal :=
  .next (txdAppend s e b v)

/-- TXC_WRITE (R74). -/
def execTxcWrite (e : Fin 48) (b : Bool) (v : Word) (s : State) : Host.Outcome State Fault Refusal :=
  .next (txcWrite s e b v)

/-- SCHEDULED_FRAME_START (R74, R82, R83). -/
def execScheduledFrameStart (e : Fin 48) (b : Bool) (s : State) : Host.Outcome State Fault Refusal :=
  .next (txPump s e b)

/-- MIGRATION_GO (R86, R89, R90): CE_MIG_CTL with GO set. -/
def execMigrationGo (r : Requester) (v : Word) (s : State) : Host.Outcome State Fault Refusal :=
  .next (engBus s r (R.CE_MIG_CTL.addr 0 0 0) fun s => migCtlWrite s (setBits v.toNat 12 1 1))

/-- PRECOPY_DONE (R86). -/
def execPrecopyDone (s : State) : Host.Outcome State Fault Refusal := .next (migCopied s)

/-- MIGRATION_GAP (R86, R88, R89). -/
def execMigrationGap (s : State) : Host.Outcome State Fault Refusal := .next (migGap s)

/-- MIGRATION_RESUME (R86, R87, R90). -/
def execMigrationResume (s : State) : Host.Outcome State Fault Refusal := .next (migResume s)

/-- MIGRATION_CANCEL (R90): CE_MIG_CTL with CANCEL set. -/
def execMigrationCancel (r : Requester) (v : Word) (s : State) : Host.Outcome State Fault Refusal :=
  .next (engBus s r (R.CE_MIG_CTL.addr 0 0 0) fun s => migCtlWrite s (setBits v.toNat 13 1 1))

/-- ENGINE_ECC_ERROR (R69). -/
def execEngineEccError (e : Fin 48) (at_ : EccWord) (corrected : Bool) (s : State) :
    Host.Outcome State Fault Refusal := .next (engEcc s e at_ corrected)

/-- MAQUETTE_PLAY_FRAME (R92). -/
def execMaquettePlayFrame (p : Fin 24) (k : Fin 65536) (s : State) : Host.Outcome State Fault Refusal :=
  .next (mqPlay s p k)

end Sys2Proof.Machine
end

