-- ==== Sys2Proof/Machine/EngineIo.lean ====
section
/-! DEFINITION. The I/O space of the engines (R70, R71, R74, R44, R181, R256, R298, R361): what an access to each address does,
when its unit is ready, and the event lines that WAIT tests (R72, R117). -/
namespace Sys2Proof.Machine

/-- The units that an engine owns, in ascending order: four places at most (R298). -/
def raspOwnedList (s : State) (e : Nat) : List Nat := (numsWhere 16 fun u => raspOwned s e u).take 4

/-- The engine that NB_TXD feeds (R71). -/
def neighbour (e : Nat) : Nat := (e + 1) % 48

/-- Whether window B serves although no port is bound to it (R72, line 27): an attachment (R242) or the link to the field die
(R277). -/
def winLinked (s : State) (e : Nat) : Bool := (s.eng e).attach.isSome || (s.eng e).link

/-- Whether a window's splice ring is at or below its low-water level (R72, line 27). -/
def ringLow (s : State) (e : Nat) (b : Bool) : Bool :=
  ((winPort s e b).isSome || (b && winLinked s e)) && (s.win e b).ring.length ≤ bits (s.win e b).ctl.toNat 4 6

/-- Whether the condition of an event line holds (R72, R117); the other lines report events. -/
def lineCondition (s : State) (e k : Nat) : Bool :=
  let x := s.eng e
  match k with
  | 8 => !x.winA.rx.isEmpty || !x.winA.xd.isEmpty
  | 9 => txFree x.winA != 0
  | 10 => !x.winB.rx.isEmpty || !x.winB.xd.isEmpty
  | 11 => txFree x.winB != 0
  | 12 => !x.nb.isEmpty
  | 13 => (s.eng (neighbour e)).nb.length < 16
  | 14 => !x.atlRx.isEmpty
  | 15 => x.atlTx.length < 8
  | 24 => (List.range 4).any fun c => canOwned s e c && !(s.cb c).rx.isEmpty
  | 27 => ringLow s e false || ringLow s e true
  | _ =>
    if 20 ≤ k && k < 24 then
      match (raspOwnedList s e)[k - 20]? with
      | some u => !(s.unit u).push.isEmpty || (s.unit u).pull.length ≤ s.get R.RASP_U_CFG_LOW_WATER u
      | none => false
    else false

/-- The pending event lines of an engine (R72, R117). -/
def pendLines (s : State) (e : Nat) : Word :=
  (s.eng e).events ||| w32 ((numsWhere 32 (lineCondition s e)).foldl (fun a k => a + 2 ^ k) 0)

/-- Take lines away (R116, R117): the condition lines stand for their conditions and are not stored. -/
def clearLines (s : State) (e : Nat) (m : Word) : State := s.modEng e fun x => { x with events := x.events &&& ~~~m }

/-- ENG_STAT (R71). -/
def engStat (s : State) (e : Nat) : Nat :=
  bit01 ((winPort s e false).elim false (inMaquette s) || (winPort s e true).elim false (inMaquette s))
    + 2 * bit01 (engState s e == 3 || (s.eng e).stopPend) + 4 * bit01 (migBusy s && s.get R.CE_MIG_CTL_LE == e)

/-- A reading of a register. -/
def held (s : State) (v : Nat) : Option (State × Nat) := some (s, v)

/-! ### Reads -/

/-- Reads of 0x000 to 0x0FF (R71); EV_CLR and the registers that are write-only as their access codes say. -/
def readControl (s : State) (e a : Nat) : Option (State × Nat) :=
  match a with
  | 0x000 => held s (e + 256 * (s.eng e).packSlot)
  | 0x001 => held s (engStat s e)
  | 0x002 => held s (s.rd R.CE_CYC_CNT e)
  | 0x003 => held s (s.rd R.CE_SLACK_CUR e)
  | 0x004 => held s (s.rd R.CE_SLACK_LAST e)
  | 0x005 => held s (s.rd R.CE_SLACK_MIN e)
  | 0x006 => held s (s.rd R.CE_PACE e)
  | 0x008 => held s 0
  | 0x009 => held s (pendLines s e).toNat
  | 0x00A => held s (pendLines s e).toNat
  | _ => none

/-- Reads of a port window (R74): RXD and XD take the next word, and RXS, XS tell of it. -/
def readPort (s : State) (e : Nat) (b : Bool) (a : Nat) : Option (State × Nat) :=
  let w := s.win e b
  match a with
  | 0x00 => match w.rx with
    | [] => held s 0
    | x :: r => held (s.setWin e b { w with rx := r, rxs := x.stat, rxts := x.ts }) x.data.toNat
  | 0x01 => held s w.rxs.toNat
  | 0x02 => held s w.rxts.toNat
  | 0x04 => match w.xd with
    | [] => held s 0
    | x :: r => held (s.setWin e b { w with xd := r, xs := x.stat }) x.data.toNat
  | 0x05 => held s w.xs.toNat
  | 0x10 => held s 0
  | 0x11 => held s 0
  | 0x12 => held s (bit01 (txFree w != 0) + 2 * bit01 (!w.txs.isEmpty) + 4 * bit01 w.late + 8 * bit01 w.dropped)
  | 0x20 => held s 0
  | 0x21 => held s 0
  | 0x22 => held s (32 - w.ring.length + 2 ^ 8 * w.head)
  | 0x23 => held s w.ctl.toNat
  | 0x24 => held s 0
  | _ => none

/-- Reads of the timebase window (R181). -/
def readTime (s : State) (e a : Nat) : Option (State × Nat) :=
  let x := s.eng e
  let sl := x.islot ((a - 0x310) / 4)
  if a = 0x300 then held (engTimeRead s e) (domView s 0)
  else if a ≤ 0x305 then held s (x.tlat.getD (a - 0x301) 0).toNat
  else if 0x310 ≤ a && a < 0x330 then
    match a % 4 with
    | 0 => held s sl.ctl
    | 1 => held s sl.time.toNat
    | 2 => held s (bit01 (slotMode sl == 1 || (slotMode sl == 2 && sl.armed)) + 2 * bit01 sl.firstInCycle.isSome)
    | _ => held s sl.last.toNat
  else none

/-- Reads of the window to Atelier (R71). -/
def readAtelier (s : State) (e a : Nat) : Option (State × Nat) :=
  let x := s.eng e
  match a with
  | 0x380 => held s 0
  | 0x381 => held (s.setEng e { x with atlRx := x.atlRx.tail }) (x.atlRx.headD 0).toNat
  | 0x382 => held s (8 - x.atlTx.length + 2 ^ 4 * x.atlRx.length)
  | 0x383 => held s x.atlDb
  | _ => none

/-- Reads of the item window (R44, R46). -/
def readItems (s : State) (e a : Nat) : Option (State × Nat) :=
  let x := s.eng e
  let k := (a - 0x400) / 64
  let off := a % 64
  if a < 0x700 then
    if off = 0 then held s (x.iwSlot k).handle
    else if off = 1 then held s 0
    else if off = 2 then held s (iwStat s e k)
    else if 32 ≤ off then held s (bits (readView s (x.iwSlot k).handle) (32 * (off - 32)) 32)
    else none
  else match a with
    | 0x700 => held s x.cgSel
    | 0x701 => held s 0
    | 0x702 => held s 0
    | 0x703 => held s (s.rd R.SS_CG_SEQ x.cgSel)
    | 0x704 => held s (s.rd R.SS_CG_STAT x.cgSel)
    | _ => none

/-- Reads of the Rasp window (R298): a slot of a unit that the engine does not own is reserved. -/
def readRasp (s : State) (e a : Nat) : Option (State × Nat) :=
  let u := (a - 0x800) / 16
  if !raspOwned s e u then none
  else match a % 16 with
    | 0 => held s 0
    | 1 => held (raspPush s u).1 (raspPush s u).2.toNat
    | 2 => held s (raspWinStat s u)
    | 3 => held s 0
    | _ => none

/-- Reads of the CAN window (R256). -/
def readCan (s : State) (e a : Nat) : Option (State × Nat) :=
  let n := (a - 0x900) / 64
  let off := a % 64
  let k := (off - 0x10) / 8
  if !canOwned s e n then none
  else match off with
    | 0x00 => held s (s.rd R.CAN_RX_ID n)
    | 0x01 => held s (s.rd R.CAN_RX_FMT n)
    | 0x02 => held s (s.rd R.CAN_RX_AF n)
    | 0x03 => held s (s.rd R.CAN_RX_TS n)
    | 0x04 => held s (s.rd R.CAN_RX_INFO n)
    | 0x05 => held s 0
    | 0x08 =>
      let x := s.cb n
      if x.rx.isEmpty then held s 0
      else held (s.setCb n { x with rdPos := x.rdPos + 1 }) (canRxWord s n x.rdPos)
    | _ =>
      if 0x10 ≤ off && off < 0x28 then
        match off % 8 with
        | 0 => held s (s.rd R.TXB_ID n k)
        | 1 => held s (s.rd R.TXB_FMT n k)
        | 2 => held s (s.rd R.TXB_AF n k)
        | 3 => held s (regReadWord R.TXB_CTL (s.rd R.TXB_CTL n k))
        | 4 => held s (s.rd R.TXB_STAT n k)
        | 5 => held s 0
        | _ => none
      else none

/-- Reads of the DMA window (R361): the slots of unowned positions are reserved. -/
def readDma (s : State) (e a : Nat) : Option (State × Nat) :=
  match (dqOwned s e)[(a - 0xA00) / 16]? with
  | none => none
  | some q => match a % 16 with
    | 0 => held s 0
    | 1 => held s (dqWinStat s q)
    | 2 => held s (s.dq q).lastDone
    | _ => none

/-- Reads of the neighbour FIFOs (R71). -/
def readNeighbour (s : State) (e a : Nat) : Option (State × Nat) :=
  let x := s.eng e
  match a with
  | 0xB00 => held s 0
  | 0xB01 => held (s.setEng e { x with nb := x.nb.tail }) (x.nb.headD 0).toNat
  | 0xB02 => held s (16 - (s.eng (neighbour e)).nb.length + 2 ^ 8 * x.nb.length)
  | _ => none

/-- A read of the I/O space: `none` at a reserved address (R70). -/
def ioReadAt (s : State) (e a : Nat) : Option (State × Nat) :=
  if a < 0x100 then readControl s e a
  else if a < 0x200 then readPort s e false (a - 0x100)
  else if a < 0x300 then readPort s e true (a - 0x200)
  else if a < 0x380 then readTime s e a
  else if a < 0x400 then readAtelier s e a
  else if a < 0x800 then readItems s e a
  else if a < 0x900 then readRasp s e a
  else if a < 0xA00 then readCan s e a
  else if a < 0xB00 then readDma s e a
  else if a < 0xC00 then readNeighbour s e a
  else none

/-- A read of the I/O space (R70): a reserved address reads 0 and sets IO_RSVD. -/
def ioRead (s : State) (e a : Nat) : State × Word :=
  match ioReadAt s e a with
  | some r => (r.1, w32 r.2)
  | none => (s.raise R.CE_ERR_IO_RSVD e, 0)

/-- Whether an INW completes (R115): its unit can supply a word; at a slot that the engine does not own it does at once. -/
def ioReadReady (s : State) (e a : Nat) : Bool :=
  let x := s.eng e
  match a with
  | 0x100 => !x.winA.rx.isEmpty
  | 0x104 => !x.winA.xd.isEmpty
  | 0x200 => !x.winB.rx.isEmpty
  | 0x204 => !x.winB.xd.isEmpty
  | 0x381 => !x.atlRx.isEmpty
  | 0xB01 => !x.nb.isEmpty
  | _ =>
    if 0x800 ≤ a && a < 0x900 && a % 16 = 1 then
      let u := (a - 0x800) / 16
      !raspOwned s e u || !s.on R.RASP_U_CTL_EN u || !(s.unit u).push.isEmpty
    else if 0x900 ≤ a && a < 0xA00 && a % 64 = 8 then
      !canOwned s e ((a - 0x900) / 64) || !(s.cb ((a - 0x900) / 64)).rx.isEmpty
    else true

/-! ### Writes -/

/-- Writes of 0x000 to 0x0FF (R71, R82, R117). -/
def writeControl (s : State) (e a : Nat) (v : Word) : Option State :=
  match a with
  | 0x008 => some (jobMark s e (v.toNat % 8))
  | 0x00A => some (clearLines s e v)
  | _ => none

/-- Writes of a port window (R74). -/
def writePort (s : State) (e : Nat) (b : Bool) (a : Nat) (v : Word) : Option State :=
  match a with
  | 0x10 => some (txdAppend s e b v)
  | 0x11 => some (txcWrite s e b v)
  | 0x20 => some (s.setWin e b { s.win e b with e0 := v })
  | 0x21 => some (splPush s e b v)
  | 0x23 => some (s.setWin e b { s.win e b with ctl := v &&& 0x3FF })
  | 0x24 => some (if v = 1 then splFlush s e b else s)
  | _ => none

/-- Writes of the timebase window (R181). -/
def writeTime (s : State) (e a : Nat) (v : Word) : Option State :=
  let k := (a - 0x310) / 4
  if 0x310 ≤ a && a < 0x330 then
    match a % 4 with
    | 0 => some (slotConfig s e k v.toNat)
    | 1 => some (slotArm s e k v)
    | _ => none
  else none

/-- Writes of the window to Atelier (R71): without room the word is discarded and IO_RSVD set. -/
def writeAtelier (s : State) (e a : Nat) (v : Word) : Option State :=
  let x := s.eng e
  match a with
  | 0x380 => if x.atlTx.length < 8 then some (s.setEng e { x with atlTx := x.atlTx ++ [v] }) else none
  | 0x383 => some (s.setEng e { x with atlDb := x.atlDb ||| v.toNat % 16 })
  | _ => none

/-- A write of IW_CLOSE (R43, R45, R113): at a busy slot any value is discarded; an apply takes effect when the write port accepts
the item write. -/
def closeWrite (s : State) (e : Fin 48) (k : Fin 12) (v : Word) : State :=
  if ((s.eng e).iwSlot k).busy then iwBusy s e k
  else if v = 1 then (iwApply s e k).modEng e fun x => { x with closing := some k.val }
  else if v = 2 then iwDiscard s e k
  else s

/-- Writes of the item window (R44, R45, R48, R53). -/
def writeItems (s : State) (e : Fin 48) (a : Nat) (v : Word) : Option State :=
  let k := (a - 0x400) / 64
  let off := a % 64
  if a < 0x700 then
    if off = 0 then some (iwHandle s e k v)
    else if off = 1 then some (closeWrite s e (Fin.ofNat 12 k) v)
    else if 32 ≤ off then some (iwData s e k (off - 32) v)
    else none
  else match a with
    | 0x700 => some (s.modEng e fun x => { x with cgSel := v.toNat % 256 })
    | 0x701 => some (cgDone s (.engine e) (s.eng e).cgSel (v.toNat % 256))
    | 0x702 => some (if v = 1 then cgCommand s (s.eng e).cgSel else s)
    | _ => none

/-- Writes of the Rasp window (R295, R298); a word for a full pull FIFO is discarded and IO_RSVD set (R114). -/
def writeRasp (s : State) (e a : Nat) (v : Word) : Option State :=
  let u := (a - 0x800) / 16
  if !raspOwned s e u then none
  else match a % 16 with
    | 0 => if s.on R.RASP_U_CTL_EN u && 8 ≤ (s.unit u).pull.length then none else some (raspPull s u v)
    | 3 => some (raspInject s u v)
    | _ => none

/-- Writes of the CAN window (R256). -/
def writeCan (s : State) (e a : Nat) (v : Word) : Option State :=
  let n := (a - 0x900) / 64
  let off := a % 64
  let k := (off - 0x10) / 8
  if !canOwned s e n then none
  else if off = 5 then some (if v = 1 then canPop s n else s)
  else if 0x10 ≤ off && off < 0x28 then
    match off % 8 with
    | 0 => some (txbId s n k v.toNat)
    | 1 => some (txbWrite s n k fun s => s.regWrite R.TXB_FMT v.toNat n k)
    | 2 => some (txbWrite s n k fun s => s.regWrite R.TXB_AF v.toNat n k)
    | 3 => some (txbCtlWrite s n k v.toNat)
    | 5 => some (txbAppend s n k v.toNat)
    | _ => none
  else none

/-- Writes of the DMA window (R361): DB starts the queue. -/
def writeDma (s : State) (e a : Nat) : Option State :=
  match (dqOwned s e)[(a - 0xA00) / 16]? with
  | none => none
  | some q => if a % 16 = 0 then some (dqStart s q) else none

/-- A write of the neighbour FIFO (R71). -/
def writeNeighbour (s : State) (e a : Nat) (v : Word) : Option State :=
  let x := s.eng (neighbour e)
  if a = 0xB00 && x.nb.length < 16 then some (s.setEng (neighbour e) { x with nb := x.nb ++ [v] }) else none

/-- A write of the I/O space: `none` where it is ignored and sets IO_RSVD (R70, R114). -/
def ioWriteAt (s : State) (e : Fin 48) (a : Nat) (v : Word) : Option State :=
  if a < 0x100 then writeControl s e a v
  else if a < 0x200 then writePort s e false (a - 0x100) v
  else if a < 0x300 then writePort s e true (a - 0x200) v
  else if a < 0x380 then writeTime s e a v
  else if a < 0x400 then writeAtelier s e a v
  else if a < 0x800 then writeItems s e a v
  else if a < 0x900 then writeRasp s e a v
  else if a < 0xA00 then writeCan s e a v
  else if a < 0xB00 then writeDma s e a
  else if a < 0xC00 then writeNeighbour s e a v
  else none

/-- A write of the I/O space takes effect in its unit (R113, R70). -/
def ioWrite (s : State) (e : Fin 48) (a : Nat) (v : Word) : State := (ioWriteAt s e a v).getD (s.raise R.CE_ERR_IO_RSVD e)

/-- Whether an OUTW completes (R115): its unit can accept a word. -/
def ioWriteReady (s : State) (e a : Nat) : Bool :=
  let x := s.eng e
  match a with
  | 0x110 => txFree x.winA != 0
  | 0x121 => x.winA.ring.length < 32
  | 0x210 => txFree x.winB != 0
  | 0x221 => x.winB.ring.length < 32
  | 0x380 => x.atlTx.length < 8
  | 0xB00 => (s.eng (neighbour e)).nb.length < 16
  | _ =>
    if 0x800 ≤ a && a < 0x900 && a % 16 = 0 then
      let u := (a - 0x800) / 16
      !raspOwned s e u || !s.on R.RASP_U_CTL_EN u || (s.unit u).pull.length < 8
    else if isSlotWrite a then !(x.iwSlot ((a - 0x400) / 64)).busy
    else true

end Sys2Proof.Machine
end

