-- ==== Sys2Proof/Machine/Flags.lean ====
section
/-! DEFINITION. The results and flags of the engines' arithmetic (R94, R107, R108), the branch conditions (R110), and the bit-field
results (R124). A flag that an instruction does not set is `none`. -/
namespace Sys2Proof.Machine

/-- The flags an instruction sets, in the order Z, C, N, V. -/
abbrev FlagSet := Option Bool × Option Bool × Option Bool × Option Bool

/-- a + b + carry with all four flags (R107): C is the carry out of bit 31, V tells that the signed result does not fit. -/
def addFlags (a b : Word) (cin : Bool) : Word × FlagSet :=
  let sum := a.toNat + b.toNat + bit01 cin
  let r := w32 sum
  let fits := r.toInt = a.toInt + b.toInt + (bit01 cin : Int)
  (r, some (r == 0), some (decide (2 ^ 32 ≤ sum)), some r.msb, some (!decide fits))

/-- a − b as a + NOT b + 1 (R107): C = 1 means no borrow. -/
def subFlags (a b : Word) : Word × FlagSet := addFlags a (~~~b) true

/-- A result that sets Z and N only (R107, R108). -/
def logicFlags (r : Word) : Word × FlagSet := (r, some (r == 0), none, some r.msb, none)

/-- The high 32 bits of the signed product (R107). -/
def mulHigh (a b : Word) : Word := BitVec.ofInt 32 (a.toInt * b.toInt / 2 ^ 32)

/-- The high 32 bits of the unsigned product (R107). -/
def mulHighU (a b : Word) : Word := w32 (a.toNat * b.toNat / 2 ^ 32)

/-- A sign-extended immediate (R108). -/
def simm (n : Fin 65536) : Word := (BitVec.ofNat 16 n.val).signExtend 32

/-- A zero-extended immediate (R108). -/
def zimm (n : Fin 65536) : Word := w32 n.val

/-- Whether a branch condition holds (R110). -/
def condHolds (cond : Fin 16) (z c n v : Bool) : Bool :=
  let base := match cond.val % 8 with
    | 0 => true
    | 1 => z
    | 2 => c
    | 3 => n
    | 4 => v
    | 5 => c && !z
    | 6 => n == v
    | _ => !z && n == v
  if cond.val < 8 then base else !base

/-- A branch target (R100): (A + k) mod 4,096. -/
def branchTarget (a : BitVec 12) (off : Fin 2097152) : BitVec 12 := a + BitVec.ofNat 12 off.val

/-- BFX and BFXR (R124): `w` is one less than the field's width; bits beyond bit 31 read 0. -/
def extractField (v : Word) (sx : Bool) (w pos : Nat) : Word :=
  let r := bits v.toNat pos (w + 1)
  if sx && r.testBit w then w32 (r + 2 ^ 32 - 2 ^ (w + 1)) else w32 r

/-- BFI (R124): bits beyond bit 31 are dropped. -/
def insertField (old v : Word) (w pos : Nat) : Word := w32 (setBits old.toNat pos (w + 1) v.toNat)

end Sys2Proof.Machine
end

