-- ==== Sys2Proof/Machine/EngineRun.lean ====
section
/-! DEFINITION. How an engine's instruction issues (R95, R97, R99, R100), writes back, transfers control, loads and stores (R96),
waits (R115 to R120) and reaches its I/O space (R112 to R115). -/
namespace Sys2Proof.Machine

/-- Whether an engine executes: RUNNING, WAITING or STOPPING, its stop instant not yet passed (R80, R84, R86). The field
service's engine runs Atelier's own program, which the spec does not give (R277). -/
def engRuns (s : State) (e : Nat) : Bool :=
  1 ≤ engState s e && engState s e ≤ 3 && !(s.eng e).haltDue && !svcEngine s e

/-- Whether instruction `i` issues on engine `e` now: it stands at the program counter, and nothing holds the engine. -/
def issues (s : State) (e : Nat) (i : EngInstr) : Bool :=
  let x := s.eng e
  engRuns s e && decide (x.wait = .none) && decide (engNext s e = i) && !ioStalls (x.readAt x.pos) i

/-- The engine as it issues (R95, R97, R99, R100): its reads are as the write-back rule leaves them, it takes a position, and
the program counter goes on to the next instruction, or from a delay slot to its target. -/
def engAdvance (x : Eng) : Eng :=
  { x.readAt x.pos with pc := x.npc, npc := x.npc + 1, pos := x.pos + 1 }

/-- An instruction issues and has its effect; a command for an instruction that does not issue changes nothing. -/
def engIssue (s : State) (e : Nat) (i : EngInstr) (f : State → State) : State :=
  if issues s e i then f (s.modEng e engAdvance) else s

/-- A result with its flags, for a register. -/
def withFlags (wd : Fin 32) (r : Word × FlagSet) : Option (Nat × Word) × Option FlagSet := (some (wd.val, r.1), some r.2)

/-- Flags without a result. -/
def flagsOnly (r : Word × FlagSet) : Option (Nat × Word) × Option FlagSet := (none, some r.2)

/-- A result without flags. -/
def valueOnly (wd : Fin 32) (r : Word) : Option (Nat × Word) × Option FlagSet := (some (wd.val, r), none)

/-- The position of the instruction that issued last. -/
def Eng.here (x : Eng) : Nat := x.pos - 1

/-- A producer computes its result from the engine's registers and flags (R98, R99). -/
def engCompute (s : State) (e : Nat) (i : EngInstr) (d : Nat) (f : Eng → Option (Nat × Word) × Option FlagSet) : State :=
  engIssue s e i fun s => s.modEng e fun x => x.produce x.here d (f x).1 (f x).2

/-! ### Loads and stores -/

/-- `n` bytes of data memory (R96): the low address bits of an aligned access are ignored. -/
def loadBytes (s : State) (e a n : Nat) : Nat := leNat (s.bytes (.dmem e) (a / n * n) n)

/-- A load (R96, R98): `f` extends what it reads. -/
def engLoad (s : State) (e : Nat) (i : EngInstr) (wd wa : Fin 32) (imm : Fin 65536) (n : Nat) (f : Nat → Word) : State :=
  engIssue s e i fun s =>
    let x := s.eng e
    s.setEng e (x.produce x.here 3 (some (wd.val, f (loadBytes s e (effAddr x wa imm) n))) none)

/-- Add a number to a list that does not hold it. -/
def addNew (n : Nat) (l : List Nat) : List Nat := if l.contains n then l else n :: l

/-- A data word is written (R86, R88): it counts for D, and is dirty for a migration that has copied it. -/
def engDirty (s : State) (e a : Nat) : State :=
  let s := s.modEng e fun x => { x with dirtyNow := addNew (a / 4) x.dirtyNow, dirtyAll := addNew (a / 4) x.dirtyAll }
  let m := s.get R.CE_MIG_STAT_STATE
  let s := if (m = 1 || m = 2) && s.get R.CE_MIG_CTL_LE = e then
      { s with engArr := { s.engArr with mig := { s.engArr.mig with dirty := addNew (a / 4) s.engArr.mig.dirty } } }
    else s
  showDirty s e

/-- The address that a store of `n` bytes writes to (R96). -/
def storeAddr (x : Eng) (wa : Fin 32) (imm : Fin 65536) (n : Nat) : Nat := effAddr x wa imm / n * n

/-- A store of `n` bytes of register `wd` (R96, R109). -/
def engStore (s : State) (e : Nat) (i : EngInstr) (wd wa : Fin 32) (imm : Fin 65536) (n : Nat) : State :=
  engIssue s e i fun s =>
    let x := s.eng e
    let a := storeAddr x wa imm n
    engDirty (s.setBytes (.dmem e) a (leBytes n (x.reg wd).toNat)) e a

/-! ### Control transfers -/

/-- Control goes to a target after the delay slot (R100, R103). -/
def engJump (s : State) (e : Nat) (t : BitVec 12) : State := s.modEng e fun x => { x with npc := t }

/-- The link value of an instruction at address `a` (R101). -/
def linkValue (a : BitVec 12) : Word := (a + 2).setWidth 32

/-- A branch (R100 to R102, R110): when it is taken, it may write w31. -/
def engBranch (s : State) (e : Nat) (i : EngInstr) (cond : Fin 16) (link : Bool) (off : Fin 2097152) : State :=
  let a := (s.eng e).pc
  engIssue s e i fun s =>
    let x := s.eng e
    if condHolds cond x.z x.c x.n x.v then
      let s := engJump s e (branchTarget a off)
      if link then s.modEng e fun x => x.produce x.here 2 (some (31, linkValue a)) none else s
    else s

/-! ### Waits -/

/-- An engine waits (R116, R120): a RUNNING one becomes WAITING. -/
def engWait (s : State) (e : Nat) (w : EngWait) : State :=
  let s := s.modEng e fun x => { x with wait := w }
  if engState s e = 1 then s.put R.CE_STAT_STATE 2 e else s

/-- A wait ends with a value for its register (R98, R116, R120). -/
def waitEnd (s : State) (e wd : Nat) (v : Word) : State :=
  let s := s.modEng e fun x => { x with wait := .none }.produce x.here 4 (some (wd, v)) none
  if engState s e = 2 then s.put R.CE_STAT_STATE 1 e else s

/-- Whether the pending lines complete a WAIT (R116). -/
def linesDone (mask p : Word) (all : Bool) : Bool :=
  mask == 0 || (if all then p &&& mask == mask else p &&& mask != 0)

/-- A WAIT or WAITT completes, if it may (R116 to R118, R120). -/
def waitTry (s : State) (e : Nat) : State :=
  match (s.eng e).wait with
  | .lines mask keep all wd =>
    let p := pendLines s e
    if linesDone mask p all then
      waitEnd (if keep then s else clearLines s e (p &&& mask)) e wd (p &&& mask)
    else s
  | .time dom target wd =>
    let t := domView s dom
    if reached t target.toNat then waitEnd s e wd (w32 t) else s
  | _ => s

/-! ### I/O accesses -/

/-- A read takes effect (R112, R98). -/
def ioTake (s : State) (e a wd : Nat) : State :=
  let r := ioRead s e a
  r.1.modEng e fun x => { x with wait := .none }.produce x.here 4 (some (wd, r.2)) none

/-- A write joins the writes that are undelivered (R113). -/
def ioPost (s : State) (e a : Nat) (v : Word) : State := s.modEng e fun x => { x with outQ := x.outQ ++ [(a, v)] }

/-- Whether a write waits for a close that has not been accepted (R113): all do, but for one to the slot that the close has made
busy, which arrives at the slot and is discarded there (R45). -/
def closeHolds (x : Eng) (a : Nat) : Bool :=
  x.closing.isSome && !(isSlotWrite a && (x.iwSlot ((a - 0x400) / 64)).busy)

/-- The oldest undelivered write is delivered to its unit (R113): after a close, only once its item write is accepted. -/
def ioDeliver (s : State) (e : Fin 48) : State :=
  let x := s.eng e
  match x.outQ with
  | [] => s
  | (a, v) :: rest => if closeHolds x a then s else ioWrite (s.setEng e { x with outQ := rest }) e a v

/-- A stalled INW takes effect once its unit can supply a word (R115). -/
def inwTry (s : State) (e : Nat) : State :=
  match (s.eng e).wait with
  | .ioRead a wd => if ioIdle (s.eng e) && ioReadReady s e a then ioTake s e a wd else s
  | _ => s

/-- A stalled OUTW takes effect once its unit can accept the word (R115). -/
def outwTry (s : State) (e : Fin 48) : State :=
  match (s.eng e).wait with
  | .ioWrite a v =>
    if ioIdle (s.eng e) && ioWriteReady s e a then ioWrite (s.modEng e fun x => { x with wait := .none }) e a v else s
  | _ => s

/-- An IN issues (R112, R114). -/
def engIn (s : State) (e : Nat) (wd : Fin 32) (io : Fin 4096) (idx : Option (Fin 32)) : State :=
  ioTake s e (ioAddr (s.eng e) io idx) wd

/-- An INW issues (R114, R115): it stalls until its unit can supply a word. -/
def engInw (s : State) (e : Nat) (wd : Fin 32) (io : Fin 4096) (idx : Option (Fin 32)) : State :=
  let a := ioAddr (s.eng e) io idx
  if readWaits a then inwTry (s.modEng e fun x => { x with wait := .ioRead a wd }) e else ioTake s e a wd

/-- An OUT issues (R112, R113). -/
def engOut (s : State) (e : Nat) (wd : Fin 32) (io : Fin 4096) (idx : Option (Fin 32)) : State :=
  let x := s.eng e
  ioPost s e (ioAddr x io idx) (x.reg wd)

/-- An OUTW issues (R114, R115): it stalls until its unit can accept the word. -/
def engOutw (s : State) (e : Fin 48) (wd : Fin 32) (io : Fin 4096) (idx : Option (Fin 32)) : State :=
  let x := s.eng e
  let a := ioAddr x io idx
  if writeWaits a then outwTry (s.modEng e fun x => { x with wait := .ioWrite a (x.reg wd) }) e
  else ioPost s e a (x.reg wd)

end Sys2Proof.Machine
end

