-- ==== Sys2Proof/Machine/EngineIsa.lean ====
section
/-! DEFINITION. Meanings of the engines' instructions (spec/04). Each command says that engine `e` issues the instruction with these
operands: it acts when that instruction stands at the engine's program counter and nothing holds the engine. -/
namespace Sys2Proof.Machine

/-- ADD (R107, R98, R99): wd = wa + wb. -/
def execAdd (e : Fin 48) (wd wa wb : Fin 32) (s : State) : Host.Outcome State Fault Refusal :=
  .next (engCompute s e (.add wd wa wb) 2 fun x => withFlags wd (addFlags (x.reg wa) (x.reg wb) false))

/-- ADC (R107, R98, R99): wd = wa + wb + C. -/
def execAdc (e : Fin 48) (wd wa wb : Fin 32) (s : State) : Host.Outcome State Fault Refusal :=
  .next (engCompute s e (.adc wd wa wb) 2 fun x => withFlags wd (addFlags (x.reg wa) (x.reg wb) x.c))

/-- SUB (R107, R98, R99): wd = wa − wb. -/
def execSub (e : Fin 48) (wd wa wb : Fin 32) (s : State) : Host.Outcome State Fault Refusal :=
  .next (engCompute s e (.sub wd wa wb) 2 fun x => withFlags wd (subFlags (x.reg wa) (x.reg wb)))

/-- SBC (R107, R98, R99): wd = wa + NOT wb + C. -/
def execSbc (e : Fin 48) (wd wa wb : Fin 32) (s : State) : Host.Outcome State Fault Refusal :=
  .next (engCompute s e (.sbc wd wa wb) 2 fun x => withFlags wd (addFlags (x.reg wa) (~~~(x.reg wb)) x.c))

/-- CMP (R107, R98, R99): the flags of wa − wb. -/
def execCmp (e : Fin 48) (wa wb : Fin 32) (s : State) : Host.Outcome State Fault Refusal :=
  .next (engCompute s e (.cmp wa wb) 2 fun x => flagsOnly (subFlags (x.reg wa) (x.reg wb)))

/-- AND (R107, R98, R99): wd = wa AND wb. -/
def execAnd (e : Fin 48) (wd wa wb : Fin 32) (s : State) : Host.Outcome State Fault Refusal :=
  .next (engCompute s e (.and wd wa wb) 2 fun x => withFlags wd (logicFlags (x.reg wa &&& x.reg wb)))

/-- OR (R107, R98, R99): wd = wa OR wb. -/
def execOr (e : Fin 48) (wd wa wb : Fin 32) (s : State) : Host.Outcome State Fault Refusal :=
  .next (engCompute s e (.or wd wa wb) 2 fun x => withFlags wd (logicFlags (x.reg wa ||| x.reg wb)))

/-- XOR (R107, R98, R99): wd = wa XOR wb. -/
def execXor (e : Fin 48) (wd wa wb : Fin 32) (s : State) : Host.Outcome State Fault Refusal :=
  .next (engCompute s e (.xor wd wa wb) 2 fun x => withFlags wd (logicFlags (x.reg wa ^^^ x.reg wb)))

/-- ANDN (R107, R98, R99): wd = wa AND NOT wb. -/
def execAndn (e : Fin 48) (wd wa wb : Fin 32) (s : State) : Host.Outcome State Fault Refusal :=
  .next (engCompute s e (.andn wd wa wb) 2 fun x => withFlags wd (logicFlags (x.reg wa &&& ~~~(x.reg wb))))

/-- TST (R107, R98, R99): the flags of wa AND wb. -/
def execTst (e : Fin 48) (wa wb : Fin 32) (s : State) : Host.Outcome State Fault Refusal :=
  .next (engCompute s e (.tst wa wb) 2 fun x => flagsOnly (logicFlags (x.reg wa &&& x.reg wb)))

/-- SHL (R107, R98, R99): wa shifted left by wb[4:0]. -/
def execShl (e : Fin 48) (wd wa wb : Fin 32) (s : State) : Host.Outcome State Fault Refusal :=
  .next (engCompute s e (.shl wd wa wb) 2 fun x => withFlags wd (logicFlags (x.reg wa <<< ((x.reg wb).toNat % 32))))

/-- SHR (R107, R98, R99): logical right shift by wb[4:0]. -/
def execShr (e : Fin 48) (wd wa wb : Fin 32) (s : State) : Host.Outcome State Fault Refusal :=
  .next (engCompute s e (.shr wd wa wb) 2 fun x => withFlags wd (logicFlags (x.reg wa >>> ((x.reg wb).toNat % 32))))

/-- SAR (R107, R98, R99): arithmetic right shift by wb[4:0]. -/
def execSar (e : Fin 48) (wd wa wb : Fin 32) (s : State) : Host.Outcome State Fault Refusal :=
  .next (engCompute s e (.sar wd wa wb) 2 fun x => withFlags wd (logicFlags ((x.reg wa).sshiftRight ((x.reg wb).toNat % 32))))

/-- ROR (R107, R98, R99): rotate right by wb[4:0]. -/
def execRor (e : Fin 48) (wd wa wb : Fin 32) (s : State) : Host.Outcome State Fault Refusal :=
  .next (engCompute s e (.ror wd wa wb) 2 fun x => withFlags wd (logicFlags ((x.reg wa).rotateRight ((x.reg wb).toNat % 32))))

/-- MUL (R107, R98, R99): low 32 bits of the product. -/
def execMul (e : Fin 48) (wd wa wb : Fin 32) (s : State) : Host.Outcome State Fault Refusal :=
  .next (engCompute s e (.mul wd wa wb) 4 fun x => valueOnly wd (x.reg wa * x.reg wb))

/-- MULH (R107, R98, R99): high 32 bits of the signed product. -/
def execMulh (e : Fin 48) (wd wa wb : Fin 32) (s : State) : Host.Outcome State Fault Refusal :=
  .next (engCompute s e (.mulh wd wa wb) 4 fun x => valueOnly wd (mulHigh (x.reg wa) (x.reg wb)))

/-- MULHU (R107, R98, R99): high 32 bits of the unsigned product. -/
def execMulhu (e : Fin 48) (wd wa wb : Fin 32) (s : State) : Host.Outcome State Fault Refusal :=
  .next (engCompute s e (.mulhu wd wa wb) 4 fun x => valueOnly wd (mulHighU (x.reg wa) (x.reg wb)))

/-- ADDI (R108, R98, R99): wd = wa + simm. -/
def execAddi (e : Fin 48) (wd wa : Fin 32) (imm : Fin 65536) (s : State) : Host.Outcome State Fault Refusal :=
  .next (engCompute s e (.addi wd wa imm) 2 fun x => withFlags wd (addFlags (x.reg wa) (simm imm) false))

/-- SUBI (R108, R98, R99): wd = wa − simm. -/
def execSubi (e : Fin 48) (wd wa : Fin 32) (imm : Fin 65536) (s : State) : Host.Outcome State Fault Refusal :=
  .next (engCompute s e (.subi wd wa imm) 2 fun x => withFlags wd (subFlags (x.reg wa) (simm imm)))

/-- CMPI (R108, R98, R99): the flags of wa − simm. -/
def execCmpi (e : Fin 48) (wa : Fin 32) (imm : Fin 65536) (s : State) : Host.Outcome State Fault Refusal :=
  .next (engCompute s e (.cmpi wa imm) 2 fun x => flagsOnly (subFlags (x.reg wa) (simm imm)))

/-- ANDI (R108, R98, R99): wd = wa AND zimm. -/
def execAndi (e : Fin 48) (wd wa : Fin 32) (imm : Fin 65536) (s : State) : Host.Outcome State Fault Refusal :=
  .next (engCompute s e (.andi wd wa imm) 2 fun x => withFlags wd (logicFlags (x.reg wa &&& zimm imm)))

/-- ORI (R108, R98, R99): wd = wa OR zimm. -/
def execOri (e : Fin 48) (wd wa : Fin 32) (imm : Fin 65536) (s : State) : Host.Outcome State Fault Refusal :=
  .next (engCompute s e (.ori wd wa imm) 2 fun x => withFlags wd (logicFlags (x.reg wa ||| zimm imm)))

/-- XORI (R108, R98, R99): wd = wa XOR zimm. -/
def execXori (e : Fin 48) (wd wa : Fin 32) (imm : Fin 65536) (s : State) : Host.Outcome State Fault Refusal :=
  .next (engCompute s e (.xori wd wa imm) 2 fun x => withFlags wd (logicFlags (x.reg wa ^^^ zimm imm)))

/-- TSTI (R108, R98, R99): the flags of wa AND zimm. -/
def execTsti (e : Fin 48) (wa : Fin 32) (imm : Fin 65536) (s : State) : Host.Outcome State Fault Refusal :=
  .next (engCompute s e (.tsti wa imm) 2 fun x => flagsOnly (logicFlags (x.reg wa &&& zimm imm)))

/-- LIH (R108, R98, R99): wd = imm16 × 65,536. -/
def execLih (e : Fin 48) (wd : Fin 32) (imm : Fin 65536) (s : State) : Host.Outcome State Fault Refusal :=
  .next (engCompute s e (.lih wd imm) 2 fun _ => valueOnly wd (w32 (imm.val * 65536)))

/-- SHLI (R108, R98, R99): shift left by n. -/
def execShli (e : Fin 48) (wd wa n : Fin 32) (s : State) : Host.Outcome State Fault Refusal :=
  .next (engCompute s e (.shli wd wa n) 2 fun x => withFlags wd (logicFlags (x.reg wa <<< n.val)))

/-- SHRI (R108, R98, R99): logical right shift by n. -/
def execShri (e : Fin 48) (wd wa n : Fin 32) (s : State) : Host.Outcome State Fault Refusal :=
  .next (engCompute s e (.shri wd wa n) 2 fun x => withFlags wd (logicFlags (x.reg wa >>> n.val)))

/-- SARI (R108, R98, R99): arithmetic right shift by n. -/
def execSari (e : Fin 48) (wd wa n : Fin 32) (s : State) : Host.Outcome State Fault Refusal :=
  .next (engCompute s e (.sari wd wa n) 2 fun x => withFlags wd (logicFlags ((x.reg wa).sshiftRight n.val)))

/-- RORI (R108, R98, R99): rotate right by n. -/
def execRori (e : Fin 48) (wd wa n : Fin 32) (s : State) : Host.Outcome State Fault Refusal :=
  .next (engCompute s e (.rori wd wa n) 2 fun x => withFlags wd (logicFlags ((x.reg wa).rotateRight n.val)))

/-- LDW (R109, R96, R98): wd = the word at EA. -/
def execLdw (e : Fin 48) (wd wa : Fin 32) (imm : Fin 65536) (s : State) : Host.Outcome State Fault Refusal :=
  .next (engLoad s e (.ldw wd wa imm) wd wa imm 4 w32)

/-- LDH (R109, R96, R98): wd = the half-word at EA, zero-extended. -/
def execLdh (e : Fin 48) (wd wa : Fin 32) (imm : Fin 65536) (s : State) : Host.Outcome State Fault Refusal :=
  .next (engLoad s e (.ldh wd wa imm) wd wa imm 2 w32)

/-- LDHS (R109, R96, R98): wd = the half-word at EA, sign-extended. -/
def execLdhs (e : Fin 48) (wd wa : Fin 32) (imm : Fin 65536) (s : State) : Host.Outcome State Fault Refusal :=
  .next (engLoad s e (.ldhs wd wa imm) wd wa imm 2 (fun n => (BitVec.ofNat 16 n).signExtend 32))

/-- LDB (R109, R96, R98): wd = the byte at EA, zero-extended. -/
def execLdb (e : Fin 48) (wd wa : Fin 32) (imm : Fin 65536) (s : State) : Host.Outcome State Fault Refusal :=
  .next (engLoad s e (.ldb wd wa imm) wd wa imm 1 w32)

/-- LDBS (R109, R96, R98): wd = the byte at EA, sign-extended. -/
def execLdbs (e : Fin 48) (wd wa : Fin 32) (imm : Fin 65536) (s : State) : Host.Outcome State Fault Refusal :=
  .next (engLoad s e (.ldbs wd wa imm) wd wa imm 1 (fun n => (BitVec.ofNat 8 n).signExtend 32))

/-- STW (R109, R96): word at EA = wd. -/
def execStw (e : Fin 48) (wd wa : Fin 32) (imm : Fin 65536) (s : State) : Host.Outcome State Fault Refusal :=
  .next (engStore s e (.stw wd wa imm) wd wa imm 4)

/-- STH (R109, R96): half-word at EA = wd[15:0]. -/
def execSth (e : Fin 48) (wd wa : Fin 32) (imm : Fin 65536) (s : State) : Host.Outcome State Fault Refusal :=
  .next (engStore s e (.sth wd wa imm) wd wa imm 2)

/-- STB (R109, R96): byte at EA = wd[7:0]. -/
def execStb (e : Fin 48) (wd wa : Fin 32) (imm : Fin 65536) (s : State) : Host.Outcome State Fault Refusal :=
  .next (engStore s e (.stb wd wa imm) wd wa imm 1)

/-- B (R100, R102, R103, R110): a branch, taken when its condition holds. -/
def execB (e : Fin 48) (cond : Fin 16) (off : Fin 2097152) (s : State) : Host.Outcome State Fault Refusal :=
  .next (engBranch s e (.b cond off) cond false off)

/-- BL (R100 to R103, R110): a branch that writes the link to w31 when it is taken. -/
def execBl (e : Fin 48) (cond : Fin 16) (off : Fin 2097152) (s : State) : Host.Outcome State Fault Refusal :=
  .next (engBranch s e (.bl cond off) cond true off)

/-- ENGINE_NOP (R111): nothing but its issue. -/
def execEngineNop (e : Fin 48) (s : State) : Host.Outcome State Fault Refusal := .next (engIssue s e .nop fun s => s)

/-- HALT (R111, R80): pending write-backs complete, and the engine enters HALTED. The owner-table entries of an engine that was to stop at
an instant stay (R84 clears them at that instant). DESIGN CHOICE (log 234) -/
def execHalt (e : Fin 48) (s : State) : Host.Outcome State Fault Refusal :=
  .next (engIssue s e .halt fun s => engHalt (s.modEng e Eng.settled) e)

/-- WAIT (R116 to R118): completes at once where its lines are pending. -/
def execWait (e : Fin 48) (wd wa : Fin 32) (keep all : Bool) (s : State) : Host.Outcome State Fault Refusal :=
  .next (engIssue s e (.wait wd wa keep all) fun s =>
    waitTry (engWait s e (.lines ((s.eng e).reg wa) keep all wd)) e)

/-- WAITT (R120): completes at once where its target has passed. -/
def execWaitt (e : Fin 48) (wd wa : Fin 32) (dom : Fin 2) (s : State) : Host.Outcome State Fault Refusal :=
  .next (engIssue s e (.waitt wd wa dom) fun s => waitTry (engWait s e (.time dom ((s.eng e).reg wa) wd)) e)

/-- EVS (R121): sets EVS line `line` of engine wa[5:0]; from 48 on it is ignored and sets IO_RSVD. -/
def execEvs (e : Fin 48) (wa : Fin 32) (line : Fin 4) (s : State) : Host.Outcome State Fault Refusal :=
  .next (engIssue s e (.evs wa line) fun s =>
    let t := ((s.eng e).reg wa).toNat % 64
    if t < 48 then engLine s t (28 + line) else s.raise R.CE_ERR_IO_RSVD e)

/-- JR (R100, R103): to wa[11:0] after the delay slot. -/
def execJr (e : Fin 48) (wa : Fin 32) (s : State) : Host.Outcome State Fault Refusal :=
  .next (engIssue s e (.jr wa) fun s => engJump s e (((s.eng e).reg wa).setWidth 12))

/-- JALR (R100, R101, R103): to wa[11:0] after the delay slot; wd = (A + 2) mod 4,096. -/
def execJalr (e : Fin 48) (wd wa : Fin 32) (s : State) : Host.Outcome State Fault Refusal :=
  let a := (s.eng e).pc
  .next (engIssue s e (.jalr wd wa) fun s =>
    (engJump s e (((s.eng e).reg wa).setWidth 12)).modEng e fun x =>
      x.produce x.here 2 (some (wd.val, linkValue a)) none)

/-- CRCB (R123, R98): advances the CRC state in wa by n + 1 bytes of wb. -/
def execCrcb (e : Fin 48) (wd wa wb : Fin 32) (poly : Fin 6) (n : Fin 4) (s : State) :
    Host.Outcome State Fault Refusal :=
  .next (engCompute s e (.crcb wd wa wb poly n) 2 fun x =>
    valueOnly wd (w32 (crcb (x.reg wa).toNat (x.reg wb).toNat poly (n.val + 1))))

/-- BFX (R124, R98): the field of w + 1 bits of wa from POS on. -/
def execBfx (e : Fin 48) (wd wa : Fin 32) (sx : Bool) (w pos : Fin 32) (s : State) :
    Host.Outcome State Fault Refusal :=
  .next (engCompute s e (.bfx wd wa sx w pos) 2 fun x => valueOnly wd (extractField (x.reg wa) sx w pos))

/-- BFXR (R124, R98): as BFX, with POS in wb[4:0]. -/
def execBfxr (e : Fin 48) (wd wa wb : Fin 32) (sx : Bool) (w : Fin 32) (s : State) :
    Host.Outcome State Fault Refusal :=
  .next (engCompute s e (.bfxr wd wa wb sx w) 2 fun x =>
    valueOnly wd (extractField (x.reg wa) sx w ((x.reg wb).toNat % 32)))

/-- BFI (R124, R98): replaces the field of wd at POS, or at the position in register `pos`. -/
def execBfi (e : Fin 48) (wd wa : Fin 32) (w : Fin 32) (byReg : Bool) (pos : Fin 32) (s : State) :
    Host.Outcome State Fault Refusal :=
  .next (engCompute s e (.bfi wd wa w byReg pos) 2 fun x =>
    valueOnly wd (insertField (x.reg wd) (x.reg wa) w (if byReg then (x.reg pos).toNat % 32 else pos.val)))

/-- IN (R112 to R114, R98): reads an I/O word without waiting. -/
def execIoIn (e : Fin 48) (wd : Fin 32) (io : Fin 4096) (idx : Option (Fin 32)) (s : State) :
    Host.Outcome State Fault Refusal := .next (engIssue s e (.ioIn wd io idx) fun s => engIn s e wd io idx)

/-- INW (R112 to R115, R98): reads an I/O word, stalling until the unit can supply one. -/
def execIoInw (e : Fin 48) (wd : Fin 32) (io : Fin 4096) (idx : Option (Fin 32)) (s : State) :
    Host.Outcome State Fault Refusal := .next (engIssue s e (.ioInw wd io idx) fun s => engInw s e wd io idx)

/-- OUT (R112 to R114): writes an I/O word without waiting. -/
def execIoOut (e : Fin 48) (wd : Fin 32) (io : Fin 4096) (idx : Option (Fin 32)) (s : State) :
    Host.Outcome State Fault Refusal := .next (engIssue s e (.ioOut wd io idx) fun s => engOut s e wd io idx)

/-- OUTW (R112 to R115): writes an I/O word, stalling until the unit can accept it. -/
def execIoOutw (e : Fin 48) (wd : Fin 32) (io : Fin 4096) (idx : Option (Fin 32)) (s : State) :
    Host.Outcome State Fault Refusal := .next (engIssue s e (.ioOutw wd io idx) fun s => engOutw s e wd io idx)

/-- UNDEFINED_INSTRUCTION (R106): executes as NOP and sets ILL_OP. -/
def execUndefinedInstruction (e : Fin 48) (s : State) : Host.Outcome State Fault Refusal :=
  .next (engIssue s e .undefined fun s => s.raise R.CE_ERR_ILL_OP e)

/-- IO_WRITE_DELIVERY (R113). -/
def execIoWriteDelivery (e : Fin 48) (s : State) : Host.Outcome State Fault Refusal := .next (ioDeliver s e)

/-- WAIT_COMPLETE (R116 to R118): for a WAIT in progress. -/
def execWaitComplete (e : Fin 48) (s : State) : Host.Outcome State Fault Refusal :=
  .next (match (s.eng e).wait with
    | .lines _ _ _ _ => if engRuns s e then waitTry s e else s
    | _ => s)

/-- WAITT_COMPLETE (R120): for a WAITT in progress. -/
def execWaittComplete (e : Fin 48) (s : State) : Host.Outcome State Fault Refusal :=
  .next (match (s.eng e).wait with
    | .time _ _ _ => if engRuns s e then waitTry s e else s
    | _ => s)

/-- INW_COMPLETE (R115). -/
def execInwComplete (e : Fin 48) (s : State) : Host.Outcome State Fault Refusal :=
  .next (if engRuns s e then inwTry s e else s)

/-- OUTW_COMPLETE (R115). -/
def execOutwComplete (e : Fin 48) (s : State) : Host.Outcome State Fault Refusal :=
  .next (if engRuns s e then outwTry s e else s)

end Sys2Proof.Machine
end

