-- ==== Sys2Proof/Machine/Frieze.lean ====
section
/-! DEFINITION. The commands of Frieze (spec/07): what a YPFZ instance does when a cycle, a frame or a limit of its network comes.
An instance in which the event cannot occur is unchanged. -/
namespace Sys2Proof.Machine

/-- CYCLIC_FRAME_ORIGINATE (R186). -/
def execCyclicFrameOriginate (i : Fin 256) (s : State) : Host.Outcome State Fault Refusal := .next (fzSeen (fzOriginate s i) i)

/-- CYCLIC_FRAME_RECEIVE (R187, R188, R194). -/
def execCyclicFrameReceive (i : Fin 256) (f : List Byte) (age : BitVec 32) (s : State) : Host.Outcome State Fault Refusal :=
  .next (fzSeen (fzReceive s i f age.toNat) i)

/-- STAR_RELAY_START (R197). -/
def execStarRelayStart (i : Fin 256) (n : Fin 128) (f : List Byte) (sfd : Sfd) (long : Bool)
    (s : State) : Host.Outcome State Fault Refusal :=
  .next (fzSeen (fzStart s i n f sfd.age.toNat long sfd.back.toNat) i)

/-- BYPASS (R198). -/
def execBypass (i : Fin 256) (s : State) : Host.Outcome State Fault Refusal := .next (fzSeen (fzBypass s i) i)

/-- LOST_CYCLE (R198). -/
def execLostCycle (i : Fin 256) (s : State) : Host.Outcome State Fault Refusal := .next (fzSeen (fzLost s i) i)

/-- BRANCH_RETURN_TIMEOUT (R198, R200). -/
def execBranchReturnTimeout (i : Fin 256) (n : Fin 128) (s : State) : Host.Outcome State Fault Refusal :=
  .next (fzSeen (fzReturnTimeout s i n) i)

/-- QUARANTINE_SILENCE (R199). -/
def execQuarantineSilence (i : Fin 256) (n : Fin 128) (s : State) : Host.Outcome State Fault Refusal :=
  .next (fzSeen (fzSilence s i n) i)

/-- DELAY_REQ (R193). -/
def execDelayReq (i : Fin 256) (n : Fin 128) (f : List Byte) (age : BitVec 32) (s : State) :
    Host.Outcome State Fault Refusal :=
  .next (fzSeen (fzDelayReq s i n f age.toNat) i)

/-- DELAY_RESP (R193). -/
def execDelayResp (i : Fin 256) (f : List Byte) (age : BitVec 32) (s : State) : Host.Outcome State Fault Refusal :=
  .next (fzSeen (fzDelayResp s i f age.toNat) i)

/-- ACYCLIC_FRAME (R195). -/
def execAcyclicFrame (i : Fin 256) (n : Fin 128) (f : List Byte) (age : BitVec 32) (s : State) :
    Host.Outcome State Fault Refusal :=
  .next (fzSeen (fzData s i n f age.toNat) i)

/-- LISTEN_TIMEOUT (R203). -/
def execListenTimeout (i : Fin 256) (s : State) : Host.Outcome State Fault Refusal := .next (fzSeen (fzListenTimeout s i) i)

/-- COLDSTART_FRAME (R204). -/
def execColdstartFrame (i : Fin 256) (n : Fin 128) (f : List Byte) (age : BitVec 32) (s : State) :
    Host.Outcome State Fault Refusal :=
  .next (fzSeen (fzCold s i n f age.toNat) i)

/-- COLDSTART_DECISION (R204). -/
def execColdstartDecision (i : Fin 256) (s : State) : Host.Outcome State Fault Refusal := .next (fzSeen (fzDecide s i) i)

/-- COLDSTART_RELAY_RECEIVE (R205). -/
def execColdstartRelayReceive (i : Fin 256) (f : List Byte) (s : State) : Host.Outcome State Fault Refusal :=
  .next (fzSeen (fzColdRelay s i f) i)

/-- COLDSTART_TIMEOUT (R205). -/
def execColdstartTimeout (i : Fin 256) (s : State) : Host.Outcome State Fault Refusal := .next (fzSeen (fzColdTimeout s i) i)

/-- NET_LISTEN (R204). -/
def execNetListen (i : Fin 256) (s : State) : Host.Outcome State Fault Refusal := .next (fzSeen (fzNetListen s i) i)

/-- LEADER_RETURN_TIMEOUT (R205). -/
def execLeaderReturnTimeout (i : Fin 256) (s : State) : Host.Outcome State Fault Refusal := .next (fzSeen (fzLeaderTimeout s i) i)

end Sys2Proof.Machine
end

