-- ==== Sys2Proof/Machine/Host.lean ====
section
/-! DEFINITION. The commands of the host interface (spec/12): the PCIe link, quad-SPI frames, mailboxes and doorbells. -/
namespace Sys2Proof.Machine

/-- HIF_SPI_LAST takes a status and the index of the word that failed (R308). -/
def spiLast (s : State) (st i : Nat) : State := (s.put R.HIF_SPI_LAST_STATUS st).put R.HIF_SPI_LAST_INDEX i

/-- Why a word of a frame fails, if it does (R308): 1 REJECTED, 2 ADDR_ERR, 3 DENIED. -/
def spiFail (s : State) (wr : Bool) (a : Nat) : Option Nat :=
  if a % 4 != 0 then some 2
  else if !fwPass s .host wr a then some 3
  else if !assigned s a then some 2
  else match if wr then regRef a else none with
    | some x => if x.reg.is R.HMB_DATA && s.on R.HMB_STAT_FULL x.i then some 1 else none
    | none => none

/-- What a failing word leaves behind: HIF_ERR.ADDR_ERR, and for an aligned address what the access itself does. -/
def spiFailed (s : State) (st a : Nat) (access : State → State) : State :=
  let s := if a % 4 = 0 then access s else s
  if st = 2 then s.raise R.HIF_ERR_ADDR_ERR else s

/-- The words of a WRITE in order, up to the first that fails (R308): its status and index. -/
def spiWrites (s : State) (a i : Nat) : List Word → State × Nat × Nat
  | [] => (s, 0, 0)
  | w :: ws =>
    let b := (a + 4 * i) % 2 ^ 32
    let go := fun s : State => busWrite s .host b (leBytes 4 w.toNat)
    match spiFail s true b with
    | some st => (spiFailed s st b go, st, i)
    | none => spiWrites (go s) a (i + 1) ws

/-- The words of a READ, fetched in order up to the first that fails (R307, R308). -/
def spiReads (s : State) (a i : Nat) : Nat → State × Nat × Nat × List Byte
  | 0 => (s, 0, 0, [])
  | n + 1 =>
    let b := (a + 4 * i) % 2 ^ 32
    match spiFail s false b with
    | some st => (spiFailed s st b fun s => (busRead s .host b 4).1, st, i, [])
    | none =>
      let p := busRead s .host b 4
      let q := spiReads p.1 a (i + 1) n
      (q.1, q.2.1, q.2.2.1, p.2.reverse ++ q.2.2.2)

/-- The device's answer on the bus. -/
def spiAnswer (s : State) (bs : List Byte) : State := { s with hif := { s.hif with spiOut := bs } }

/-- Whether the quad-SPI bus is the host's (R300). -/
def spiBus (s : State) : Bool := s.on R.HIF_STAT_IF

/-- QSPI_WRITE (R307, R308): a frame of 1 to 64 words. -/
def execQspiWrite (a : Word) (ws : List Word) (s : State) : Host.Outcome State Fault Refusal :=
  .next (if spiBus s && !ws.isEmpty then
      let p := spiWrites s a.toNat 0 (ws.take 64)
      spiAnswer (spiLast p.1 p.2.1 p.2.2) [BitVec.ofNat 8 p.2.1]
    else s)

/-- QSPI_READ (R307, R308): `count` + 1 words; data follow the status byte only if it is OK. -/
def execQspiRead (a : Word) (count : Fin 64) (s : State) : Host.Outcome State Fault Refusal :=
  .next (if spiBus s then
      let p := spiReads s a.toNat 0 (count.val + 1)
      spiAnswer (spiLast p.1 p.2.1 p.2.2.1) (BitVec.ofNat 8 p.2.1 :: (if p.2.1 = 0 then p.2.2.2 else []))
    else s)

/-- QSPI_STATUS (R307). -/
def execQspiStatus (s : State) : Host.Outcome State Fault Refusal :=
  .next (if spiBus s then
      spiAnswer s [BitVec.ofNat 8 (s.get R.HIF_SPI_LAST_STATUS), BitVec.ofNat 8 (s.get R.HIF_SPI_LAST_INDEX)]
    else s)

/-- BAD_FRAME (R308): an opcode that is none of WRITE, READ and STATUS. -/
def execBadFrame (op : BitVec 8) (s : State) : Host.Outcome State Fault Refusal :=
  .next (if spiBus s && op != 0x02 && op != 0x0B && op != 0x05 then spiAnswer (spiLast s 4 0) [4] else s)

/-- QSPI_ABORT (R309): the complete words of a WRITE are applied; an abandoned READ has no effect. -/
def execQspiAbort (part : SpiPart) (s : State) : Host.Outcome State Fault Refusal :=
  .next (if spiBus s then
      let s := spiAnswer (s.raise R.HIF_ERR_SPI_ABORT) []
      match part with
      | .write a ws =>
        if ws.isEmpty then s
        else
          let p := spiWrites s a.toNat 0 (ws.take 64)
          spiLast p.1 p.2.1 p.2.2
      | .short => s
      | .read => s
    else s)

/-- HOT_RESET (R306). -/
def execHotReset (s : State) : Host.Outcome State Fault Refusal := .next (hotReset s)

/-- PCIE_LINK_TRAINED (R301, R306): at rate code `speed` + 1 on 2^`width` lanes. -/
def execPcieLinkTrained (speed width : Fin 3) (bme : Bool) (c : PciConfig) (s : State) : Host.Outcome State Fault Refusal :=
  .next (linkTrained s (speed.val + 1) (2 ^ width.val) bme c)

/-- HOST_MAILBOX_WRITE (R311, R312). -/
def execHostMailboxWrite (r : Requester) (n : Fin 16) (v : Word) (s : State) : Host.Outcome State Fault Refusal :=
  .next (guardedWrite s r (R.HMB_DATA.addr n 0 0) (hostSide r) fun s => hmbWrite s r n v.toNat)

/-- HOST_MAILBOX_ACK (R311). -/
def execHostMailboxAck (r : Requester) (n : Fin 16) (v : Word) (s : State) : Host.Outcome State Fault Refusal :=
  .next (guardedWrite s r (R.HMB_ACK.addr n 0 0) (isAtl r) fun s => hmbAckWrite s n v.toNat)

/-- ATELIER_MAILBOX_WRITE (R314). -/
def execAtelierMailboxWrite (r : Requester) (n : Fin 16) (v : Word) (s : State) : Host.Outcome State Fault Refusal :=
  .next (guardedWrite s r (R.AMB_DATA.addr n 0 0) (isAtl r) fun s => ambWrite s n v.toNat)

/-- ATELIER_MAILBOX_ACK (R314). -/
def execAtelierMailboxAck (r : Requester) (n : Fin 16) (v : Word) (s : State) : Host.Outcome State Fault Refusal :=
  .next (guardedWrite s r (R.AMB_ACK.addr n 0 0) (isHost r) fun s => ambAck s n v.toNat)

/-- HDB_SET (R316). -/
def execHdbSet (r : Requester) (v : Word) (s : State) : Host.Outcome State Fault Refusal :=
  .next (guardedWrite s r (R.HDB_SET.addr 0 0 0) (isHost r) fun s => hdbSet s v.toNat)

/-- HDB_CLR (R316). -/
def execHdbClr (r : Requester) (v : Word) (s : State) : Host.Outcome State Fault Refusal :=
  .next (guardedWrite s r (R.HDB_CLR.addr 0 0 0) (isAtl r) fun s => hdbClr s v.toNat)

/-- ADB_SET (R316). -/
def execAdbSet (r : Requester) (v : Word) (s : State) : Host.Outcome State Fault Refusal :=
  .next (guardedWrite s r (R.ADB_SET.addr 0 0 0) (isAtl r) fun s => adbSet s v.toNat)

/-- ADB_CLR (R316). -/
def execAdbClr (r : Requester) (v : Word) (s : State) : Host.Outcome State Fault Refusal :=
  .next (guardedWrite s r (R.ADB_CLR.addr 0 0 0) (isHost r) fun s => adbClr s v.toNat)

end Sys2Proof.Machine
end

