-- ==== Sys2Proof/Machine/Instants.lean ====
section
/-! DEFINITION. INSTANT (R176, R180) and PRESENTATION (R47): what one instant, and one presentation of a group, bring to all that
name them; the group streams (R320). -/
namespace Sys2Proof.Machine

/-! ### Instants -/

/-- An instant reaches the engines (R80, R81, R181): cycle boundaries, then the slots that follow the generator, then the engines
that wait to start with it. -/
def engInstant (s : State) (n t : Nat) : State :=
  let s := (numsWhere 48 fun e => engActive s e && s.on R.CE_CYC_EN e && s.get R.CE_CYC_IG e == n).foldl
    (fun s e => cycleBoundary s e t) s
  let s := (List.range 48).foldl (fun s e =>
    ((List.range 8).filter fun k =>
      let sl := (s.eng e).islot k
      slotMode sl == 1 && bits sl.ctl 2 5 == n).foldl (fun s k => s.modEng e fun x => slotFires x k t false) s) s
  (numsWhere 48 fun e => engState s e == 5 && s.get R.CE_CTL_START_IG e == n).foldl
    (fun s e => s.modEng e fun x => { x with startDue := true }) s

/-- An instant triggers the groups that name its generator with TRIG = 0 (R48). -/
def cgInstant (s : State) (n t : Nat) : State :=
  (numsWhere 256 fun g => !s.on R.SS_CG_CTL_TRIG g && s.get R.SS_CG_CTL_IG g == n).foldl (fun s g => cgTrigger s g t) s

/-- The generator after a firing (R176, R178): a ONESHOT generator has done its work. -/
def igFired (s : State) (n : Nat) : State :=
  let g := s.igen n
  let s := s.setIgen n { g with fired := some g.next, next := if g.mode then g.next + g.period else g.next, armed := g.mode }
  showNext (s.addWrap R.TB_IG_CNT_V 1 n) n

/-- Generator `n` fires once its time has come (R176), and every consumer takes the same scheduled time (R180). -/
def igInstant (s : State) (n : Nat) : State :=
  let g := s.igen n
  let t := ceil16 g.next
  if !g.armed || domTime s g.dom < t then s
  else
    let s := cgInstant (engInstant (igFired s n) n t) n t
    let s := (List.range 4).foldl (fun s c => canInstant s c n) s
    let s := fxInstant (raspInstant s n) n t
    let s := gatesFired (syncPulse (dqTrigger s 1 n) n) n
    (instWhere s fun x => x.st != 0 && x.cycs.contains n).foldl instCycle s

/-- INSTANT (R176, R180). -/
def execInstant (n : Fin 32) (s : State) : Host.Outcome State Fault Refusal := .next (igInstant s n)

/-! ### Group streams (R320) -/

/-- A stream stops with its queue (R345). -/
def streamStop (s : State) (e : ChEntry) : State :=
  notify (s.setStreams (s.cmd.streams.filter fun x => x.ch != e.ch)) 6 e.ch (chDq e.bytes)

/-- The bytes that a stream to the host writes: the items' read views in handle order, and the trailer. -/
def streamOut (s : State) (b : List Byte) : List Byte :=
  let items := streamItems s b
  let g := chCg b
  let stale := (items.filter fun p => itemStale s p.1 p.2).length
  let seq := s.rd R.SS_CG_PSEQ g
  items.flatMap (fun p => leBytes (itemBytes p.2) (readView s p.1))
    ++ leBytes 4 seq ++ leBytes 4 (s.rd R.SS_CG_TIME g) ++ leBytes 4 stale ++ leBytes 4 seq

/-- A stream from the host gives its items to the host write port, one after the other; a write that is discarded sets the port's ERR
bit (R40, R491). -/
def streamIn : List (Nat × BitVec 64) → List Byte → State → State
  | [], _, s => s
  | p :: l, bs, s =>
    let n := itemBytes p.2
    let r := directWrite s p.1 (BitVec.ofNat 1024 (leNat (bs.take n))) (BitVec.ofNat 1024 (2 ^ itWidth p.2 - 1)) true
    streamIn l (bs.drop n) (if r.2 then r.1 else r.1.raise R.SS_HWR_STAT_ERR)

/-- A stream's copy at a presentation of its group; without its queue or its memory it stops. -/
def streamCopy (s : State) (e : ChEntry) : State :=
  let b := e.bytes
  let q := chDq b
  if !s.on R.DQ_CTL_EN q || s.get R.DQ_STAT_STATE q = 3 || !chtUp s then streamStop s e
  else
    let a := chtAddr s (chBuf b + chStride b * (s.rd R.SS_CG_PSEQ (chCg b) % chNbuf b))
    let s := if chFlag b 8 then streamIn (streamItems s b) (parBytes s a (streamLen s b)) (parOpen s a (streamLen s b))
      else parWrite s a (streamOut s b)
    if chFlag b 2 then adbSet s (2 ^ chDb b) else s

/-- COMPLETION_TIMEOUT (R305, R350): a read of host memory is not completed in time, or is completed with an error: a command's, a
queue's, or that of the group streams from the host which a queue carries, which stop with it (R345). -/
def completionTimeout (s : State) (ur : Bool) (r : HostReader) : State :=
  if !hostMemUp s then s
  else match r with
    | .command n => cmdTimeout s ur n
    | .queue q =>
      let l := s.cmd.streams.filter fun e => chFlag e.bytes 8 && chDq e.bytes == q.val && !s.on R.HIF_CHT_CTL_LOC
      if l.isEmpty then dqTimeout s ur q else l.foldl streamStop (cplNote s ur)

/-- COMPLETION_TIMEOUT (R305, R350). -/
def execCompletionTimeout (ur : Bool) (r : HostReader) (s : State) : Host.Outcome State Fault Refusal :=
  .next (completionTimeout s ur r)

/-- PRESENTATION (R47, R278, R320, R351, R158): what follows it in the device. -/
def cgPresented (s : State) (g : Nat) : State :=
  match cgPresent s g with
  | none => s
  | some s =>
    let s := dqTrigger s 3 g
    let s := (s.cmd.streams.filter fun e => chCg e.bytes == g).foldl streamCopy s
    let s := (instWhere s fun x => x.st != 0 && x.cycs.isEmpty && x.groups.head? == some g).foldl instRound s
    if g = 0 then svcCycle s else s

/-- PRESENTATION (R47). -/
def execPresentation (g : Fin 256) (s : State) : Host.Outcome State Fault Refusal := .next (cgPresented s g)

end Sys2Proof.Machine
end

