-- ==== Sys2Proof/Machine/Mem.lean ====
section
/-! DEFINITION. The commands of on-chip memory (spec/16): ECC errors, scrubbing, the transparent test, bank power and bank
substitution. -/
namespace Sys2Proof.Machine

/-- BANK_ECC_ERROR (R377). -/
def execBankEccError (b : Fin 96) (word : BitVec 15) (err : EccErr) (s : State) : Host.Outcome State Fault Refusal :=
  .next (bankEcc s b word.toNat err)

/-- SCRUB_WORD (R378). -/
def execScrubWord (err : EccErr) (s : State) : Host.Outcome State Fault Refusal := .next (scrubWord s err)

/-- TEST_WINDOW (R379). -/
def execTestWindow (b : Fin 96) (s : State) : Host.Outcome State Fault Refusal := .next (testWindow s b)

/-- TEST_WINDOW_RESTORE (R379). -/
def execTestWindowRestore (fail : Bool) (s : State) : Host.Outcome State Fault Refusal := .next (testRestore s fail)

/-- BANK_POWER_REQUEST (R380, R381): accepted from Atelier and Patina. -/
def execBankPowerRequest (r : Requester) (b : Fin 96) (v : Word) (s : State) : Host.Outcome State Fault Refusal :=
  .next (guardedWrite s r (R.MEM_BK_PWR.addr b 0 0) (isAtl r || isPat r) fun s => bankRequest s r b (bits v.toNat 0 2))

/-- BANK_POWER_ON (R380). -/
def execBankPowerOn (b : Fin 96) (s : State) : Host.Outcome State Fault Refusal := .next (bankOn s b)

/-- BANK_REMAP_GO (R382): accepted from Patina and Armature. -/
def execBankRemapGo (r : Requester) (v : Word) (s : State) : Host.Outcome State Fault Refusal :=
  .next (guardedWrite s r (R.MEM_REMAP_CTL.addr 0 0 0) (isPat r || isArm r) fun s => remapCtlWrite s v.toNat)

/-- BANK_REMAP_DONE (R382). -/
def execBankRemapDone (s : State) : Host.Outcome State Fault Refusal := .next (remapDone s)

end Sys2Proof.Machine
end

