-- ==== Sys2Proof/Machine/Pat.lean ====
section
/-! DEFINITION. The commands of Patina (spec/19): wear rounds and epochs, the life record, requests and retries of
substitutions, telemetry and the calibration loops. -/
namespace Sys2Proof.Machine

/-- WEAR_ROUND (R424, R425): the paces, margins or resistances of every unit of a kind, in order. -/
def execWearRound (k : WearKind) (paces : List Word) (s : State) : Host.Outcome State Fault Refusal :=
  .next (wearRound s k paces)

/-- EPOCH_END (R426, R430). -/
def execEpochEnd (s : State) : Host.Outcome State Fault Refusal := .next (epochEnd s)

/-- BASELINE_CAPTURE (R428). -/
def execBaselineCapture (s : State) : Host.Outcome State Fault Refusal := .next (baselineCapture s)

/-- LIFE_RECORD_WRITE (R427, R429). -/
def execLifeRecordWrite (s : State) : Host.Outcome State Fault Refusal := .next (recordWrite s)

/-- SPARE_REQUEST_REPEAT (R430). -/
def execSpareRequestRepeat (k : WearKind) (n : Fin 288) (s : State) : Host.Outcome State Fault Refusal :=
  .next (requestRepeat s k n)

/-- SUBSTITUTION_RETRY (R432). -/
def execSubstitutionRetry (s : State) : Host.Outcome State Fault Refusal := .next (subRetry s)

/-- TELEMETRY_SNAPSHOT (R435). -/
def execTelemetrySnapshot (tHi tLo : BitVec 16) (rows : BitVec 8) (ce : Word) (s : State) :
    Host.Outcome State Fault Refusal :=
  .next (telemetry s tHi tLo rows ce)

/-- PHY_TRIM (R436): a port's new amplitude and termination; a result outside the trim range keeps the last setting. -/
def execPhyTrim (p : Fin 8) (v : Word) (inRange : Bool) (s : State) : Host.Outcome State Fault Refusal :=
  .next (phyTrim s p v.toNat inRange)

/-- ADC_OFFSET_CALIBRATION (R436). -/
def execAdcOffsetCalibration (v : BitVec 16) (inRange : Bool) (s : State) : Host.Outcome State Fault Refusal :=
  .next (adcOffset s v.toNat inRange)

/-- TEMPERATURE_SENSOR_CHECK (R436): the readings of all sensors, in 0.25 °C. -/
def execTemperatureSensorCheck (t : List (BitVec 16)) (s : State) : Host.Outcome State Fault Refusal :=
  .next (sensorCheck s (t.map BitVec.toInt))

/-- OSCILLATOR_DRIFT (R436, R161): XREF against ALTREF. -/
def execOscillatorDrift (altref : Option Word) (inRange : Bool) (s : State) : Host.Outcome State Fault Refusal :=
  .next (oscDrift s altref inRange)

end Sys2Proof.Machine
end

