-- ==== Sys2Proof/Machine/Plinth.lean ====
section
/-! DEFINITION. The commands of the Plinth links (spec/20): training and losses, packets, lane swaps, remote accesses and copies,
events, resets and cluster time. -/
namespace Sys2Proof.Machine

/-- The requester that a remote access has at its target (R446). -/
def remRequester (host : Bool) (d : Fin 8) : Requester := if host then .remHost d else .remAtl d

/-- A remote read at its target (R446): result 0 OK, 1 BUS_ERR, 2 FW_DENY, and the word. -/
def remRead (s : State) (r : Requester) (a : Nat) : State × Nat × Nat :=
  if !fwPass s r false a then (fwRefuse s r a, 2, 0)
  else
    let p := passedRead { s with bus := {} } r a 4
    (p.1, if p.1.bus.err then 1 else 0, leNat p.2)

/-- A remote write at its target. -/
def remWrite (s : State) (r : Requester) (a v : Nat) : State × Nat :=
  if !fwPass s r true a then (fwRefuse s r a, 2)
  else
    let s := passedWrite { s with bus := {} } r a (leBytes 4 v)
    (s, if s.bus.err then 1 else 0)

/-- An event message from device `d` (R448, R363). -/
def remoteEvent (s : State) (d : Nat) : State := evhEvent s (316 + d)

/-- The acknowledge of an event message (R448): the source counts as claimed and ended by target 7. -/
def eventAcked (s : State) (n : Nat) : State :=
  let s := { s with pk := { s.pk with sent := s.pk.sent.filter fun m => m != n } }
  let t := evhClaim s 7 n
  if t.on R.EVH_T_CLAIM_OK 7 then evhEoi t 7 n else s

/-- Sources that waited for target 7 are presented once a route exists (R371); sources presented on it leave as event messages, and
remote item writes as packets (R448, R61). -/
def pkDrain (s : State) : State :=
  let s := if asleep s 7 then s else presentWaiting s 7
  let dev := s.get R.EVH_REMOTE_DEV
  let s := (s.evh.presented.filter fun p => p.2 == 8 && !s.pk.sent.contains p.1).foldl (fun s p =>
    pkSend { s with pk := { s.pk with sent := s.pk.sent ++ [p.1] } } dev (.event (Fin.ofNat 512 p.1))) s
  let l := s.store.remoteOut
  l.foldl (fun s u => pkSend s u.dev (.items (u.items.map fun x => ⟨Fin.ofNat 262144 x.1, x.2.1, x.2.2⟩)))
    { s with store := { s.store with remoteOut := [] } }

/-- A reset request from device `d` (R449): answered before the reset begins. -/
def resetAsked (s : State) (d : Nat) (sys : Bool) : State :=
  if s.on R.RST_CTL_REMOTE_EN then remoteReset (pkSend s d (.resetAnswer true)) sys
  else pkSend (s.raise R.PK_EVT_RRST_DENIED) d (.resetAnswer false)

/-- A measurement of the cluster's time (R450, R171, R173). -/
def clusterTime (s : State) (e : Nat) : State :=
  let d := s.get R.PK_TIME_CTL_DOM
  if !s.on R.PK_TIME_CTL_EN || s.get R.PK_TIME_CTL_MASTER = pkId s then s
  else if s.get R.TB_D_CTL_MODE d != 2 then s.raise R.PK_TIME_STAT_MODE_ERR
  else measWrite (s.put R.PK_TIME_LASTE_V e) d e

/-- The one-way delay of a link, corrected (R450), in 0.25 ns. -/
def linkDelay (s : State) (k : Nat) : Int := s.get R.PK_L_DELAY_V k + s16 (s.rd R.PK_L_ASYM k)

/-- The measurement that a time message on link `k` gives, in 2^-8 ns: local time less the master's, to which the delay of this link and
`corr`, what relays have added, in 0.25 ns, are added (R450). -/
def timeOffset (s : State) (k : Nat) (t : BitVec 64) (corr : Word) : Nat :=
  let d := s.get R.PK_TIME_CTL_DOM
  u32 ((domRaw s d / 2 ^ 32 : Nat) - (t.toNat * 256 : Nat) - 64 * (linkDelay s k + corr.toInt))

/-- A packet for another device goes on (R442); a device that relays a time message adds the delay of the link that brought it and its
residence time (R450), a free value: how long a packet waits is not modelled. -/
def pkRelay (s : State) (k : Nat) (p : Packet) : State :=
  match p.msg with
  | .time t corr =>
    let r := s.draw 16
    pkForward r.2 { p with msg := .time t (corr + BitVec.ofInt 32 (linkDelay s k) + r.1.setWidth 32) }
  | _ => pkForward s p

/-- A branch on this device takes the edges of its gate from its star head (R206): the lowest free generator places them, while there are
any. DESIGN CHOICE (log 241) -/
def farGateSet (s : State) (q : Nat) (l : List (Nat × Bool)) : State :=
  match ((tabGet none s.farGates q).map (·.ig)).orElse fun _ => (freeIgs s 1).bind (·.head?) with
  | none => s
  | some g =>
    let x : Option FarGate := if l.isEmpty then none else some { ig := g, edges := l, open_ := ((tabGet none s.farGates q).map (·.open_)).getD false }
    igOnce { s with farGates := tabSet none s.farGates q x } g (s.get R.PK_TIME_CTL_DOM) (l.head?.map (·.1))

/-- A packet for this device. -/
def pkDeliver (s : State) (k : Nat) (p : Packet) : State :=
  let d := p.src.val
  match p.msg with
  | .items ws => remoteArrives s p.src ws
  | .read host a =>
    let q := remRead s (remRequester host p.src) a.toNat
    pkSend q.1 d (.answer host (Fin.ofNat 8 q.2.1) (w32 q.2.2))
  | .write host a v =>
    let q := remWrite s (remRequester host p.src) a.toNat v.toNat
    pkSend q.1 d (.answer host (Fin.ofNat 8 q.2) 0)
  | .answer host result v =>
    let port := bit01 host
    if s.on R.PK_RA_STAT_BUSY port then
      raEnd s port result.val (if result.val = 0 && !s.on R.PK_RA_CMD_WRITE port then some v.toNat else none)
    else s
  | .event n => pkSend (remoteEvent s d) d (.eventAck n)
  | .eventAck n => eventAcked s n.val
  | .reset sys => resetAsked s d sys
  | .resetAnswer ok => (s.put R.PK_RRST_STAT_V (if ok then 1 else 2)).clr R.PK_RRST_GO
  | .time t corr => clusterTime s (timeOffset s k t corr)
  | .frame f => ingressFrame s 28 0 0 f
  | .relay q f good cut => stampSend s q (s.get R.PK_TIME_CTL_DOM) none f good cut
  | .data i q f good cut =>
    if spliceFree s q then stampSend s q (s.get R.PK_TIME_CTL_DOM) none f good cut else pkSend s d (.blocked i)
  | .blocked i => if (s.inst i).used then instCount s i 23 1 else s
  | .gate q l => farGateSet s q (l.map fun e => (e.1.toNat, e.2))

/-- PACKET_RECEIVE (R438, R442, R446 to R450): the peer acknowledges `acked` packets; a packet with a bad CRC is left to be sent
again. -/
def pkReceive (s : State) (k acked : Nat) (crcOk : Bool) (p : Option Packet) : State :=
  if !s.on R.PK_L_STAT_UP k then s
  else
    let s := setPkOut s k ((pkOut s k).drop acked)
    match p with
    | none => s
    | some p => if !crcOk then s else if p.dst.val = pkId s then pkDeliver s k p else pkRelay s k p

/-- REMOTE_DMA_DONE (R447): the copy ends; a copy from the remote device has brought `data`. The local end has Atelier's rights.
DESIGN CHOICE (log 143) -/
def rdDone (s : State) (c result done : Nat) (data : List Byte) : State :=
  if !s.on R.PK_RD_STAT_BUSY c then s
  else
    let len := s.rd R.PK_RD_LEN c / 4 * 4
    let n := if result = 0 then len else min done len
    let a := s.rd R.PK_RD_LOCAL c / 4 * 4
    let s := if s.on R.PK_RD_CTL_DIR c then
        (List.range (n / 4)).foldl (fun s i =>
          busWrite s (.atl 0) ((a + 4 * i) % 2 ^ 32) ((data.drop (4 * i)).take 4 ++ List.replicate (4 - (data.drop (4 * i)).length) 0)) s
      else s
    let s := ((s.put R.PK_RD_STAT_RESULT result c).put R.PK_RD_DONE_V n c).raise R.PK_EVT_RD_DONE
    let s := (s.clr R.PK_RD_STAT_BUSY c).clr R.PK_RD_CTL_GO c
    if s.on R.PK_RD_CTL_PULSE_EN c then dqStart s (s.get R.PK_RD_CTL_DQ c) else s

/-- CLUSTER_TIME_MESSAGE (R450): the master sends its time to every device present, 1 ms after the last message. -/
def timeMessage (s : State) : State :=
  if s.on R.PK_TIME_CTL_EN && s.get R.PK_TIME_CTL_MASTER = pkId s && s.pk.timeAt ≤ s.now then
    let t := BitVec.ofNat 64 (domTime s (s.get R.PK_TIME_CTL_DOM))
    (numsWhere 8 fun d => d != pkId s && pkPresent s d).foldl (fun s d => pkSend s d (.time t 0))
      { s with pk := { s.pk with timeAt := s.now + 1000000 } }
  else s

/-- A write of a PK register from Atelier. -/
def pkBus (s : State) (r : Requester) (a : Nat) (f : State → State) : State := guardedWrite s r a (isAtl r) f

/-- PLINTH_LINK_TRAINED (R437, R441). -/
def execPlinthLinkTrained (k : Fin 4) (id : Fin 8) (size : Fin 16) (link : Fin 4) (delay : BitVec 24) (s : State) :
    Host.Outcome State Fault Refusal := .next (pkTrained s k id size link delay.toNat)

/-- LANE_FAILURE (R437). -/
def execLaneFailure (k : Fin 4) (lane : Fin 2) (s : State) : Host.Outcome State Fault Refusal :=
  .next (pkLaneFail s k lane)

/-- PACKET_RECEIVE (R438, R442, R446 to R450). -/
def execPacketReceive (k : Fin 4) (acked : Fin 33) (crcOk : Bool) (p : Option Packet) (s : State) :
    Host.Outcome State Fault Refusal := .next (pkReceive s k acked crcOk p)

/-- PACKET_RESEND (R438). -/
def execPacketResend (k : Fin 4) (s : State) : Host.Outcome State Fault Refusal := .next (pkResend s k)

/-- LINK_STATE_FLOOD (R442). -/
def execLinkStateFlood (d : Fin 8) (w : BitVec 4) (s : State) : Host.Outcome State Fault Refusal :=
  .next (pkFlood s d w.toNat)

/-- ROUTE_HOLD_END (R444): no packet of this device to `d` waits for an acknowledge. -/
def execRouteHoldEnd (d : Fin 8) (s : State) : Host.Outcome State Fault Refusal :=
  .next (if (List.range 4).any fun k => (pkOut s k).any fun p => p.src.val == pkId s && p.dst == d then s
    else pkRelease s d)

/-- LANE_SWAP (R445): PK_Lk_CTL with SWAP set. -/
def execLaneSwap (r : Requester) (k : Fin 4) (v : Word) (s : State) : Host.Outcome State Fault Refusal :=
  .next (pkBus s r (R.PK_L_CTL.addr k 0 0) fun s => pkLinkCtl s k (setBits v.toNat 1 1 1))

/-- LANE_SWAP_DONE (R445). -/
def execLaneSwapDone (k : Fin 4) (s : State) : Host.Outcome State Fault Refusal := .next (pkSwapDone s k)

/-- REMOTE_ACCESS_GO (R446): PK_RA0 from Atelier, PK_RA1 from the host. -/
def execRemoteAccessGo (r : Requester) (p : Fin 2) (v : Word) (s : State) : Host.Outcome State Fault Refusal :=
  .next (guardedWrite s r (R.PK_RA_CMD.addr p 0 0) (if p.val = 1 then isHost r else isAtl r)
    fun s => raCmdWrite s p (setBits v.toNat 8 1 1))

/-- REMOTE_ACCESS_DONE (R446): the answer brings a result, and a read's word. -/
def execRemoteAccessDone (p : Fin 2) (result : Fin 4) (v : Word) (s : State) : Host.Outcome State Fault Refusal :=
  .next (if s.on R.PK_RA_STAT_BUSY p then
      raEnd s p result (if result.val = 0 && !s.on R.PK_RA_CMD_WRITE p then some v.toNat else none)
    else s)

/-- REMOTE_ACCESS_TIMEOUT (R446): 1 ms without an answer. -/
def execRemoteAccessTimeout (p : Fin 2) (s : State) : Host.Outcome State Fault Refusal :=
  .next (if s.on R.PK_RA_STAT_BUSY p && tabGet 0 s.pk.raEnd p ≤ s.now then raEnd s p 4 none else s)

/-- REMOTE_DMA_GO (R447): PK_RDc_CTL with GO set. -/
def execRemoteDmaGo (r : Requester) (c : Fin 4) (v : Word) (s : State) : Host.Outcome State Fault Refusal :=
  .next (pkBus s r (R.PK_RD_CTL.addr c 0 0) fun s => rdCtlWrite s c (setBits v.toNat 8 1 1))

/-- REMOTE_DMA_DONE (R447). -/
def execRemoteDmaDone (c : Fin 4) (result : Fin 5) (done : BitVec 24) (data : List Byte) (s : State) :
    Host.Outcome State Fault Refusal := .next (rdDone s c result done.toNat data)

/-- REMOTE_EVENT (R448, R363). -/
def execRemoteEvent (d : Fin 8) (s : State) : Host.Outcome State Fault Refusal := .next (remoteEvent s d)

/-- REMOTE_RESET_REQUEST (R449): PK_RRST with GO set. -/
def execRemoteResetRequest (r : Requester) (v : Word) (s : State) : Host.Outcome State Fault Refusal :=
  .next (pkBus s r (R.PK_RRST.addr 0 0 0) fun s => rrstWrite s (setBits v.toNat 8 1 1))

/-- REMOTE_RESET_RECEIVE (R387, R449). -/
def execRemoteResetReceive (d : Fin 8) (sys : Bool) (s : State) : Host.Outcome State Fault Refusal :=
  .next (resetAsked s d sys)

/-- CLUSTER_TIME_MESSAGE (R450). -/
def execClusterTimeMessage (s : State) : Host.Outcome State Fault Refusal := .next (timeMessage s)

/-- CLUSTER_TIME_RECEIVE (R450): the measurement `e` in 2^-8 ns. -/
def execClusterTimeReceive (e : Word) (s : State) : Host.Outcome State Fault Refusal := .next (clusterTime s e.toNat)

/-- PLINTH_LINK_DOWN (R444). -/
def execPlinthLinkDown (k : Fin 4) (s : State) : Host.Outcome State Fault Refusal :=
  .next (if s.on R.PK_L_STAT_UP k then pkDown s k true else s)

end Sys2Proof.Machine
end

