-- ==== Sys2Proof/Machine/Rasp.lean ====
section
/-! DEFINITION. Meanings of the Rasp units' commands (spec/11). -/
namespace Sys2Proof.Machine

/-- A write of a Rasp register that only Atelier may write (spec/11, "Registers"). -/
def raspBus (s : State) (r : Requester) (a : Nat) (f : State → State) : State := guardedWrite s r a (isAtl r) f

/-- RASP_STEP (R288 to R296). -/
def execRaspStep (u : Fin 16) (pins : BitVec 64) (s : State) : Host.Outcome State Fault Refusal :=
  .next (raspStep s u pins)

/-- RASP_WAIT_END (R291). -/
def execRaspWaitEnd (u : Fin 16) (s : State) : Host.Outcome State Fault Refusal := .next (raspWaitEnd s u)

/-- RASP_STALL_RELEASE (R294). -/
def execRaspStallRelease (u : Fin 16) (s : State) : Host.Outcome State Fault Refusal := .next (raspStallRelease s u)

/-- RASP_FLIP (R296): RASP_u_CTL with FLIP set. -/
def execRaspFlip (r : Requester) (u : Fin 16) (v : Word) (s : State) : Host.Outcome State Fault Refusal :=
  .next (raspBus s r (R.RASP_U_CTL.addr u 0 0) fun s => raspCtlWrite s u (setBits v.toNat 2 1 1))

/-- RASP_TABLE_WRITE (R296). -/
def execRaspTableWrite (r : Requester) (v : Word) (s : State) : Host.Outcome State Fault Refusal :=
  .next (raspBus s r (R.RASP_TW_DATA.addr 0 0 0) fun s => raspTableWrite s v)

/-- RASP_INJECT (R295, R298). -/
def execRaspInject (w : DoneWriter) (u : Fin 16) (v : Word) (s : State) : Host.Outcome State Fault Refusal :=
  match w with
  | .engine e => .next (if raspOwned s e u then raspInject s u v else s.raise R.CE_ERR_IO_RSVD e)
  | .bus r => .next (guardedWrite s r (R.RASP_U_INJ.addr u 0 0) true fun s => if raspMay s r u then raspInject s u v else raspDeny s r)

/-- RASP_GO (R293): RASP_START with GO set. -/
def execRaspGo (r : Requester) (v : Word) (s : State) : Host.Outcome State Fault Refusal :=
  .next (raspBus s r (R.RASP_START.addr 0 0 0) fun s => raspGo s (setBits v.toNat 24 1 1))

/-- RASP_SYNC_START (R293, R17). -/
def execRaspSyncStart (s : State) : Host.Outcome State Fault Refusal := .next (raspSyncStart s)

/-- RASP_DISABLE (R297): RASP_u_CTL with EN clear. -/
def execRaspDisable (r : Requester) (u : Fin 16) (v : Word) (s : State) : Host.Outcome State Fault Refusal :=
  .next (raspBus s r (R.RASP_U_CTL.addr u 0 0) fun s => raspCtlWrite s u (setBits v.toNat 0 1 0))

/-- RASP_DISABLE_TICK (R297). -/
def execRaspDisableTick (u : Fin 16) (s : State) : Host.Outcome State Fault Refusal := .next (raspDisableTick s u)

/-- RASP_PIN_RELEASE (R297). -/
def execRaspPinRelease (u : Fin 16) (s : State) : Host.Outcome State Fault Refusal := .next (raspPinRelease s u)

/-- RASP_PULL_WRITE (R297, R298). -/
def execRaspPullWrite (w : DoneWriter) (u : Fin 16) (v : Word) (s : State) : Host.Outcome State Fault Refusal :=
  match w with
  | .engine e => .next (if raspOwned s e u then raspPull s u v else s.raise R.CE_ERR_IO_RSVD e)
  | .bus r => .next (guardedWrite s r (R.RASP_U_PULL.addr u 0 0) true fun s => if raspMay s r u then raspPull s u v else raspDeny s r)

/-- RASP_PUSH_READ (R297, R298): a requester that may not read it reads 0. -/
def execRaspPushRead (w : DoneWriter) (u : Fin 16) (s : State) : Host.Outcome State Fault Refusal :=
  match w with
  | .engine e =>
    if raspOwned s e u then .next ((raspPush s u).1.answer (raspPush s u).2.toNat)
    else .next ((s.raise R.CE_ERR_IO_RSVD e).answer 0)
  | .bus r => .next (guardedRead s r (R.RASP_U_PUSH.addr u 0 0) fun s =>
      if raspMay s r u then (raspPush s u).1.answer (raspPush s u).2.toNat else raspDeny (s.answer 0) r)

end Sys2Proof.Machine
end

