-- ==== Sys2Proof/Machine/Store.lean ====
section
/-! DEFINITION. Meanings of the Signal Store's commands (spec/02), but for the presentation (see Instants). -/
namespace Sys2Proof.Machine

/-- IW_HANDLE_WRITE (R43, R44, R45). -/
def execIwHandleWrite (e : Fin 48) (slot : Fin 12) (h : BitVec 32) (s : State) : Host.Outcome State Fault Refusal :=
  .next (iwHandle s e slot h)

/-- IW_DATA_WRITE (R41, R43, R45). -/
def execIwDataWrite (e : Fin 48) (slot : Fin 12) (j : Fin 32) (v : Word) (s : State) :
    Host.Outcome State Fault Refusal := .next (iwData s e slot j v)

/-- IW_CLOSE_APPLY (R43, R45). -/
def execIwCloseApply (e : Fin 48) (slot : Fin 12) (s : State) : Host.Outcome State Fault Refusal :=
  .next (iwApply s e slot)

/-- IW_CLOSE_DISCARD (R43, R45). -/
def execIwCloseDiscard (e : Fin 48) (slot : Fin 12) (s : State) : Host.Outcome State Fault Refusal :=
  .next (iwDiscard s e slot)

/-- ITEM_WRITE_ACCEPT (R32, R33, R42, R43): nothing happens when the writer has no write waiting, another write of its engine is
older, another requester goes first, or its turn cannot have come. -/
def execItemWriteAccept (w : Writer) (s : State) : Host.Outcome State Fault Refusal := .next (portRound s w)

/-- CG_DONE (R53 to R55): from an engine's item window, or a write of SS_CG_DONE. -/
def execCgDone (w : DoneWriter) (g : Fin 256) (tag : BitVec 8) (s : State) : Host.Outcome State Fault Refusal :=
  match w with
  | .engine _ => .next (cgDone s w g tag.toNat)
  | .bus r => .next (guardedWrite s r (R.SS_CG_DONE.addr g 0 0) true fun s => cgDone s w g tag.toNat)

/-- COMMIT_COMMAND (R48): from an engine's item window, or a write of 1 to SS_CG_CMT. -/
def execCommitCommand (w : DoneWriter) (g : Fin 256) (s : State) : Host.Outcome State Fault Refusal :=
  match w with
  | .engine _ => .next (cgCommand s g)
  | .bus r => .next (guardedWrite s r (R.SS_CG_CMT.addr g 0 0) true fun s => cgCommand s g)

/-- CUT (R47, R50, R491): nothing happens while no trigger waits or a commit of the group is under way. -/
def execCut (g : Fin 256) (s : State) : Host.Outcome State Fault Refusal := .next (cgCut s g)

/-- COMMIT_PROCESSING (R47, R49, R59): the group at the head of the commit unit's queue. -/
def execCommitProcessing (g : Fin 256) (s : State) : Host.Outcome State Fault Refusal := .next (cgProcess s g)

/-- REMOTE_WRITE (R61). -/
def execRemoteWrite (dev : Fin 8) (ws : List RemoteItem) (s : State) : Host.Outcome State Fault Refusal :=
  .next (remoteArrives s dev ws)

/-- IMAGE_ECC_ERROR (R64): which image holds the word does not matter to the items that touch it. -/
def execImageEccError (_img : Fin 3) (word : Fin 81920) (s : State) : Host.Outcome State Fault Refusal :=
  .next (imageEcc s word)

/-- IND_READ (R492). -/
def execIndRead (r : Requester) (s : State) : Host.Outcome State Fault Refusal :=
  .next (guardedWrite s r (R.SS_IND_CMD.addr 0 0 0) true indRead)

/-- IND_WRITE (R492): from Atelier only. -/
def execIndWrite (r : Requester) (s : State) : Host.Outcome State Fault Refusal :=
  .next (guardedWrite s r (R.SS_IND_CMD.addr 0 0 0) (isAtl r) indWrite)

/-- The base address of a write port: SS_AWR, or SS_HWR. -/
def wrPortBase (awr : Bool) : Nat := if awr then R.SS_AWR_HANDLE.base else R.SS_HWR_HANDLE.base

/-- A write of a write port by a requester: SS_AWR from Atelier only (spec/02, "Registers"). -/
def wrPortBus (s : State) (r : Requester) (awr : Bool) (off : Nat) (v : Word) : State :=
  guardedWrite s r (wrPortBase awr + off) (!awr || isAtl r) fun s => wrPortWrite s awr off v

/-- WRITE_PORT_HANDLE (R493). -/
def execWritePortHandle (r : Requester) (awr : Bool) (v : Word) (s : State) : Host.Outcome State Fault Refusal :=
  .next (wrPortBus s r awr 0 v)

/-- WRITE_PORT_DATA (R493). -/
def execWritePortData (r : Requester) (awr : Bool) (j : Fin 32) (v : Word) (s : State) :
    Host.Outcome State Fault Refusal := .next (wrPortBus s r awr (0x80 + 4 * j) v)

/-- WRITE_PORT_APPLY (R493): CTL takes 0b01. -/
def execWritePortApply (r : Requester) (awr : Bool) (s : State) : Host.Outcome State Fault Refusal :=
  .next (wrPortBus s r awr 4 1)

/-- WRITE_PORT_DISCARD (R493): CTL takes 0b10. -/
def execWritePortDiscard (r : Requester) (awr : Bool) (s : State) : Host.Outcome State Fault Refusal :=
  .next (wrPortBus s r awr 4 2)

end Sys2Proof.Machine
end

