-- ==== Sys2Proof/Machine/Switch.lean ====
section
/-! DEFINITION. Meanings of the commands of the ports and the switch core (spec/08, R13). -/
namespace Sys2Proof.Machine

/-- A write of MAC_CTL by a requester, its STATE field as the command says (R216 to R218); only Atelier may. -/
def macCtlBus (s : State) (r : Requester) (p st v : Nat) : State :=
  guardedWrite s r (R.MAC_CTL.addr p 0 0) (isAtl r) fun s => macCtlWrite s p (setBits v 0 2 st)

/-- PORT_ENABLE (R216). -/
def execPortEnable (r : Requester) (p : Fin 24) (v : Word) (s : State) : Host.Outcome State Fault Refusal :=
  .next (macCtlBus s r p 1 v.toNat)

/-- PORT_DISABLE (R217). -/
def execPortDisable (r : Requester) (p : Fin 24) (v : Word) (s : State) : Host.Outcome State Fault Refusal :=
  .next (macCtlBus s r p 0 v.toNat)

/-- PORT_SLEEP (R218). -/
def execPortSleep (r : Requester) (p : Fin 24) (v : Word) (s : State) : Host.Outcome State Fault Refusal :=
  .next (macCtlBus s r p 2 v.toNat)

/-- LINK_UP (R212, R213, R216). -/
def execLinkUp (p : Fin 24) (speed : Fin 5) (half : Bool) (s : State) : Host.Outcome State Fault Refusal :=
  .next (linkUp s p speed half)

/-- LINK_DOWN (R216, R217). -/
def execLinkDown (p : Fin 24) (s : State) : Host.Outcome State Fault Refusal := .next (linkDown s p)

/-- WAKE_MATCH (R218). -/
def execWakeMatch (p : Fin 24) (f : List Byte) (s : State) : Host.Outcome State Fault Refusal := .next (wakeMatch s p f)

/-- PAUSE_FRAME (R219, R221). -/
def execPauseFrame (p : Fin 24) (pfc : Bool) (en : BitVec 8) (quanta : List (BitVec 16)) (s : State) :
    Host.Outcome State Fault Refusal := .next (pauseFrame s p pfc en.toNat quanta)

/-- PAUSE_END (R219). -/
def execPauseEnd (p : Fin 24) (c : Fin 8) (s : State) : Host.Outcome State Fault Refusal := .next (pauseEnd s p c)

/-- PAUSE_WATCHDOG_TRIP (R221). -/
def execPauseWatchdogTrip (p : Fin 24) (s : State) : Host.Outcome State Fault Refusal := .next (pauseTrip s p)

/-- PAUSE_WATCHDOG_RECOVER (R221). -/
def execPauseWatchdogRecover (p : Fin 24) (s : State) : Host.Outcome State Fault Refusal := .next (pauseRecover s p)

/-- PREEMPT_VERIFY (R222). -/
def execPreemptVerify (p : Fin 24) (ok : Bool) (s : State) : Host.Outcome State Fault Refusal :=
  .next (preemptVerify s p ok)

/-- INGRESS_FRAME (R214, R222 to R228, R240 to R242). -/
def execIngressFrame (p : Fin 30) (ext : Fin 24) (f : WholeFrame) (s : State) :
    Host.Outcome State Fault Refusal := .next (frameArrives s p ext f.frag f.bytes)

/-- FDB_AGE_OUT (R224). -/
def execFdbAgeOut (i : Fin 32768) (s : State) : Host.Outcome State Fault Refusal := .next (fdbAgeOut s i)

/-- EGRESS_FRAME_START (R222, R231, R236, R237, R239, R242). -/
def execEgressFrameStart (p : Fin 30) (c : Fin 8) (s : State) : Host.Outcome State Fault Refusal :=
  .next (frameLeaves s p c)

/-- GATE_ENTRY (R235). -/
def execGateEntry (p : Fin 24) (s : State) : Host.Outcome State Fault Refusal := .next (gateStep s p)

/-- GATE_LIST_CHANGE (R238). -/
def execGateListChange (p : Fin 24) (s : State) : Host.Outcome State Fault Refusal := .next (gclChange s p)

/-- FRER_RESET_TIMEOUT (R241). -/
def execFrerResetTimeout (i : Fin 512) (s : State) : Host.Outcome State Fault Refusal := .next (frerTimeout s i)

/-- A write of SW_IND_CMD by a requester (R223); only Atelier may. -/
def swIndBus (s : State) (r : Requester) (f : State → State) : State :=
  guardedWrite s r (R.SW_IND_CMD.addr 0 0 0) (isAtl r) f

/-- SW_IND_READ (R223, "Indirect entries"). -/
def execSwIndRead (r : Requester) (s : State) : Host.Outcome State Fault Refusal := .next (swIndBus s r swIndRead)

/-- SW_IND_WRITE (R223, "Indirect entries"). -/
def execSwIndWrite (r : Requester) (s : State) : Host.Outcome State Fault Refusal := .next (swIndBus s r swIndWrite)

/-- FDB_INSERT (R223, R224). -/
def execFdbInsert (r : Requester) (s : State) : Host.Outcome State Fault Refusal := .next (swIndBus s r fdbInsert)

/-- FDB_DELETE (R223). -/
def execFdbDelete (r : Requester) (s : State) : Host.Outcome State Fault Refusal := .next (swIndBus s r fdbDelete)

/-- FDB_LOOKUP (R223). -/
def execFdbLookup (r : Requester) (s : State) : Host.Outcome State Fault Refusal := .next (swIndBus s r fdbLookup)

/-- RECEIVE_FIFO_OVERFLOW (R13). -/
def execReceiveFifoOverflow (p : Fin 24) (s : State) : Host.Outcome State Fault Refusal := .next (rxOverflow s p)

/-- TRANSMIT_FIFO_UNDERRUN (R13). -/
def execTransmitFifoUnderrun (p : Fin 24) (s : State) : Host.Outcome State Fault Refusal := .next (txUnderrun s p)

end Sys2Proof.Machine
end

