-- ==== Sys2Proof/Machine/Time.lean ====
section
/-! DEFINITION. Meanings of the timebase's commands (spec/06), but for INSTANT (see Instants). -/
namespace Sys2Proof.Machine

/-- A write of a timebase register: from Atelier and Armature only (spec/06, "Registers"). -/
def timeBus (s : State) (r : Requester) (a : Nat) (f : State → State) : State :=
  guardedWrite s r a (isAtl r || isArm r) f

/-- XREF is lost (R161): holdover, and from there a phase-continuous change to ALTREF where that is enabled and valid. -/
def refLost (s : State) (altref : Bool) : State :=
  altSeen (((s.clr R.TB_STAT_XREF_OK).raise R.TB_EVT_REF_LOSS).raise R.TB_STAT_HOLDOVER) altref

/-- REF_LOSS (R161): XREF has no edge for 400 ns, after it had. -/
def execRefLoss (altref : Bool) (s : State) : Host.Outcome State Fault Refusal :=
  .next (if s.on R.TB_STAT_XREF_OK then refLost s altref else s)

/-- REF_REVERT (R161): an XREF that was lost shows edges again; once it has for 1 s, the PLL returns to it under REVERT. -/
def execRefRevert (s : State) : Host.Outcome State Fault Refusal :=
  .next (if s.on R.TB_STAT_XREF_OK then refTrack s
    else { s.raise R.TB_STAT_XREF_OK with time := { s.time with xrefAt := s.now } })

/-- The PLL locks (R160) once the reset is released (R397): FRC starts at 0. -/
def pllLock (s : State) : State :=
  if s.on R.TB_STAT_LOCK || inReset s then s
  else { (s.raise R.TB_STAT_LOCK).raise R.TB_STAT_XREF_OK with time := { s.time with frc := 0, xrefAt := s.now } }

/-- PLL_LOCK (R160). -/
def execPllLock (s : State) : Host.Outcome State Fault Refusal := .next (pllLock s)

/-- FRC_READ (R162). -/
def execFrcRead (r : Requester) (s : State) : Host.Outcome State Fault Refusal :=
  .next (guardedRead s r (R.TB_FRC_LO.addr 0 0 0) fun s => frcRead s r)

/-- TB_SNAP (R165): from the host too. -/
def execTbSnap (r : Requester) (s : State) : Host.Outcome State Fault Refusal :=
  .next (guardedWrite s r (R.TB_SNAP.addr 0 0 0) (isAtl r || isArm r || isHost r) tbSnap)

/-- DOMAIN_LOAD (R164, R172, R175, R178). -/
def execDomainLoad (r : Requester) (d : Fin 2) (s : State) : Host.Outcome State Fault Refusal :=
  .next (timeBus s r (R.TB_D_LOAD.addr d 0 0) fun s => domLoad s d)

/-- DOMAIN_ADJ (R164, R172, R175, R178). -/
def execDomainAdj (r : Requester) (d : Fin 2) (v : Word) (s : State) : Host.Outcome State Fault Refusal :=
  .next (timeBus s r (R.TB_D_ADJ.addr d 0 0) fun s => domAdj s d v.toNat)

/-- MEAS_WRITE (R171, R172, R175). -/
def execMeasWrite (r : Requester) (d : Fin 2) (v : Word) (s : State) : Host.Outcome State Fault Refusal :=
  .next (timeBus s r (R.TB_D_MEAS.addr d 0 0) fun s => measWrite s d v.toNat)

/-- ACQ (R172, R175): TB_Dd_CTL with ACQ set. -/
def execAcq (r : Requester) (d : Fin 2) (v : Word) (s : State) : Host.Outcome State Fault Refusal :=
  .next (timeBus s r (R.TB_D_CTL.addr d 0 0) fun s => domCtlWrite s d (setBits v.toNat 4 1 1))

/-- WALK_GO (R174): TB_WALK_CTL with GO set. -/
def execWalkGo (r : Requester) (v : Word) (s : State) : Host.Outcome State Fault Refusal :=
  .next (timeBus s r (R.TB_WALK_CTL.addr 0 0 0) fun s => walkCtlWrite s (setBits v.toNat 0 1 1))

/-- WALK_DONE (R174). -/
def execWalkDone (s : State) : Host.Outcome State Fault Refusal := .next (walkDone s)

/-- IG_ENABLE (R177): TB_IGn_CTL with EN set. -/
def execIgEnable (r : Requester) (n : Fin 32) (v : Word) (s : State) : Host.Outcome State Fault Refusal :=
  .next (timeBus s r (R.TB_IG_CTL.addr n 0 0) fun s => igCtlWrite s n (setBits v.toNat 0 1 1))

/-- IG_DISABLE (R177): TB_IGn_CTL with EN clear. -/
def execIgDisable (r : Requester) (n : Fin 32) (v : Word) (s : State) : Host.Outcome State Fault Refusal :=
  .next (timeBus s r (R.TB_IG_CTL.addr n 0 0) fun s => igCtlWrite s n (setBits v.toNat 0 1 0))

/-- IG_UPDATE (R177): TB_IGn_CTL with UPD set. -/
def execIgUpdate (r : Requester) (n : Fin 32) (v : Word) (s : State) : Host.Outcome State Fault Refusal :=
  .next (timeBus s r (R.TB_IG_CTL.addr n 0 0) fun s => igCtlWrite s n (setBits v.toNat 5 1 1))

/-- SYNC_PIN_CONFIG (R179): a write of TB_IGn_CTL that changes PIN_EN and POL alone. -/
def execSyncPinConfig (r : Requester) (n : Fin 4) (en pol : Bool) (s : State) : Host.Outcome State Fault Refusal :=
  .next (timeBus s r (R.TB_IG_CTL.addr n 0 0) fun s =>
    igCtlWrite s n (setBits (setBits (s.rd R.TB_IG_CTL n) 3 1 (bit01 en)) 4 1 (bit01 pol)))

/-- SYNC_PULSE_END (R179). -/
def execSyncPulseEnd (n : Fin 4) (s : State) : Host.Outcome State Fault Refusal := .next (syncEnd s n)

/-- TSF_POP (R169): from the host too. -/
def execTsfPop (r : Requester) (s : State) : Host.Outcome State Fault Refusal :=
  .next (guardedWrite s r (R.TB_TSF_POP.addr 0 0 0) (isAtl r || isArm r || isHost r) tsfPop)

/-- ENGINE_TIME_READ (R181). -/
def execEngineTimeRead (e : Fin 48) (s : State) : Host.Outcome State Fault Refusal := .next (engTimeRead s e)

/-- SLOT_CONFIG (R181). -/
def execSlotConfig (e : Fin 48) (k : Fin 8) (v : Word) (s : State) : Host.Outcome State Fault Refusal :=
  .next (slotConfig s e k v.toNat)

/-- SLOT_ARM (R181). -/
def execSlotArm (e : Fin 48) (k : Fin 8) (v : Word) (s : State) : Host.Outcome State Fault Refusal :=
  .next (slotArm s e k v)

/-- SLOT_FIRE (R181). -/
def execSlotFire (e : Fin 48) (k : Fin 8) (s : State) : Host.Outcome State Fault Refusal := .next (slotFire s e k)

end Sys2Proof.Machine
end

