-- ==== Sys2Proof/Machine/Dispatch.lean ====
section
/-! DEFINITION. One arm per command of the table: each calls the command's meaning. -/
namespace Sys2Proof.Machine

/-- The effect of a command on everything but the queue of waiting commands. -/
def exec (i : Instr) (s : State) : Host.Outcome State Fault Refusal :=
  match i with
  | .registerWrite r w a v => Sys2Proof.Machine.execRegisterWrite r w a v s
  | .addressError r wr a => Sys2Proof.Machine.execAddressError r wr a s
  | .receiveFifoOverflow p => Sys2Proof.Machine.execReceiveFifoOverflow p s
  | .transmitFifoUnderrun p => Sys2Proof.Machine.execTransmitFifoUnderrun p s
  | .instant n => Sys2Proof.Machine.execInstant n s
  | .starvationGrant arb asking first => Sys2Proof.Machine.execStarvationGrant arb asking first s
  | .iwHandleWrite e slot h => Sys2Proof.Machine.execIwHandleWrite e slot h s
  | .iwDataWrite e slot j v => Sys2Proof.Machine.execIwDataWrite e slot j v s
  | .iwCloseApply e slot => Sys2Proof.Machine.execIwCloseApply e slot s
  | .iwCloseDiscard e slot => Sys2Proof.Machine.execIwCloseDiscard e slot s
  | .itemWriteAccept w => Sys2Proof.Machine.execItemWriteAccept w s
  | .cgDone w g tag => Sys2Proof.Machine.execCgDone w g tag s
  | .commitCommand w g => Sys2Proof.Machine.execCommitCommand w g s
  | .cut g => Sys2Proof.Machine.execCut g s
  | .commitProcessing g => Sys2Proof.Machine.execCommitProcessing g s
  | .presentation g => Sys2Proof.Machine.execPresentation g s
  | .remoteWrite dev ws => Sys2Proof.Machine.execRemoteWrite dev ws s
  | .imageEccError img word => Sys2Proof.Machine.execImageEccError img word s
  | .indRead r => Sys2Proof.Machine.execIndRead r s
  | .indWrite r => Sys2Proof.Machine.execIndWrite r s
  | .writePortHandle r awr v => Sys2Proof.Machine.execWritePortHandle r awr v s
  | .writePortData r awr j v => Sys2Proof.Machine.execWritePortData r awr j v s
  | .writePortApply r awr => Sys2Proof.Machine.execWritePortApply r awr s
  | .writePortDiscard r awr => Sys2Proof.Machine.execWritePortDiscard r awr s
  | .engineStart r e v => Sys2Proof.Machine.execEngineStart r e v s
  | .startpendStart e => Sys2Proof.Machine.execStartpendStart e s
  | .engineStop r e v => Sys2Proof.Machine.execEngineStop r e v s
  | .stopHalt e => Sys2Proof.Machine.execStopHalt e s
  | .slackClear r e => Sys2Proof.Machine.execSlackClear r e s
  | .jobMark e k => Sys2Proof.Machine.execJobMark e k s
  | .loaderDataWrite r v => Sys2Proof.Machine.execLoaderDataWrite r v s
  | .loaderDataRead r => Sys2Proof.Machine.execLoaderDataRead r s
  | .loaderZero r v => Sys2Proof.Machine.execLoaderZero r v s
  | .loaderZeroDone => Sys2Proof.Machine.execLoaderZeroDone s
  | .spliceEntryPush e b v => Sys2Proof.Machine.execSpliceEntryPush e b v s
  | .spliceFlush e b => Sys2Proof.Machine.execSpliceFlush e b s
  | .frameReceive p f sof eof => Sys2Proof.Machine.execFrameReceive p f sof eof s
  | .txdAppend e b v => Sys2Proof.Machine.execTxdAppend e b v s
  | .txcWrite e b v => Sys2Proof.Machine.execTxcWrite e b v s
  | .scheduledFrameStart e b => Sys2Proof.Machine.execScheduledFrameStart e b s
  | .migrationGo r v => Sys2Proof.Machine.execMigrationGo r v s
  | .precopyDone => Sys2Proof.Machine.execPrecopyDone s
  | .migrationGap => Sys2Proof.Machine.execMigrationGap s
  | .migrationResume => Sys2Proof.Machine.execMigrationResume s
  | .migrationCancel r v => Sys2Proof.Machine.execMigrationCancel r v s
  | .engineEccError e at_ corrected => Sys2Proof.Machine.execEngineEccError e at_ corrected s
  | .maquettePlayFrame p k => Sys2Proof.Machine.execMaquettePlayFrame p k s
  | .add e wd wa wb => Sys2Proof.Machine.execAdd e wd wa wb s
  | .adc e wd wa wb => Sys2Proof.Machine.execAdc e wd wa wb s
  | .sub e wd wa wb => Sys2Proof.Machine.execSub e wd wa wb s
  | .sbc e wd wa wb => Sys2Proof.Machine.execSbc e wd wa wb s
  | .cmp e wa wb => Sys2Proof.Machine.execCmp e wa wb s
  | .and e wd wa wb => Sys2Proof.Machine.execAnd e wd wa wb s
  | .or e wd wa wb => Sys2Proof.Machine.execOr e wd wa wb s
  | .xor e wd wa wb => Sys2Proof.Machine.execXor e wd wa wb s
  | .andn e wd wa wb => Sys2Proof.Machine.execAndn e wd wa wb s
  | .tst e wa wb => Sys2Proof.Machine.execTst e wa wb s
  | .shl e wd wa wb => Sys2Proof.Machine.execShl e wd wa wb s
  | .shr e wd wa wb => Sys2Proof.Machine.execShr e wd wa wb s
  | .sar e wd wa wb => Sys2Proof.Machine.execSar e wd wa wb s
  | .ror e wd wa wb => Sys2Proof.Machine.execRor e wd wa wb s
  | .mul e wd wa wb => Sys2Proof.Machine.execMul e wd wa wb s
  | .mulh e wd wa wb => Sys2Proof.Machine.execMulh e wd wa wb s
  | .mulhu e wd wa wb => Sys2Proof.Machine.execMulhu e wd wa wb s
  | .addi e wd wa imm => Sys2Proof.Machine.execAddi e wd wa imm s
  | .subi e wd wa imm => Sys2Proof.Machine.execSubi e wd wa imm s
  | .cmpi e wa imm => Sys2Proof.Machine.execCmpi e wa imm s
  | .andi e wd wa imm => Sys2Proof.Machine.execAndi e wd wa imm s
  | .ori e wd wa imm => Sys2Proof.Machine.execOri e wd wa imm s
  | .xori e wd wa imm => Sys2Proof.Machine.execXori e wd wa imm s
  | .tsti e wa imm => Sys2Proof.Machine.execTsti e wa imm s
  | .lih e wd imm => Sys2Proof.Machine.execLih e wd imm s
  | .shli e wd wa n => Sys2Proof.Machine.execShli e wd wa n s
  | .shri e wd wa n => Sys2Proof.Machine.execShri e wd wa n s
  | .sari e wd wa n => Sys2Proof.Machine.execSari e wd wa n s
  | .rori e wd wa n => Sys2Proof.Machine.execRori e wd wa n s
  | .ldw e wd wa imm => Sys2Proof.Machine.execLdw e wd wa imm s
  | .ldh e wd wa imm => Sys2Proof.Machine.execLdh e wd wa imm s
  | .ldhs e wd wa imm => Sys2Proof.Machine.execLdhs e wd wa imm s
  | .ldb e wd wa imm => Sys2Proof.Machine.execLdb e wd wa imm s
  | .ldbs e wd wa imm => Sys2Proof.Machine.execLdbs e wd wa imm s
  | .stw e wd wa imm => Sys2Proof.Machine.execStw e wd wa imm s
  | .sth e wd wa imm => Sys2Proof.Machine.execSth e wd wa imm s
  | .stb e wd wa imm => Sys2Proof.Machine.execStb e wd wa imm s
  | .b e cond off => Sys2Proof.Machine.execB e cond off s
  | .bl e cond off => Sys2Proof.Machine.execBl e cond off s
  | .engineNop e => Sys2Proof.Machine.execEngineNop e s
  | .halt e => Sys2Proof.Machine.execHalt e s
  | .wait e wd wa keep all => Sys2Proof.Machine.execWait e wd wa keep all s
  | .waitt e wd wa dom => Sys2Proof.Machine.execWaitt e wd wa dom s
  | .evs e wa line => Sys2Proof.Machine.execEvs e wa line s
  | .jr e wa => Sys2Proof.Machine.execJr e wa s
  | .jalr e wd wa => Sys2Proof.Machine.execJalr e wd wa s
  | .crcb e wd wa wb poly n => Sys2Proof.Machine.execCrcb e wd wa wb poly n s
  | .bfx e wd wa sx w pos => Sys2Proof.Machine.execBfx e wd wa sx w pos s
  | .bfxr e wd wa wb sx w => Sys2Proof.Machine.execBfxr e wd wa wb sx w s
  | .bfi e wd wa w byReg pos => Sys2Proof.Machine.execBfi e wd wa w byReg pos s
  | .ioIn e wd io idx => Sys2Proof.Machine.execIoIn e wd io idx s
  | .ioInw e wd io idx => Sys2Proof.Machine.execIoInw e wd io idx s
  | .ioOut e wd io idx => Sys2Proof.Machine.execIoOut e wd io idx s
  | .ioOutw e wd io idx => Sys2Proof.Machine.execIoOutw e wd io idx s
  | .undefinedInstruction e => Sys2Proof.Machine.execUndefinedInstruction e s
  | .ioWriteDelivery e => Sys2Proof.Machine.execIoWriteDelivery e s
  | .waitComplete e => Sys2Proof.Machine.execWaitComplete e s
  | .waittComplete e => Sys2Proof.Machine.execWaittComplete e s
  | .inwComplete e => Sys2Proof.Machine.execInwComplete e s
  | .outwComplete e => Sys2Proof.Machine.execOutwComplete e s
  | .packVerified => Sys2Proof.Machine.execPackVerified s
  | .instanceStopped ix => Sys2Proof.Machine.execInstanceStopped ix s
  | .cyclicFrameOriginate ix => Sys2Proof.Machine.execCyclicFrameOriginate ix s
  | .cyclicFrameReceive ix f age => Sys2Proof.Machine.execCyclicFrameReceive ix f age s
  | .starRelayStart ix n f sfd long => Sys2Proof.Machine.execStarRelayStart ix n f sfd long s
  | .bypass ix => Sys2Proof.Machine.execBypass ix s
  | .lostCycle ix => Sys2Proof.Machine.execLostCycle ix s
  | .branchReturnTimeout ix n => Sys2Proof.Machine.execBranchReturnTimeout ix n s
  | .quarantineSilence ix n => Sys2Proof.Machine.execQuarantineSilence ix n s
  | .delayReq ix n f age => Sys2Proof.Machine.execDelayReq ix n f age s
  | .delayResp ix f age => Sys2Proof.Machine.execDelayResp ix f age s
  | .acyclicFrame ix n f age => Sys2Proof.Machine.execAcyclicFrame ix n f age s
  | .listenTimeout ix => Sys2Proof.Machine.execListenTimeout ix s
  | .coldstartFrame ix n f age => Sys2Proof.Machine.execColdstartFrame ix n f age s
  | .coldstartDecision ix => Sys2Proof.Machine.execColdstartDecision ix s
  | .coldstartRelayReceive ix f => Sys2Proof.Machine.execColdstartRelayReceive ix f s
  | .coldstartTimeout ix => Sys2Proof.Machine.execColdstartTimeout ix s
  | .netListen ix => Sys2Proof.Machine.execNetListen ix s
  | .leaderReturnTimeout ix => Sys2Proof.Machine.execLeaderReturnTimeout ix s
  | .refLoss altref => Sys2Proof.Machine.execRefLoss altref s
  | .refRevert => Sys2Proof.Machine.execRefRevert s
  | .pllLock => Sys2Proof.Machine.execPllLock s
  | .frcRead r => Sys2Proof.Machine.execFrcRead r s
  | .tbSnap r => Sys2Proof.Machine.execTbSnap r s
  | .domainLoad r d => Sys2Proof.Machine.execDomainLoad r d s
  | .domainAdj r d v => Sys2Proof.Machine.execDomainAdj r d v s
  | .measWrite r d v => Sys2Proof.Machine.execMeasWrite r d v s
  | .acq r d v => Sys2Proof.Machine.execAcq r d v s
  | .walkGo r v => Sys2Proof.Machine.execWalkGo r v s
  | .walkDone => Sys2Proof.Machine.execWalkDone s
  | .igEnable r n v => Sys2Proof.Machine.execIgEnable r n v s
  | .igDisable r n v => Sys2Proof.Machine.execIgDisable r n v s
  | .igUpdate r n v => Sys2Proof.Machine.execIgUpdate r n v s
  | .syncPinConfig r n en pol => Sys2Proof.Machine.execSyncPinConfig r n en pol s
  | .syncPulseEnd n => Sys2Proof.Machine.execSyncPulseEnd n s
  | .tsfPop r => Sys2Proof.Machine.execTsfPop r s
  | .engineTimeRead e => Sys2Proof.Machine.execEngineTimeRead e s
  | .slotConfig e k v => Sys2Proof.Machine.execSlotConfig e k v s
  | .slotArm e k v => Sys2Proof.Machine.execSlotArm e k v s
  | .slotFire e k => Sys2Proof.Machine.execSlotFire e k s
  | .portEnable r p v => Sys2Proof.Machine.execPortEnable r p v s
  | .portDisable r p v => Sys2Proof.Machine.execPortDisable r p v s
  | .portSleep r p v => Sys2Proof.Machine.execPortSleep r p v s
  | .linkUp p speed half => Sys2Proof.Machine.execLinkUp p speed half s
  | .linkDown p => Sys2Proof.Machine.execLinkDown p s
  | .wakeMatch p f => Sys2Proof.Machine.execWakeMatch p f s
  | .pauseFrame p pfc en quanta => Sys2Proof.Machine.execPauseFrame p pfc en quanta s
  | .pauseEnd p c => Sys2Proof.Machine.execPauseEnd p c s
  | .pauseWatchdogTrip p => Sys2Proof.Machine.execPauseWatchdogTrip p s
  | .pauseWatchdogRecover p => Sys2Proof.Machine.execPauseWatchdogRecover p s
  | .preemptVerify p ok => Sys2Proof.Machine.execPreemptVerify p ok s
  | .ingressFrame p ext f => Sys2Proof.Machine.execIngressFrame p ext f s
  | .fdbAgeOut ix => Sys2Proof.Machine.execFdbAgeOut ix s
  | .egressFrameStart p c => Sys2Proof.Machine.execEgressFrameStart p c s
  | .gateEntry p => Sys2Proof.Machine.execGateEntry p s
  | .gateListChange p => Sys2Proof.Machine.execGateListChange p s
  | .frerResetTimeout ix => Sys2Proof.Machine.execFrerResetTimeout ix s
  | .swIndRead r => Sys2Proof.Machine.execSwIndRead r s
  | .swIndWrite r => Sys2Proof.Machine.execSwIndWrite r s
  | .fdbInsert r => Sys2Proof.Machine.execFdbInsert r s
  | .fdbDelete r => Sys2Proof.Machine.execFdbDelete r s
  | .fdbLookup r => Sys2Proof.Machine.execFdbLookup r s
  | .txbRequest r n k v => Sys2Proof.Machine.execTxbRequest r n k v s
  | .txbAbort r n k v => Sys2Proof.Machine.execTxbAbort r n k v s
  | .txBufferChoice n => Sys2Proof.Machine.execTxBufferChoice n s
  | .txAttemptEnd n o age => Sys2Proof.Machine.execTxAttemptEnd n o age s
  | .busOffRecover r n v => Sys2Proof.Machine.execBusOffRecover r n v s
  | .busOffRecoveryDone n => Sys2Proof.Machine.execBusOffRecoveryDone n s
  | .canFrameReceive n id fmt af age data => Sys2Proof.Machine.execCanFrameReceive n id fmt af age data s
  | .ttMiss n => Sys2Proof.Machine.execTtMiss n s
  | .canRxPop r n => Sys2Proof.Machine.execCanRxPop r n s
  | .canInitEntry n => Sys2Proof.Machine.execCanInitEntry n s
  | .canTxDataAppend e n k v => Sys2Proof.Machine.execCanTxDataAppend e n k v s
  | .channelConfig r n v => Sys2Proof.Machine.execChannelConfig r n v s
  | .inputEdge n lvl age => Sys2Proof.Machine.execInputEdge n lvl age s
  | .edgePop r => Sys2Proof.Machine.execEdgePop r s
  | .segmentSwap n seg => Sys2Proof.Machine.execSegmentSwap n seg s
  | .segmentSwapDone n => Sys2Proof.Machine.execSegmentSwapDone n s
  | .overload n ma => Sys2Proof.Machine.execOverload n ma s
  | .thermalTrip n => Sys2Proof.Machine.execThermalTrip n s
  | .thermalRestart n => Sys2Proof.Machine.execThermalRestart n s
  | .clrLatch r n => Sys2Proof.Machine.execClrLatch r n s
  | .levelCommand w n lvl => Sys2Proof.Machine.execLevelCommand w n lvl s
  | .scheduleArm r n k v => Sys2Proof.Machine.execScheduleArm r n k v s
  | .scheduleFire n k => Sys2Proof.Machine.execScheduleFire n k s
  | .openWire n => Sys2Proof.Machine.execOpenWire n s
  | .readbackMismatch n => Sys2Proof.Machine.execReadbackMismatch n s
  | .shortLp a => Sys2Proof.Machine.execShortLp a s
  | .crossMismatch a b => Sys2Proof.Machine.execCrossMismatch a b s
  | .sagWarn g mv => Sys2Proof.Machine.execSagWarn g mv s
  | .lockout g mv => Sys2Proof.Machine.execLockout g mv s
  | .lockoutClear r g mv => Sys2Proof.Machine.execLockoutClear r g mv s
  | .lockoutAutoRestore g mv => Sys2Proof.Machine.execLockoutAutoRestore g mv s
  | .groupOverload g ma long => Sys2Proof.Machine.execGroupOverload g ma long s
  | .fieldServicePoll => Sys2Proof.Machine.execFieldServicePoll s
  | .sdciCharacter n tx b => Sys2Proof.Machine.execSdciCharacter n tx b s
  | .wakeUpPulse n level => Sys2Proof.Machine.execWakeUpPulse n level s
  | .holdRelease r => Sys2Proof.Machine.execHoldRelease r s
  | .holdExpiry => Sys2Proof.Machine.execHoldExpiry s
  | .pdClassification => Sys2Proof.Machine.execPdClassification s
  | .pdPowerGood vin => Sys2Proof.Machine.execPdPowerGood vin s
  | .auxSense on_ => Sys2Proof.Machine.execAuxSense on_ s
  | .raspStep u pins => Sys2Proof.Machine.execRaspStep u pins s
  | .raspWaitEnd u => Sys2Proof.Machine.execRaspWaitEnd u s
  | .raspStallRelease u => Sys2Proof.Machine.execRaspStallRelease u s
  | .raspFlip r u v => Sys2Proof.Machine.execRaspFlip r u v s
  | .raspTableWrite r v => Sys2Proof.Machine.execRaspTableWrite r v s
  | .raspInject w u v => Sys2Proof.Machine.execRaspInject w u v s
  | .raspGo r v => Sys2Proof.Machine.execRaspGo r v s
  | .raspSyncStart => Sys2Proof.Machine.execRaspSyncStart s
  | .raspDisable r u v => Sys2Proof.Machine.execRaspDisable r u v s
  | .raspDisableTick u => Sys2Proof.Machine.execRaspDisableTick u s
  | .raspPinRelease u => Sys2Proof.Machine.execRaspPinRelease u s
  | .raspPullWrite w u v => Sys2Proof.Machine.execRaspPullWrite w u v s
  | .raspPushRead w u => Sys2Proof.Machine.execRaspPushRead w u s
  | .hotReset => Sys2Proof.Machine.execHotReset s
  | .pcieLinkTrained speed width bme c => Sys2Proof.Machine.execPcieLinkTrained speed width bme c s
  | .completionTimeout ur r => Sys2Proof.Machine.execCompletionTimeout ur r s
  | .qspiWrite a ws => Sys2Proof.Machine.execQspiWrite a ws s
  | .qspiRead a count => Sys2Proof.Machine.execQspiRead a count s
  | .qspiStatus => Sys2Proof.Machine.execQspiStatus s
  | .badFrame op => Sys2Proof.Machine.execBadFrame op s
  | .qspiAbort part => Sys2Proof.Machine.execQspiAbort part s
  | .hostMailboxWrite r n v => Sys2Proof.Machine.execHostMailboxWrite r n v s
  | .hostMailboxAck r n v => Sys2Proof.Machine.execHostMailboxAck r n v s
  | .atelierMailboxWrite r n v => Sys2Proof.Machine.execAtelierMailboxWrite r n v s
  | .atelierMailboxAck r n v => Sys2Proof.Machine.execAtelierMailboxAck r n v s
  | .hdbSet r v => Sys2Proof.Machine.execHdbSet r v s
  | .hdbClr r v => Sys2Proof.Machine.execHdbClr r v s
  | .adbSet r v => Sys2Proof.Machine.execAdbSet r v s
  | .adbClr r v => Sys2Proof.Machine.execAdbClr r v s
  | .undefinedOpcode n => Sys2Proof.Machine.execUndefinedOpcode n s
  | .hmbNop n => Sys2Proof.Machine.execHmbNop n s
  | .ping n => Sys2Proof.Machine.execPing n s
  | .chOpen n => Sys2Proof.Machine.execChOpen n s
  | .chClose n => Sys2Proof.Machine.execChClose n s
  | .chRefresh n => Sys2Proof.Machine.execChRefresh n s
  | .packLoad n => Sys2Proof.Machine.execPackLoad n s
  | .packUnload n => Sys2Proof.Machine.execPackUnload n s
  | .packStart n => Sys2Proof.Machine.execPackStart n s
  | .packStop n => Sys2Proof.Machine.execPackStop n s
  | .itemSet n => Sys2Proof.Machine.execItemSet n s
  | .itemClear n => Sys2Proof.Machine.execItemClear n s
  | .cgSet n => Sys2Proof.Machine.execCgSet n s
  | .castSet n => Sys2Proof.Machine.execCastSet n s
  | .castClear n => Sys2Proof.Machine.execCastClear n s
  | .portCfg n => Sys2Proof.Machine.execPortCfg n s
  | .swCfg n => Sys2Proof.Machine.execSwCfg n s
  | .timeCfg n => Sys2Proof.Machine.execTimeCfg n s
  | .canCfg n => Sys2Proof.Machine.execCanCfg n s
  | .raspCfg n => Sys2Proof.Machine.execRaspCfg n s
  | .fxCfg n => Sys2Proof.Machine.execFxCfg n s
  | .recordWaitTimeout n => Sys2Proof.Machine.execRecordWaitTimeout n s
  | .fxHoldRel n => Sys2Proof.Machine.execFxHoldRel n s
  | .diagRead n => Sys2Proof.Machine.execDiagRead n s
  | .spareSwapEngine n => Sys2Proof.Machine.execSpareSwapEngine n s
  | .spareSwapBank n => Sys2Proof.Machine.execSpareSwapBank n s
  | .spareSwapLane n => Sys2Proof.Machine.execSpareSwapLane n s
  | .spareSwapSegment n => Sys2Proof.Machine.execSpareSwapSegment n s
  | .spareSwapCore n => Sys2Proof.Machine.execSpareSwapCore n s
  | .fwUpdateBegin n => Sys2Proof.Machine.execFwUpdateBegin n s
  | .fwUpdateWrite n => Sys2Proof.Machine.execFwUpdateWrite n s
  | .fwUpdateCommit n => Sys2Proof.Machine.execFwUpdateCommit n s
  | .fwUpdateAbort n => Sys2Proof.Machine.execFwUpdateAbort n s
  | .attest n => Sys2Proof.Machine.execAttest n s
  | .attestSigned => Sys2Proof.Machine.execAttestSigned s
  | .lcChange n => Sys2Proof.Machine.execLcChange n s
  | .lcChangeDone => Sys2Proof.Machine.execLcChangeDone s
  | .secureWipeDone => Sys2Proof.Machine.execSecureWipeDone s
  | .blockResetDevice n => Sys2Proof.Machine.execBlockResetDevice n s
  | .hostResetPulse => Sys2Proof.Machine.execHostResetPulse s
  | .blockResetEngine n => Sys2Proof.Machine.execBlockResetEngine n s
  | .blockResetPort n => Sys2Proof.Machine.execBlockResetPort n s
  | .blockResetCan n => Sys2Proof.Machine.execBlockResetCan n s
  | .blockResetRasp n => Sys2Proof.Machine.execBlockResetRasp n s
  | .blockResetQueue n => Sys2Proof.Machine.execBlockResetQueue n s
  | .maquette n => Sys2Proof.Machine.execMaquette n s
  | .notification => Sys2Proof.Machine.execNotification s
  | .queueDoorbell w q => Sys2Proof.Machine.execQueueDoorbell w q s
  | .descriptorFetch q => Sys2Proof.Machine.execDescriptorFetch q s
  | .dmaCopy q => Sys2Proof.Machine.execDmaCopy q s
  | .dmaFill q => Sys2Proof.Machine.execDmaFill q s
  | .dmaCompare q => Sys2Proof.Machine.execDmaCompare q s
  | .burstGrant => Sys2Proof.Machine.execBurstGrant s
  | .dmaAgingGrant => Sys2Proof.Machine.execDmaAgingGrant s
  | .burstComplete q ix => Sys2Proof.Machine.execBurstComplete q ix s
  | .descriptorReturn q => Sys2Proof.Machine.execDescriptorReturn q s
  | .rqTailWrite r q v => Sys2Proof.Machine.execRqTailWrite r q v s
  | .queueDisable r q v => Sys2Proof.Machine.execQueueDisable r q v s
  | .queueResume r q v => Sys2Proof.Machine.execQueueResume r q v s
  | .eventSignal n => Sys2Proof.Machine.execEventSignal n s
  | .softwareEvent r v => Sys2Proof.Machine.execSoftwareEvent r v s
  | .eventClaim r t n => Sys2Proof.Machine.execEventClaim r t n s
  | .eventEoi r t n => Sys2Proof.Machine.execEventEoi r t n s
  | .eventMask r w v => Sys2Proof.Machine.execEventMask r w v s
  | .maskFence r => Sys2Proof.Machine.execMaskFence r s
  | .eventRetarget r n v => Sys2Proof.Machine.execEventRetarget r n v s
  | .fallbackMove n => Sys2Proof.Machine.execFallbackMove n s
  | .bankEccError b word err => Sys2Proof.Machine.execBankEccError b word err s
  | .scrubWord err => Sys2Proof.Machine.execScrubWord err s
  | .testWindow b => Sys2Proof.Machine.execTestWindow b s
  | .testWindowRestore fail => Sys2Proof.Machine.execTestWindowRestore fail s
  | .bankPowerRequest r b v => Sys2Proof.Machine.execBankPowerRequest r b v s
  | .bankPowerOn b => Sys2Proof.Machine.execBankPowerOn b s
  | .bankRemapGo r v => Sys2Proof.Machine.execBankRemapGo r v s
  | .bankRemapDone => Sys2Proof.Machine.execBankRemapDone s
  | .memoryReady => Sys2Proof.Machine.execMemoryReady s
  | .supplyMonitorTrip r mv => Sys2Proof.Machine.execSupplyMonitorTrip r mv s
  | .supplyGood mvs => Sys2Proof.Machine.execSupplyGood mvs s
  | .porstNLow len => Sys2Proof.Machine.execPorstNLow len s
  | .sysrstNLow len => Sys2Proof.Machine.execSysrstNLow len s
  | .resetRelease => Sys2Proof.Machine.execResetRelease s
  | .atelierWatchdogExpiry => Sys2Proof.Machine.execAtelierWatchdogExpiry s
  | .awdKick r => Sys2Proof.Machine.execAwdKick r s
  | .armatureWatchdogExpiry => Sys2Proof.Machine.execArmatureWatchdogExpiry s
  | .bootImageReadDone => Sys2Proof.Machine.execBootImageReadDone s
  | .bootVerifyDone => Sys2Proof.Machine.execBootVerifyDone s
  | .atlReady => Sys2Proof.Machine.execAtlReady s
  | .hbootLengthWrite r v => Sys2Proof.Machine.execHbootLengthWrite r v s
  | .tamper k => Sys2Proof.Machine.execTamper k s
  | .debugChallenge => Sys2Proof.Machine.execDebugChallenge s
  | .debugUnlock t => Sys2Proof.Machine.execDebugUnlock t s
  | .wearRound k paces => Sys2Proof.Machine.execWearRound k paces s
  | .epochEnd => Sys2Proof.Machine.execEpochEnd s
  | .baselineCapture => Sys2Proof.Machine.execBaselineCapture s
  | .lifeRecordWrite => Sys2Proof.Machine.execLifeRecordWrite s
  | .spareRequestRepeat k n => Sys2Proof.Machine.execSpareRequestRepeat k n s
  | .substitutionRetry => Sys2Proof.Machine.execSubstitutionRetry s
  | .telemetrySnapshot tHi tLo rows ce => Sys2Proof.Machine.execTelemetrySnapshot tHi tLo rows ce s
  | .phyTrim p v inRange => Sys2Proof.Machine.execPhyTrim p v inRange s
  | .adcOffsetCalibration v inRange => Sys2Proof.Machine.execAdcOffsetCalibration v inRange s
  | .temperatureSensorCheck t => Sys2Proof.Machine.execTemperatureSensorCheck t s
  | .oscillatorDrift altref inRange => Sys2Proof.Machine.execOscillatorDrift altref inRange s
  | .plinthLinkTrained k id size link delay => Sys2Proof.Machine.execPlinthLinkTrained k id size link delay s
  | .laneFailure k lane => Sys2Proof.Machine.execLaneFailure k lane s
  | .packetReceive k acked crcOk p => Sys2Proof.Machine.execPacketReceive k acked crcOk p s
  | .packetResend k => Sys2Proof.Machine.execPacketResend k s
  | .linkStateFlood d w => Sys2Proof.Machine.execLinkStateFlood d w s
  | .routeHoldEnd d => Sys2Proof.Machine.execRouteHoldEnd d s
  | .laneSwap r k v => Sys2Proof.Machine.execLaneSwap r k v s
  | .laneSwapDone k => Sys2Proof.Machine.execLaneSwapDone k s
  | .remoteAccessGo r p v => Sys2Proof.Machine.execRemoteAccessGo r p v s
  | .remoteAccessDone p result v => Sys2Proof.Machine.execRemoteAccessDone p result v s
  | .remoteAccessTimeout p => Sys2Proof.Machine.execRemoteAccessTimeout p s
  | .remoteDmaGo r c v => Sys2Proof.Machine.execRemoteDmaGo r c v s
  | .remoteDmaDone c result done data => Sys2Proof.Machine.execRemoteDmaDone c result done data s
  | .remoteEvent d => Sys2Proof.Machine.execRemoteEvent d s
  | .remoteResetRequest r v => Sys2Proof.Machine.execRemoteResetRequest r v s
  | .remoteResetReceive d sys => Sys2Proof.Machine.execRemoteResetReceive d sys s
  | .clusterTimeMessage => Sys2Proof.Machine.execClusterTimeMessage s
  | .clusterTimeReceive e => Sys2Proof.Machine.execClusterTimeReceive e s
  | .ecoStep => Sys2Proof.Machine.execEcoStep s
  | .budgetStep mw => Sys2Proof.Machine.execBudgetStep mw s
  | .vcoreSlew => Sys2Proof.Machine.execVcoreSlew s
  | .avsFailure => Sys2Proof.Machine.execAvsFailure s
  | .budgetWrite r v => Sys2Proof.Machine.execBudgetWrite r v s
  | .storeReady => Sys2Proof.Machine.execStoreReady s
  | .sagWarnClear g mv => Sys2Proof.Machine.execSagWarnClear g mv s
  | .pdPowerLoss => Sys2Proof.Machine.execPdPowerLoss s
  | .plinthLinkDown k => Sys2Proof.Machine.execPlinthLinkDown k s
  | .canBusError n tec rec_ => Sys2Proof.Machine.execCanBusError n tec rec_ s

end Sys2Proof.Machine
end

