-- ==== Sys2Proof/Machine/Tick.lean ====
section
/-! DEFINITION. What a nanosecond in which no command waits brings (DESIGN CHOICE): credit grows (R239), the timebase counts,
free wires take the frames that wait for them, field levels are applied at their ticks (R270), messages leave over the Plinth links, Frieze nodes capture their inputs and use their mini-slots, WAIT records are polled, Patina looks at its WORN units where a substitution has ended, and every 1,024 µs each running engine's pace is measured again. -/
namespace Sys2Proof.Machine

/-- The pace of an engine over the last 1,024 µs: measured (spec/03, "Cycles, slack and pace"), so a free value; the freeze estimate follows it (R88). -/
def paceTaken (s : State) (e : Nat) : State :=
  let r := s.draw 16
  showDirty (r.2.put R.CE_PACE_V r.1.toNat e) e

/-- The paces of the running engines are due every 1,024 µs. -/
def paceTick (s : State) : State :=
  if s.now % 1024000 = 0 then (numsWhere 48 (engActive s)).foldl paceTaken s else s

/-- The nodes of an instance that has no cycle generator are looked at once in 1,024 µs (R159). DESIGN CHOICE -/
def nodesTick (s : State) : State :=
  if s.now % 1024000 = 0 then (instWhere s fun x => x.st != 0 && x.cycs.isEmpty && x.code != 0x0C).foldl instSeen s else s

/-- WAIT records are polled (R335). -/
def recordTick (s : State) : State :=
  if s.on R.HIF_STAT_ATL_RESTART then s else (List.range 16).foldl recordPoll s

/-- One nanosecond. -/
def deviceTick (s : State) : State := patLook (recordTick (pkDrain (nodesTick (paceTick (fxApplyAll (wiresDrain (fzClocks (tick (cbsAll s)))))))))

end Sys2Proof.Machine
end

