-- ==== Sys2Proof/Safety.lean ====
section
/-! DEFINITION. What statements mean by a sound state and a completed command. -/
namespace Sys2Proof.Machine

/-- The canonical form of the device's bytes and registers: keys strictly rising, no entry equal to what an unlisted key holds. -/
def State.canonical (s : State) : Bool := Memory.wf s.mem && tabWf (0 : Word) s.regs

/-- A step completes: it answers a next state, neither a fault nor a refusal. -/
def Completes (s : State) : Prop := ∃ t, step s = .next t

/-- A command completes on a state, in a state of which `P` holds. -/
def CompletesWith (c : Instr) (s : State) (P : State → Prop) : Prop := ∃ t, exec c s = .next t ∧ P t

/-- A requester's write of a fabric address reaches the device and passes the firewall (R306, R405). -/
def writes (s : State) (r : Requester) (a : Nat) : Bool := reaches s r a && fwPass s r true a

/-- A requester's read of a fabric address reaches the device and passes the firewall. -/
def reads (s : State) (r : Requester) (a : Nat) : Bool := reaches s r a && fwPass s r false a

/-- No register but those at the listed addresses holds another word than before. -/
def OnlyRegs (s t : State) (l : List Nat) : Prop := ∀ a, a ∉ l → tabGet 0 t.regs a = tabGet 0 s.regs a

/-- A host command is acknowledged: its mailbox shows its opcode with STATUS and VALUE, and takes the next command (R311). -/
def Acked (s t : State) (n status value : Nat) : Prop :=
  t.rd R.HMB_ACK n = s.rd R.HMB_DATA n / 2 ^ 24 * 2 ^ 24 + status * 2 ^ 16 + value
    ∧ t.on R.HMB_STAT_FULL n = false ∧ t.on R.HMB_STAT_ACKV n = true

/-- The packet that carries a message to device `dst` stands at the end of the link that its route takes (R442). -/
def Sent (s t : State) (dst : Nat) (m : PkMsg) : Prop :=
  ∀ (k : Nat) (dim : Bool), pkRoute s ⟨Fin.ofNat 8 (pkId s), Fin.ofNat 8 dst, 0, true, m⟩ = some (k, dim) →
    pkOut t k = pkOut s k ++ [⟨Fin.ofNat 8 (pkId s), Fin.ofNat 8 dst, 1, dim, m⟩]

/-- No engine, CAN buffer, Rasp unit, field channel, DMA queue or pack instance waits for generator `n`; commit groups and the
SYNC pin may (R180). -/
def QuietInstant (s : State) (n : Nat) : Prop :=
  s.engs = [] ∧ (∀ e : Nat, e < 48 → engState s e = 0)
    ∧ (∀ c : Nat, c < 4 → ttMaster s c = false ∧ ttReceiver s c = false ∧ ∀ k : Nat, k < 3 → s.on R.TXB_CTL_TRIG_EN c k = false)
    ∧ s.on R.RASP_START_STAT_PEND = false ∧ (∀ u : Nat, u < 16 → s.on R.RASP_U_CFG_SNAP_EN u = false)
    ∧ (∀ c : Nat, c < 32 → s.on R.FX_CH_CFG_APPLY_EN c = false ∧ ∀ k : Nat, k < 4 → s.on R.FX_CH_SCH_CTL_ARM c k = false)
    ∧ dqTriggered s 1 n = [] ∧ s.packs.insts = []

/-- An engine's write-backs stand in the order of their slots, none beyond the last one given out (R99). -/
def Ordered (x : Eng) : Prop := x.wbs.Pairwise (fun a b => a.slot ≤ b.slot) ∧ ∀ b ∈ x.wbs, b.slot ≤ x.lastW

/-- Engine `x` has become `y` by issuing one instruction that produces a result and flags at distance `d` (R98, R99): an
instruction at a later position reads them from the slot on, and everything else as before. -/
def Retired (x y : Eng) (d : Nat) (res : Option (Fin 32 × Word)) (f : FlagSet) : Prop :=
  y.pc = x.npc ∧ y.pos = x.pos + 1 ∧ ∀ p : Nat, x.pos ≤ p →
    (∀ k : Fin 32, (y.readAt p).reg k
        = if max (x.pos + d) x.lastW ≤ p ∧ k ≠ 0 ∧ res.map (·.1) = some k then res.elim 0 (·.2) else (x.readAt p).reg k)
    ∧ (y.readAt p).z = (if max (x.pos + d) x.lastW ≤ p then f.1.getD (x.readAt p).z else (x.readAt p).z)
    ∧ (y.readAt p).c = (if max (x.pos + d) x.lastW ≤ p then f.2.1.getD (x.readAt p).c else (x.readAt p).c)
    ∧ (y.readAt p).n = (if max (x.pos + d) x.lastW ≤ p then f.2.2.1.getD (x.readAt p).n else (x.readAt p).n)
    ∧ (y.readAt p).v = (if max (x.pos + d) x.lastW ≤ p then f.2.2.2.getD (x.readAt p).v else (x.readAt p).v)

/-- Nothing of an engine differs but what the issue of an instruction changes: registers, flags, write-backs and position. -/
def IssueOnly (x y : Eng) : Prop :=
  y = { x with w := y.w, z := y.z, c := y.c, n := y.n, v := y.v, pc := y.pc, npc := y.npc, pos := y.pos, lastW := y.lastW, wbs := y.wbs }

/-- Engine `e` has issued an instruction with this result and these flags, goes on to the next one, and nothing else changed. -/
def Produces (s t : State) (e d : Nat) (res : Option (Fin 32 × Word)) (f : FlagSet) : Prop :=
  Retired (s.eng e) (t.eng e) d res f ∧ (t.eng e).npc = (s.eng e).npc + 1 ∧ IssueOnly (s.eng e) (t.eng e)
    ∧ t = { s with engs := t.engs } ∧ ∀ g : Nat, g ≠ e → t.eng g = s.eng g

/-- The flags of a signed 32-bit sum: zero, carry, negative, and overflow of the exact sum `m`. -/
def flags4 (r : Word) (carry : Bool) (m : Int) : FlagSet :=
  (some (r == 0), some carry, some r.msb, some (decide (m < -2 ^ 31 ∨ 2 ^ 31 ≤ m)))

/-- The flags of a result that sets Z and N only. -/
def flagsZN (r : Word) : FlagSet := (some (r == 0), none, some r.msb, none)

/-- Atelier takes the command of mailbox `n`, whose opcode is `op` (R342), and no life-cycle change turns it away (R339). -/
def Taken (s : State) (n op : Nat) : Bool := canTake s n && hmbOp s n == op && !lcBusy s

/-- A command on a channel passes the checks before its own (R318, R321, R322, R326): the table is enabled and has the channel, its
entry is cached as `b`, is of one of the types, is not checked against host memory, names enough parameters, which can be
read (in device memory: Atelier may write them, and their banks are ON), and the cache has room for it. -/
def Served (s : State) (n op : Nat) (types : List Nat) (need : Nat) (b : List Byte) : Bool :=
  Taken s n op && s.on R.HIF_CHT_CTL_EN && decide (hmbCh s n < s.get R.HIF_CHT_N_V) && (cached s (hmbCh s n) == some b)
    && types.contains (chType b) && !chFlag b 2 && !s.on R.HIF_CHT_CTL_CHECK_GEN && decide (need ≤ chLen b)
    && (need == 0 || (chtUp s && (!s.on R.HIF_CHT_CTL_LOC || memReady s (.atl 0) (parAddr s b) need))) && decide (s.cmd.cache.length < 192)

/-- The registers that serving a command touches: the count of cache hits, the mailbox's acknowledge and status, and the doorbell. -/
def ackRegs (n : Nat) : List Nat :=
  [R.HIF_CHC_HIT.addr 0 0 0, R.HMB_ACK.addr n 0 0, R.HMB_STAT.addr n 0 0, R.ADB_SET.addr 0 0 0, R.ADB_CLR.addr 0 0 0]

/-- No byte of memory but the `n` from address `a` of a space on holds another value than before. -/
def OnlyBytes (s t : State) (sp : Space) (a n : Nat) : Prop :=
  ∀ k : Nat, (k < sp.base + a ∨ sp.base + a + n ≤ k) → tabGet 0 t.mem k = tabGet 0 s.mem k

/-- Frieze instance `i` has become `x`, and no other one has changed. -/
def FzStep (s t : State) (i : Nat) (x : FzInst) : Prop := t.fzi i = x ∧ ∀ j : Nat, j ≠ i → t.fzi j = s.fzi j

/-- The clock of a Frieze node brings nothing now (R186, R195): its cycle goes on, SAMPLE of the next one has not come, and its
mini-slot has not opened. -/
def FzCalm (s : State) (i : Nat) (x : FzInst) : Prop :=
  x.phased = true → fzNow s i < x.s0 + x.cfg.cycle ∧ (fzNow s i : Int) < ((x.s0 + x.cfg.cycle : Nat) : Int) + x.cfg.sampleOff
    ∧ fzNow s i < fzSlotAt x

/-- A Frieze node that has gone to LISTEN at its time `now` (R203): a domain that follows phase steps is armed otherwise. -/
def inListen (s : State) (x : FzInst) (now : Nat) : FzInst :=
  { x with st := 0, valid := 0, missed := 0, since := now, acq := x.acq || s.get R.TB_D_CTL_MODE x.dom != 2 }

/-- The switch of field channel `n` has taken the state that its mode, the commanded state, lockout, a thermal trip and HOLD
leave it, and its read-back has followed (R258, R264, R266, R275, R282). -/
def Follows (s t : State) (n : Nat) : Prop :=
  t.on R.FX_CH_STAT_ON n = (fxSwitched s n && t.on R.FX_CH_STAT_CMD n && !t.on R.FX_GRP_STAT_LOCKOUT (fxGroup n) && !(t.fx n).tripped
    && (!fxHold t || (s.on R.FX_CH_STAT_ON n && !t.on R.FX_STAT_HOLD_EXPIRED)))
  ∧ (t.rd R.FX_CH_STAT n).testBit 1 = (fxSwitched s n && s.on R.FX_CH_CFG_RB n
      && if t.on R.FX_CH_STAT_ON n = s.on R.FX_CH_STAT_ON n then (s.fx n).back.getD (s.on R.FX_CH_STAT_ON n) else t.on R.FX_CH_STAT_ON n)

/-- What a YPCO program is held to (R153): the buffers of a running instance's controllers that wait or are being sent hold its
objects in the layout of the bus's format. -/
def YpcoLaidOut (s : State) : Prop :=
  ∀ i n k : Nat, (s.inst i).used = true → (s.inst i).code = 0x0A → n ∈ (s.inst i).cans → k < 3 →
    (s.get R.TXB_STAT_STATE n k = 1 ∨ s.get R.TXB_STAT_STATE n k = 2) → ypcoLaid s n k = true

/-- No flags. -/
def noFlags : FlagSet := (none, none, none, none)

/-- The branch `b` moved to LISTEN by missed returns: an ACTIVE branch's gate shuts with its edges, a
branch in another state keeps its gate. -/
def listening (b : FzBranch) : FzBranch :=
  let c : FzBranch := if b.st = 3 then { b with open_ := false, edges := [] } else b
  { c with st := 1, samples := [], missed := 0 }

end Sys2Proof.Machine
end

