-- ==== Sys2Proof/Certificates/Slice0/Obligations.lean ====
section
/-! DEFINITION. The statements about the model that are to be proved, each as a proposition. -/
open Sys2Proof Sys2Proof.Machine

/-- For every state whose queue of waiting commands begins with a command c, a step answers what exec answers for c on the same state with the queue's rest. (spec/95_what_each_step_holds.md) -/
def Obligations.StepTakesFrontCommand : Prop :=
  ∀ (c : Instr) (rest : List Instr) (s : State), s.pending = c :: rest → step s = exec c { s with pending := rest }

/-- With the queue empty, while Atelier restarts, with no event presented, no remote write leaving no pace measurement due, no substitution to begin, no shaped class, no frame or record waiting for a wire, no level waiting for its tick and no Frieze node: a step completes; where the PLL is locked and no walk is in progress, FRC counts by 1 and the value of each domain advances by 1 ns plus RATE times 2^-40 ns, modulo 2^64 ns; unlocked, FRC and offsets stay. Nothing but the timebase and the model's time changes. That an idle step is one nanosecond is the model's choice (assumption 3). (R160, R163) -/
def Obligations.IdleNanosecond : Prop :=
  ∀ s : State, s.pending = [] → s.on R.HIF_STAT_ATL_RESTART = true → s.evh.presented = [] → s.store.remoteOut = [] → (s.now + 1) % 1024000 ≠ 0 → s.pat.look = false →
    s.pat.held = [] → (∀ q : Nat, q < 192 → s.on R.SW_CBS_EN q = false ∧ tabGet 0 s.sw.creditAt q = 0) →
    (∀ p : Nat, (s.port p).ctl = [] ∧ (s.port p).spl = [] ∧ (s.port p).tsOut = []) → (∀ n : Nat, (s.fx n).due = none) → s.fz = [] → ∃ t, step s = .next t ∧ t.now = s.now + 1
      ∧ (s.on R.TB_STAT_LOCK = true → s.on R.TB_WALK_STAT_BUSY = false →
          t.time.frc = s.time.frc + 1
          ∧ (∀ d : Nat, d < 2 → (domRaw t d : Int) = ((domRaw s d : Int) + 2 ^ 40 + s.gets R.TB_D_RATE_V d) % 2 ^ 104)
          ∧ t = { s with now := t.now, time := t.time })
      ∧ (s.on R.TB_STAT_LOCK = false → t = { s with now := t.now })

/-- After power-on reset every register of the map holds the value of its POR column, no command waits, memory lists no byte, FRC and both offsets are 0, no generator is enabled, no event source is Pending, every engine is STOPPED with its registers and flags 0, and registers and memory are in canonical form. That memory which nothing has written reads 0 outside the zeroed banks is the model's choice (assumption 2). (R3, R384, R160) -/
def Obligations.ResetState : Prop :=
  (∀ (r : Reg) (i j k : Nat), State.reset.rd r i j k = r.por i % 2 ^ 32)
    ∧ State.reset.pending = [] ∧ State.reset.mem = [] ∧ State.reset.time.frc = 0
    ∧ (State.reset.dom 0).offs = 0 ∧ (State.reset.dom 1).offs = 0
    ∧ (∀ n : Nat, (State.reset.igen n).armed = false)
    ∧ (∀ n : Fin 512, State.reset.get R.EVH_SRC_CFG_STATE n = 0)
    ∧ (∀ e : Fin 48, State.reset.get R.CE_STAT_STATE e = 0 ∧ ∀ r : Fin 32, (State.reset.eng e).reg r = 0)
    ∧ State.reset.canonical = true

/-- For every instruction of the engines with every operand at every value its encoding admits, the word of the instruction is 32 bits wide and decodes to that instruction. (R104, R105, R107, R108, R109, R110, R111, R112, R123, R124) -/
def Obligations.EngineDecodeEncode : Prop :=
  ∀ i : EngInstr, encodeEngine i < 2 ^ 32 ∧ decodeEngine (encodeEngine i) = i

/-- A register holds 32 bits. For every requester and every address of a register whose access passes the firewall: an aligned 32-bit write has the write's effect by the rules of the register's block, a write of any other width is ignored, a read of any other width returns zeros, and an aligned 32-bit read returns the word that the register's block answers. (R4) -/
def Obligations.RegisterWidth : Prop :=
  (∀ (s : State) (r : Reg) (i j k : Nat), s.rd r i j k < 2 ^ 32)
  ∧ (∀ (r : Requester) (a : Word) (x : RegRef) (s : State), regRef a.toNat = some x → inBlocks a.toNat = true →
      inSpareFrames a.toNat = false → a.toNat % 4 = 0 →
      (reaches s r a.toNat = true →
        (∀ v : Word, fwSpan s r true a.toNat 4 = true → exec (.registerWrite r .b32 a v) s = .next (blockWrite { s with bus := {} } r x v.toNat))
        ∧ ∀ (w : Width) (v : Word), w ≠ .b32 → fwSpan s r true a.toNat (widthBytes w) = true → exec (.registerWrite r w a v) s = .next { s with bus := {} })
      ∧ (reaches s r a.toNat = true →
        (fwSpan s r false a.toNat 4 = true → (busRead s r a.toNat 4).2 = leBytes 4 (blockRead s r x).bus.rdata.toNat)
        ∧ ∀ n : Nat, n ≠ 4 → fwSpan s r false a.toNat n = true → (busRead s r a.toNat n).2 = List.replicate n 0))

/-- A host write while its link is down or outside the PCIe windows changes nothing. A write that the firewall refuses is recorded with its class and address, raises HIF_ERR.FW_DENY for the host and a bus error for DMA and remote requesters, and leaves all else. A write to an open memory stores its bytes, least significant first, and no others. By Atelier, HDB_MASK (RW) takes the word; HIF_ERR (W1C) loses the bits written 1; HIF_STAT (RO) ignores the write; a count (HIF_CHC_MISS) becomes 0 by a write of all ones and keeps its value on any other; an access to an unassigned address raises the requester's address-error source, reads 0 and writes nothing. (R4, R21, R23, R303, R306, R405, R406, R489) -/
def Obligations.FabricWrites : Prop :=
  (∀ (r : Requester) (w : Width) (a v : Word) (s : State), reaches s r a.toNat = false → exec (.registerWrite r w a v) s = .next s)
  ∧ (∀ (w : Width) (a v : Word) (r : Requester) (s : State), reaches s r a.toNat = true → fwSpan s r true a.toNat (widthBytes w) = false →
      isAtl r = false ∨ (∃ d, r = .remAtl d) →
      ∃ t, exec (.registerWrite r w a v) s = .next t ∧ t.on R.SEC_FW_STAT_DENY = true
        ∧ t.get R.SEC_FW_STAT_CLASS = (fwClass r).getD 0 ∧ t.rd R.SEC_FW_ADDR = a.toNat
        ∧ (r = .host → t.on R.HIF_ERR_FW_DENY = true ∧ t.bus = {}) ∧ (r ≠ .host → t.bus.err = true)
        ∧ t = { s with regs := t.regs, bus := t.bus }
        ∧ OnlyRegs s t [R.SEC_FW_STAT.addr 0 0 0, R.SEC_FW_ADDR.addr 0 0 0, R.HIF_ERR.addr 0 0 0])
  ∧ (∀ (r : Requester) (w : Width) (a v : Word) (s u : State), reaches s r a.toNat = true → fwSpan s r true a.toNat (widthBytes w) = true → inBlocks a.toNat = false →
      inImages a.toNat = false → memSpan { s with bus := {} } a.toNat (widthBytes w) = some u →
      ∃ t, exec (.registerWrite r w a v) s = .next t ∧ t = { u with mem := t.mem }
        ∧ (∀ i : Nat, i < widthBytes w → t.mrd .fabric (a.toNat + i) = BitVec.ofNat 8 (v.toNat / 256 ^ i))
        ∧ ∀ k : Nat, k < a.toNat ∨ a.toNat + widthBytes w ≤ k → tabGet 0 t.mem k = tabGet 0 s.mem k)
  ∧ (∀ (c : Fin 5) (v : Word) (s : State), (∀ a : Nat, a ∈ [0x40020208, 0x40160004, 0x40160000, 0x40160118] → fwSpan s (.atl c) true a 4 = true) →
      (∃ t, exec (.registerWrite (.atl c) .b32 0x40020208 v) s = .next t ∧ t.rd R.HDB_MASK = v.toNat
        ∧ t = { s with bus := {}, regs := t.regs } ∧ OnlyRegs s t [0x40020208])
      ∧ (∃ t, exec (.registerWrite (.atl c) .b32 0x40160004 v) s = .next t
        ∧ (∀ b : Nat, b < 5 → (t.rd R.HIF_ERR).testBit b = ((s.rd R.HIF_ERR).testBit b && !v.getLsbD b))
        ∧ t = { s with bus := {}, regs := t.regs } ∧ OnlyRegs s t [0x40160004])
      ∧ (∃ t, exec (.registerWrite (.atl c) .b32 0x40160000 v) s = .next t ∧ t.rd R.HIF_STAT = s.rd R.HIF_STAT
        ∧ t = { s with bus := {}, regs := t.regs } ∧ OnlyRegs s t [])
      ∧ (∃ t, exec (.registerWrite (.atl c) .b32 0x40160118 v) s = .next t
        ∧ t.rd R.HIF_CHC_MISS = (if v.toNat = 2 ^ 32 - 1 then 0 else s.rd R.HIF_CHC_MISS)
        ∧ t = { s with bus := {}, regs := t.regs } ∧ OnlyRegs s t [0x40160118]))
  ∧ (∀ (c : Fin 5) (wr : Bool) (a : Word) (s : State), fwSpan s (.atl c) wr a.toNat 4 = true → assigned s a.toNat = false →
      s.get R.EVH_SRC_CFG_STATE (308 + c) = 0 → s.get R.EVH_SRC_CFG_TARGET (308 + c) ≠ 6 →
      ∃ t, exec (.addressError (.atl c) wr a) s = .next t ∧ t.get R.EVH_SRC_CFG_STATE (308 + c) = 1 ∧ t.bus = {}
        ∧ t = { s with regs := t.regs, bus := {}, evh := t.evh }
        ∧ OnlyRegs s t [R.EVH_SRC_CFG.addr (308 + c) 0 0, R.EVH_T_STAT.addr (s.get R.EVH_SRC_CFG_TARGET (308 + c)) 0 0])

/-- For every engine e, slot k that is not busy and state s: a write of IW_HANDLE selects the handle's low 18 bits and discards the staged words; a write of IW_DATAj stages word j, so that bits 32j to 32j+31 of the staged bits are the word's and every other staged bit and mask bit is as before; IW_CLOSE = 1 puts the staged bits with their mask at the end of the write port's queue and leaves the slot busy with nothing staged; IW_CLOSE = 2 discards the staged words. Each completes, and nothing but that engine's state, and for the apply the write port's queue, changes. For every engine e and slot k that is busy: each of the four window writes completes, leaves the slot's handle, staged bits, mask and BUSY as they are, sets the slot's ERR and SS_EVT.PORT_ERR, and changes nothing but that engine's state and the register SS_EVT. (R41, R42, R43, R44, R45) -/
def Obligations.ItemWindow : Prop :=
  (∀ (e : Fin 48) (k : Fin 12) (s : State), ((s.eng e).iwSlot k).busy = false →
    (∀ h : BitVec 32, ∃ t, exec (.iwHandleWrite e k h) s = .next t
      ∧ (t.eng e).iwSlot k = { (s.eng e).iwSlot k with handle := h.toNat % 262144, data := 0, mask := 0 }
      ∧ t = { s with engs := t.engs } ∧ ∀ f : Nat, f ≠ e.val → t.eng f = s.eng f)
    ∧ (∀ (j : Fin 32) (v : Word), ∃ t, exec (.iwDataWrite e k j v) s = .next t
      ∧ (∀ b : Nat, b < 1024 → ((t.eng e).iwSlot k).data.getLsbD b
          = (if 32 * j.val ≤ b ∧ b < 32 * j.val + 32 then v.getLsbD (b - 32 * j.val) else ((s.eng e).iwSlot k).data.getLsbD b))
      ∧ (∀ b : Nat, b < 1024 → ((t.eng e).iwSlot k).mask.getLsbD b
          = (decide (32 * j.val ≤ b ∧ b < 32 * j.val + 32) || ((s.eng e).iwSlot k).mask.getLsbD b))
      ∧ ((t.eng e).iwSlot k).handle = ((s.eng e).iwSlot k).handle
      ∧ t = { s with engs := t.engs } ∧ ∀ f : Nat, f ≠ e.val → t.eng f = s.eng f)
    ∧ (∃ t, exec (.iwCloseApply e k) s = .next t
      ∧ t.store.portQ = s.store.portQ ++ [⟨.engine e k, [(((s.eng e).iwSlot k).handle, ((s.eng e).iwSlot k).data,
          ((s.eng e).iwSlot k).mask)]⟩]
      ∧ (t.eng e).iwSlot k = { (s.eng e).iwSlot k with data := 0, mask := 0, busy := true }
      ∧ t = { s with engs := t.engs, store := { s.store with portQ := t.store.portQ } })
    ∧ (∃ t, exec (.iwCloseDiscard e k) s = .next t
      ∧ (t.eng e).iwSlot k = { (s.eng e).iwSlot k with data := 0, mask := 0 } ∧ t = { s with engs := t.engs }))
  ∧ (∀ (e : Fin 48) (k : Fin 12) (s : State), ((s.eng e).iwSlot k).busy = true →
    ∀ (c : Instr), ((∃ h, c = .iwHandleWrite e k h) ∨ (∃ j v, c = .iwDataWrite e k j v) ∨ c = .iwCloseApply e k
        ∨ c = .iwCloseDiscard e k) →
      ∃ t, exec c s = .next t ∧ (t.eng e).iwSlot k = { (s.eng e).iwSlot k with err := true }
        ∧ t.get R.SS_EVT_PORT_ERR = 1 ∧ t = { s with engs := t.engs, regs := t.regs }
        ∧ ∀ a, a ≠ R.SS_EVT.addr 0 0 0 → tabGet 0 t.regs a = tabGet 0 s.regs a)

/-- Where the one waiting write is an engine's of one valid item without casts and the store is enabled, its acceptance empties the queue and merges the staged bits into the latest value, which the item then has in its group's back image, sets its written bit there, counts SS_WR_CNT and frees the slot without ERR; no other byte changes. A starving requester is granted so by a starvation grant. Where no requester starves, a writer that another one has waited for since its last grant is not accepted again first. A starving DMA queue issues its next burst, except in a round reserved for level 0. At every other arbiter a round grants the reserved share that falls due, else the lowest starving requester, else the one that priority grants; each other one that asks counts one more denial, up to 64, and all others none. (R32, R33, R42) -/
def Obligations.StoreWritePortRounds : Prop :=
  (∀ (e : Fin 48) (k : Fin 12) (h : Nat) (d m : ItemBits) (s : State),
    s.store.portQ = [⟨.engine e k, [(h, d, m)]⟩] → s.on R.SS_CTL_EN = true → itValid (s.item h) = true →
    castRun s (s.item h) = [] →
    ∀ c : Instr, (c = .itemWriteAccept (.engine e k)
        ∨ ((∃ asking first, c = .starvationGrant 0 asking first) ∧ starved s 0 (portAsking s) = some e.val)) →
      ∃ t, exec c s = .next t ∧ t.store.portQ = [] ∧ isWritten t (cgBack s (itCg (s.item h))) h = true
        ∧ itemIn t (cgBack s (itCg (s.item h))) (s.item h)
            = ((d &&& m) ||| (BitVec.ofNat 1024 (itemIn s (latestImage s h (s.item h)) (s.item h)) &&& ~~~m)).toNat
                % 2 ^ itWidth (s.item h)
        ∧ OnlyBytes s t .fabric (imageBase (cgBack s (itCg (s.item h))) + itOffset (s.item h) / 8)
            ((itOffset (s.item h) % 8 + itWidth (s.item h) + 7) / 8)
        ∧ t.get R.SS_WR_CNT_V = (s.get R.SS_WR_CNT_V + 1) % 2 ^ 32
        ∧ ((t.eng e).iwSlot k).busy = false ∧ ((t.eng e).iwSlot k).err = false ∧ starveCount t 0 e.val = 0
        ∧ t = { s with regs := t.regs, mem := t.mem, store := t.store, engs := t.engs, starve := t.starve, arbs := t.arbs })
  ∧ (∀ (w v : Writer) (s : State), writerNum v ∈ portAsking s → writerNum v ≠ writerNum w →
    writerNum w ∈ tabGet [] s.store.turns (writerNum v) → arbAhead s 0 (portAsking s) = none →
    exec (.itemWriteAccept w) s = .next s)
  ∧ (∀ (asking : List (Fin 256)) (first : Fin 256) (q : Nat) (s : State), agingRound s = false →
    starved s 1 (dmaAsking s) = some q → s.get R.DMA_STAT_INFLIGHT ≠ 256 → tagsUsed s + burstTags (s.dq q) ≤ 256 →
    ∃ t, exec (.starvationGrant 1 asking first) s = .next t ∧ (t.dq q).issued = (s.dq q).issued + (nextBurst s q).len
      ∧ (t.dq q).bursts = (s.dq q).bursts ++ [nextBurst s q] ∧ starveCount t 1 q = 0
      ∧ t = { s with regs := t.regs, dma := t.dma, starve := t.starve, arbs := t.arbs })
  ∧ (∀ (arb : Fin 256) (asking : List (Fin 256)) (first : Fin 256) (s : State), 2 ≤ arb.val →
    ∃ t, exec (.starvationGrant arb asking first) s = .next t ∧ t = { s with starve := t.starve, arbs := t.arbs }
      ∧ ∀ who : Nat, who < 256 → starveCount t arb.val who
        = if (asking.map (·.val)).contains who
            && who != ((shareDue s arb.val (asking.map (·.val))).getD ((starved s arb.val (asking.map (·.val))).getD first.val))
          then min 64 (starveCount s arb.val who + 1) else 0)

/-- A DONE of an engine whose tag is (SEQ + 1) mod 256 counts one DONE for the group; a commit command to an enabled group with TRIG = 1 of an enabled store adds one trigger that arrives now, and to a group with TRIG = 0 it changes nothing; a remote device's write waits at the write port as one unit. An uncorrectable error in a word that one valid item touches sets SS_EVT.ECC_UNCORR, names the item in SS_ECC_HANDLE and marks it, so that it counts as not written at its next cut. (R48, R53, R61, R64) -/
def Obligations.GroupTriggersAndDone : Prop :=
  (∀ (e : Fin 48) (g : Fin 256) (tag : BitVec 8) (s : State), tag.toNat = (s.rd R.SS_CG_SEQ g + 1) % 256 →
    ∃ t, exec (.cgDone (.engine e) g tag) s = .next t ∧ tabGet 0 t.store.done g = tabGet 0 s.store.done g + 1
      ∧ t = { s with regs := t.regs, store := { s.store with done := t.store.done } })
  ∧ (∀ (e : Fin 48) (g : Fin 256) (s : State), s.on R.SS_CG_CTL_TRIG g = true → s.on R.SS_CG_CTL_EN g = true →
    s.on R.SS_CTL_EN = true → ∃ t tr, exec (.commitCommand (.engine e) g) s = .next t
      ∧ t.triggers g = s.triggers g ++ [tr] ∧ tr.at_ = s.now
      ∧ t = { s with regs := t.regs, store := { s.store with triggers := t.store.triggers } })
  ∧ (∀ (e : Fin 48) (g : Fin 256) (s : State), s.on R.SS_CG_CTL_TRIG g = false →
    exec (.commitCommand (.engine e) g) s = .next s)
  ∧ (∀ (dev : Fin 8) (ws : List RemoteItem) (s : State), ∃ t, exec (.remoteWrite dev ws) s = .next t
      ∧ t.store.portQ = s.store.portQ ++ [⟨.remote dev, ws.map fun w => (w.handle.val, w.data, w.mask)⟩]
      ∧ t = { s with store := { s.store with portQ := t.store.portQ } })
  ∧ (∀ (img : Fin 3) (word : Fin 81920) (h : Nat) (x : BitVec 64) (s : State), s.store.items = [(h, x)] →
    itValid x = true → itOffset x < 64 * word.val + 64 → 64 * word.val < itOffset x + itWidth x →
    ∃ t, exec (.imageEccError img word) s = .next t ∧ t.get R.SS_EVT_ECC_UNCORR = 1
      ∧ t.get R.SS_ECC_HANDLE_V = h % 2 ^ 32 ∧ tabGet false t.store.hurt h = true
      ∧ t = { s with regs := t.regs, store := { s.store with hurt := t.store.hurt } })

/-- A cut of a group whose trigger waits and whose last commit is presented exchanges its back and ready images, sets PROC and counts SS_CG_SEQ. Processing marks the cut at the head of the commit unit's queue as processed; in a group of one item without casts, the item's age becomes 0 if it was written in the ready image, and otherwise one more, at most 255. The presentation of a processed commit exchanges the front and ready images, clears PROC, counts SS_CG_PSEQ and removes the cut from the queue. (R47, R49) -/
def Obligations.GroupCommitStages : Prop :=
  (∀ (g : Fin 256) (tr : Trigger) (rest : List Trigger) (s : State), s.triggers g = tr :: rest → cgInCommit s g = false →
    s.on R.SS_CTL_EN = true → ∃ t, exec (.cut g) s = .next t ∧ t.get R.SS_CG_STAT_BACK g = s.get R.SS_CG_STAT_READY g
      ∧ t.get R.SS_CG_STAT_READY g = s.get R.SS_CG_STAT_BACK g ∧ cgInCommit t g = true ∧ t.triggers g = rest
      ∧ t.get R.SS_CG_SEQ_V g = (s.get R.SS_CG_SEQ_V g + 1) % 2 ^ 32
      ∧ t = { s with regs := t.regs, store := t.store })
  ∧ (∀ (g : Fin 256) (c : CutSt) (rest : List CutSt) (h : Nat) (x : BitVec 64) (s : State), s.store.cutQ = c :: rest →
    c.group = g → c.processed = false → groupItems s g = [(h, x)] → castRun s x = [] →
    ∃ t, exec (.commitProcessing g) s = .next t ∧ t.store.cutQ = { c with processed := true } :: rest
      ∧ itemAge t h = (if isWritten s (cgReady s g) h then 0 else min (itemAge s h + 1) 255)
      ∧ t = { s with regs := t.regs, mem := t.mem, store := t.store })
  ∧ (∀ (g : Fin 256) (c : CutSt) (rest : List CutSt) (s : State), s.store.cutQ = c :: rest → c.group = g →
    c.processed = true → dqTriggered s 3 g = [] → s.cmd.streams = [] → s.packs.insts = [] → s.field.svc = none →
    ∃ t, exec (.presentation g) s = .next t ∧ t.get R.SS_CG_STAT_FRONT g = s.get R.SS_CG_STAT_READY g
      ∧ t.get R.SS_CG_STAT_READY g = s.get R.SS_CG_STAT_FRONT g ∧ cgInCommit t g = false
      ∧ t.get R.SS_CG_PSEQ_V g = (s.get R.SS_CG_PSEQ_V g + 1) % 2 ^ 32 ∧ t.store.cutQ = rest)

/-- For a requester whose access passes: IND_READ of an item-map index gives the 64-bit entry in SS_IND_DATA; IND_WRITE of a cast-table index by Atelier gives the entry the value of SS_IND_DATA, whose reserved bits 63:56 read 0. STORE_READY after a release sets SS_STAT.READY. Nothing else changes but the registers named, the cast table and the answer of the access. For a requester whose access passes, at the port SS_HWR while it is not busy: a write of HANDLE selects the handle's low 18 bits and discards the staged words; DATAj stages word j; CTL = 0b01 sets BUSY and puts the staged bits at the end of the write port's queue as the host's write; CTL = 0b10 discards the staged words. Nothing else changes but the port's registers and the answer of the access. (R65, R492, R493, R40) -/
def Obligations.SoftwareStoreAccess : Prop :=
  ((∀ (r : Requester) (s : State), writes s r (R.SS_IND_CMD.addr 0 0 0) = true →
    (s.get R.SS_IND_SEL_TABLE = 0 → s.get R.SS_IND_SEL_INDEX < 262144 → ∃ t, exec (.indRead r) s = .next t
      ∧ t.get64 R.SS_IND_DATA_LO R.SS_IND_DATA_HI = (s.item (s.get R.SS_IND_SEL_INDEX)).toNat
      ∧ t = { s with bus := {}, regs := t.regs }
      ∧ ∀ a, a ≠ R.SS_IND_DATA_LO.addr 0 0 0 → a ≠ R.SS_IND_DATA_HI.addr 0 0 0 → tabGet 0 t.regs a = tabGet 0 s.regs a)
    ∧ (isAtl r = true → s.get R.SS_IND_SEL_TABLE = 1 → s.get R.SS_IND_SEL_INDEX < 65535 →
      ∃ t, exec (.indWrite r) s = .next t
        ∧ (t.cast (s.get R.SS_IND_SEL_INDEX)).toNat = s.get64 R.SS_IND_DATA_LO R.SS_IND_DATA_HI % 2 ^ 56
        ∧ t = { s with bus := {}, store := { s.store with casts := t.store.casts } }
        ∧ ∀ i, i ≠ s.get R.SS_IND_SEL_INDEX → t.cast i = s.cast i))
  ∧ (∀ s : State, (s.boot.reach = none ∨ s.boot.phase ≠ 0) → ∃ t, exec .storeReady s = .next t
      ∧ t.get R.SS_STAT_READY = 1 ∧ t = { s with regs := t.regs }
      ∧ ∀ a, a ≠ R.SS_STAT.addr 0 0 0 → tabGet 0 t.regs a = tabGet 0 s.regs a))
  ∧ (∀ (r : Requester) (s : State), (∀ off : Nat, off < 256 → writes s r (R.SS_HWR_HANDLE.base + off) = true) →
    s.on R.SS_HWR_STAT_BUSY = false →
    (∀ v : Word, ∃ t, exec (.writePortHandle r false v) s = .next t ∧ t.rd R.SS_HWR_HANDLE = v.toNat % 262144
      ∧ t.store.hwr.data = 0 ∧ t.store.hwr.mask = 0 ∧ t.store.hwr.held = s.store.hwr.held
      ∧ t = { s with bus := {}, regs := t.regs, store := { s.store with hwr := t.store.hwr } })
    ∧ (∀ (j : Fin 32) (v : Word), ∃ t, exec (.writePortData r false j v) s = .next t
      ∧ (t.store.hwr.data, t.store.hwr.mask) = stageWord s.store.hwr.data s.store.hwr.mask j v
      ∧ t.rd R.SS_HWR_DATA j = v.toNat
      ∧ t = { s with bus := {}, regs := t.regs, store := { s.store with hwr := t.store.hwr } })
    ∧ (∃ t, exec (.writePortApply r false) s = .next t ∧ t.get R.SS_HWR_STAT_BUSY = 1
      ∧ t.store.portQ = s.store.portQ ++ [⟨.host, [(s.rd R.SS_HWR_HANDLE, s.store.hwr.data, s.store.hwr.mask)]⟩]
      ∧ t.store.hwr.data = 0 ∧ t.store.hwr.mask = 0
      ∧ t = { s with bus := {}, regs := t.regs, store := { s.store with hwr := t.store.hwr, portQ := t.store.portQ } })
    ∧ (∃ t, exec (.writePortDiscard r false) s = .next t
      ∧ t = { s with bus := {}, store := { s.store with hwr := { s.store.hwr with data := 0, mask := 0 } } }))

/-- By Atelier or Patina: RUN on a HALTED engine starts it at address 0 with registers and flags 0, CYC_CNT 0 and SLACK_CUR 2^31 - 1, or, with START_AT_IG, leaves it in STARTPEND until its instant; RUN and STOP together on it do nothing. STOP on a running engine with cycles makes it STOPPING, without cycles HALTED at once with CE_ERR.HALT and its owner-table entries cleared, in STARTPEND HALTED at once, and on a frozen one waits for the end of the freeze. A STOPPING engine halts at its cycle instant, with STOP_FORCED if it was stalled or waiting, and no DONE of it is sent any more. A corrected ECC error counts; an uncorrectable one sets its flag, leaves a free value in its word alone and does not stop the engine. Other engines keep their state. (R69, R80, R81, R84, R85, R90) -/
def Obligations.EngineStartStop : Prop :=
  ∀ (r : Requester) (e : Fin 48) (v : Word) (s : State), isAtl r = true ∨ isPat r = true → writes s r (R.CE_CTL.addr e 0 0) = true →
    (engState s e = 0 → v.getLsbD 1 = false → ∃ t, exec (.engineStart r e v) s = .next t
      ∧ t.get R.CE_CTL_START_IG e = bits v.toNat 3 5
      ∧ (v.getLsbD 2 = true → engState t e = 5 ∧ t.engs = s.engs)
      ∧ (v.getLsbD 2 = false → engState t e = 1 ∧ (t.eng e).w = [] ∧ (t.eng e).pc = 0
          ∧ ((t.eng e).z, (t.eng e).c, (t.eng e).n, (t.eng e).v) = (false, false, false, false) ∧ (t.eng e).wbs = []
          ∧ (∀ k : Nat, k < 8 → (t.eng e).islot k = { (s.eng e).islot k with firstInCycle := none }) ∧ (t.eng e).cycAt = none ∧ t.rd R.CE_CYC_CNT e = 0 ∧ t.rd R.CE_SLACK_CUR e = 2 ^ 31 - 1
          ∧ t.get R.CE_STAT_STOP_FORCED e = 0)
      ∧ t.rd R.CE_SLACK_LAST e = s.rd R.CE_SLACK_LAST e ∧ t.rd R.CE_SLACK_MIN e = s.rd R.CE_SLACK_MIN e
      ∧ (∀ f : Nat, f < 48 → f ≠ e → t.eng f = s.eng f ∧ engState t f = engState s f)
      ∧ t = { s with bus := {}, regs := t.regs, engs := t.engs })
    ∧ (engState s e = 0 → v.getLsbD 1 = true → ∃ t, exec (.engineStart r e v) s = .next t ∧ engState t e = 0 ∧ t.engs = s.engs)
    ∧ (engState s e = 5 → (s.eng e).startDue = true → ∃ t, exec (.startpendStart e) s = .next t ∧ engState t e = 1
      ∧ (t.eng e).w = [] ∧ (t.eng e).pc = 0 ∧ (t.eng e).startDue = false ∧ (t.eng e).cycAt = none ∧ t.rd R.CE_CYC_CNT e = 0
      ∧ t = { s with regs := t.regs, engs := t.engs })
    ∧ (s.get R.CE_MIG_CTL_LE ≠ e → ∃ t, exec (.engineStop r e v) s = .next t
      ∧ t = { s with bus := {}, regs := t.regs, engs := t.engs }
      ∧ (engState s e = 0 → engState t e = 0 ∧ t.engs = s.engs)
      ∧ (engState s e = 1 ∨ engState s e = 2 → s.on R.CE_CYC_EN e = true → engState t e = 3 ∧ t.engs = s.engs)
      ∧ (engState s e = 5 ∨ ((engState s e = 1 ∨ engState s e = 2) ∧ s.on R.CE_CYC_EN e = false) →
          engState t e = 0 ∧ t.get R.CE_ERR_HALT e = 1 ∧ ∀ p k : Nat, p < 24 → k < 4 →
            t.on R.SW_P_OWN_VALID p k = (s.on R.SW_P_OWN_VALID p k && s.get R.SW_P_OWN_LE p k != e.val))
      ∧ (engState s e = 4 → engState t e = 4 ∧ (t.eng e).stopPend = true))
    ∧ (engState s e = 3 → (s.eng e).haltDue = true → ∃ t, exec (.stopHalt e) s = .next t ∧ engState t e = 0
      ∧ t.get R.CE_ERR_HALT e = 1 ∧ (t.eng e).wait = .none ∧ (∀ x ∈ (t.eng e).outQ, x.1 ≠ 0x701)
      ∧ t.get R.CE_STAT_STOP_FORCED e = (if engStuck s e then 1 else s.get R.CE_STAT_STOP_FORCED e)
      ∧ (∀ p k : Nat, p < 24 → k < 4 →
          t.on R.SW_P_OWN_VALID p k = (s.on R.SW_P_OWN_VALID p k && s.get R.SW_P_OWN_LE p k != e.val))
      ∧ t = { s with regs := t.regs, engs := t.engs })
    ∧ (∀ (data : Bool) (word : Nat) (x : EccWord), (data = true ∧ (∃ w, x = .data w ∧ word = w.val) ∨ data = false ∧ ∃ w, x = .code w ∧ word = w.val) →
      (∃ t, exec (.engineEccError e x true) s = .next t
        ∧ t.rd R.CE_ECC_CNT e = min (s.rd R.CE_ECC_CNT e + 1) (2 ^ 32 - 1)
        ∧ t = { s with regs := t.regs } ∧ OnlyRegs s t [R.CE_ECC_CNT.addr e 0 0])
      ∧ ∃ t, exec (.engineEccError e x false) s = .next t
        ∧ (if data then t.get R.CE_ERR_DMEM_ECC e else t.get R.CE_ERR_IMEM_ECC e) = 1
        ∧ OnlyBytes s t (if data then .dmem e else .imem e) (4 * word) 4
        ∧ (∀ f : Nat, f ≠ e → t.eng f = s.eng f)
        ∧ (data = true → (t.eng e).bad = (s.eng e).bad)
        ∧ (data = false → (s.eng e).bad.find? (fun p => p.1 == word) = none →
            (t.eng e).bad = tabPut (s.eng e).bad word (w32 (s.mword (.imem e) (4 * word)), (s.rd R.CE_ERR_EN e).testBit 1))
        ∧ t.eng e = { s.eng e with bad := (t.eng e).bad }
        ∧ t = { s with regs := t.regs, mem := t.mem, engs := t.engs, freeCtr := s.freeCtr + 1 } ∧ OnlyRegs s t [R.CE_ERR.addr e 0 0])

/-- With the loader READY and the selected engine HALTED, a write of CE_LD_DATA by Atelier or Patina stores the word, little-endian, at the selected word of the selected memory and no other byte, a read answers it, and each moves the address on by one; else the access is DENIED and the memory stays. ZERO on such an engine sets BUSY; its completion zeroes the whole selected memory, no other byte, and clears BUSY; with none in progress a completion does nothing. An accepted access while a clear is in progress finds it completed (model's choice, assumption 172). (spec/01_architecture.md, spec/03_chisel_engines.md) -/
def Obligations.EngineLoader : Prop :=
  (∀ (r : Requester) (v : Word) (s : State), isAtl r = true ∨ isPat r = true → writes s r (R.CE_LD_DATA.addr 0 0 0) = true →
    (loaderOk s true = true → ∃ u t, exec .loaderZeroDone s = .next u ∧ exec (.loaderDataWrite r v) s = .next t
      ∧ t.mword (loaderAt s).1 (loaderAt s).2 = v.toNat ∧ OnlyBytes u t (loaderAt s).1 (loaderAt s).2 4
      ∧ t.get R.CE_LD_ADDR_V = (s.get R.CE_LD_ADDR_V + 1) % 4096
      ∧ (∀ f : Nat, t.eng f = { u.eng f with bad := (t.eng f).bad }
          ∧ (f ≠ s.get R.CE_LD_SEL_LE ∨ s.on R.CE_LD_SEL_SPACE = true → (t.eng f).bad = (u.eng f).bad))
      ∧ t = { u with bus := {}, regs := t.regs, mem := t.mem, engs := t.engs } ∧ OnlyRegs u t [R.CE_LD_ADDR.addr 0 0 0])
    ∧ (loaderOk s true = false → ∃ t, exec (.loaderDataWrite r v) s = .next t ∧ t.get R.CE_LD_STAT_DENIED = 1
      ∧ t = { s with bus := {}, regs := t.regs } ∧ OnlyRegs s t [R.CE_LD_STAT.addr 0 0 0]))
  ∧ (∀ (r : Requester) (s : State), reads s r (R.CE_LD_DATA.addr 0 0 0) = true →
      (loaderOk s true = true → ∃ u t, exec .loaderZeroDone s = .next u ∧ exec (.loaderDataRead r) s = .next t
        ∧ t.bus = { rdata := w32 (u.mword (loaderAt s).1 (loaderAt s).2), err := false }
        ∧ t.get R.CE_LD_ADDR_V = (s.get R.CE_LD_ADDR_V + 1) % 4096
        ∧ t = { u with bus := t.bus, regs := t.regs } ∧ OnlyRegs u t [R.CE_LD_ADDR.addr 0 0 0])
      ∧ (loaderOk s true = false → ∃ t, exec (.loaderDataRead r) s = .next t ∧ t.bus = {} ∧ t.get R.CE_LD_STAT_DENIED = 1
        ∧ t = { s with bus := t.bus, regs := t.regs } ∧ OnlyRegs s t [R.CE_LD_STAT.addr 0 0 0]))
  ∧ (∀ (r : Requester) (v : Word) (s : State), isAtl r = true ∨ isPat r = true → writes s r (R.CE_LD_SEL.addr 0 0 0) = true →
      s.on R.CE_GSTAT_READY = true → bits v.toNat 0 6 < 48 → engState s (bits v.toNat 0 6) = 0 →
      ∃ u t, exec .loaderZeroDone s = .next u ∧ exec (.loaderZero r v) s = .next t ∧ t.get R.CE_LD_STAT_BUSY = 1
        ∧ t.engArr.zero = some (bits v.toNat 0 6, v.getLsbD 8)
        ∧ t = { u with bus := {}, regs := t.regs, engArr := { u.engArr with zero := t.engArr.zero } }
        ∧ OnlyRegs u t [R.CE_LD_SEL.addr 0 0 0, R.CE_LD_STAT.addr 0 0 0])
  ∧ (∀ s : State, s.engArr.zero = none → exec .loaderZeroDone s = .next s)
  ∧ (∀ (e : Nat) (data : Bool) (s : State), s.engArr.zero = some (e, data) → ∃ t, exec .loaderZeroDone s = .next t
      ∧ (∀ a : Nat, a < (if data then 8192 else 16384) → t.mrd (if data then .dmem e else .imem e) a = 0)
      ∧ OnlyBytes s t (if data then .dmem e else .imem e) 0 (if data then 8192 else 16384)
      ∧ (∀ f : Nat, t.eng f = { s.eng f with bad := if f = e ∧ data = false then [] else (s.eng f).bad })
      ∧ t.get R.CE_LD_STAT_BUSY = 0 ∧ t.engArr = { s.engArr with zero := none }
      ∧ t = { s with regs := t.regs, mem := t.mem, engs := t.engs, engArr := t.engArr }
      ∧ OnlyRegs s t [R.CE_LD_SEL.addr 0 0 0, R.CE_LD_STAT.addr 0 0 0])

/-- GO for an engine with cycles and a gap takes the best free spare as target and enters PRECOPY, for a HALTED engine it moves the mapping at once, and for a running one without cycles or gap it is abandoned; the end of the pre-copy waits for a gap; in a gap that is long enough the engine freezes, in a shorter one a refusal is counted; the end of the freeze moves the mapping to the target, records the freeze and restores the engine's state; CANCEL before the freeze returns the target to the spares. Registers and flags of the engine never change, and instruction words lost to ECC are reloaded. (R86, R87, R88, R89, R90) -/
def Obligations.EngineMigration : Prop :=
  (∀ (r : Requester) (v : Word) (p : Nat) (s : State), isAtl r = true ∨ isPat r = true → writes s r (R.CE_MIG_CTL.addr 0 0 0) = true →
    v.getLsbD 13 = false → migBusy s = false → bits v.toNat 0 6 < 48 → spareEngine s = some p → p < 52 →
    jobBoxes s (.engine (bits v.toNat 0 6)) = [] →
    ∃ t, exec (.migrationGo r v) s = .next t ∧ t.get R.CE_MIG_CTL_LE = bits v.toNat 0 6 ∧ t.get R.CE_MIG_STAT_REFUSALS = 0
      ∧ t.engArr.mig.target = p
      ∧ (∀ f : Nat, t.eng f = { s.eng f with bad := (t.eng f).bad })
      ∧ (engState s (bits v.toNat 0 6) ≠ 0 ∨ badDue (s.eng (bits v.toNat 0 6)) = [] → t.mem = s.mem)
      ∧ (engState s (bits v.toNat 0 6) = 0 → t.rd R.CE_MAP (bits v.toNat 0 6) = p ∧ t.get R.CE_MIG_STAT_STATE = 4)
      ∧ (engState s (bits v.toNat 0 6) ≠ 0 → s.on R.CE_CYC_EN (bits v.toNat 0 6) = true → s.get R.CE_GAP_LEN_V (bits v.toNat 0 6) ≠ 0 →
          t.get R.CE_MIG_STAT_STATE = 1 ∧ t.get R.PAT_CE_SPARE p = 0
          ∧ t.get R.CE_SPARES_FREE = (s.get R.CE_SPARES_FREE + 7) % 8)
      ∧ (engState s (bits v.toNat 0 6) ≠ 0 → s.on R.CE_CYC_EN (bits v.toNat 0 6) = false →
          t.get R.CE_MIG_STAT_STATE = 5 ∧ t.get R.PAT_CE_SPARE p = 1)
      ∧ t = { s with bus := {}, regs := t.regs, mem := t.mem, engs := t.engs, engArr := t.engArr, pat := t.pat, cmd := t.cmd })
  ∧ (∀ s : State, s.get R.CE_MIG_STAT_STATE = 1 → engState s (s.get R.CE_MIG_CTL_LE) ≠ 0 → ∃ t, exec .precopyDone s = .next t
      ∧ t.get R.CE_MIG_STAT_STATE = 2 ∧ t = { s with regs := t.regs } ∧ OnlyRegs s t [R.CE_MIG_STAT.addr 0 0 0])
  ∧ (∀ (e c : Nat) (s : State), s.get R.CE_MIG_CTL_LE = e → e < 48 → s.get R.CE_MIG_STAT_STATE = 2 → engActive s e = true →
      s.on R.CE_CYC_EN e = true → s.get R.CE_GAP_LEN_V e ≠ 0 → s.engArr.mig.gapSeen ≠ s.rd R.CE_CYC_CNT e + 1 →
      (s.eng e).cycAt = some c → c + s.rd R.CE_GAP_OFF e ≤ domTime s (igDom s (s.get R.CE_CYC_IG e)) →
      ∃ t, exec .migrationGap s = .next t ∧ t.engs = s.engs
        ∧ (freezeEst s e ≤ s.get R.CE_GAP_LEN_V e → engState t e = 4 ∧ t.get R.CE_MIG_STAT_STATE = 3
            ∧ t.engArr.mig.was = engState s e ∧ t.engArr.mig.freezeAt = s.now)
        ∧ (s.get R.CE_GAP_LEN_V e < freezeEst s e → s.get R.CE_MIG_STAT_REFUSALS + 1 < s.get R.CE_MIG_LIMIT_V →
            engState t e = engState s e ∧ t.get R.CE_MIG_STAT_STATE = 2
            ∧ t.get R.CE_MIG_STAT_REFUSALS = s.get R.CE_MIG_STAT_REFUSALS + 1))
  ∧ (∀ (e : Nat) (s : State), s.get R.CE_MIG_CTL_LE = e → e < 48 → s.get R.CE_MIG_STAT_STATE = 3 → (s.eng e).stopPend = false →
      (s.engArr.mig.was = 3 → s.on R.CE_CYC_EN e = true) →
      jobBoxes s (.engine e) = [] → s.engArr.mig.target < 52 → s.engArr.mig.was < 8 →
      ∃ t, exec .migrationResume s = .next t ∧ engState t e = s.engArr.mig.was ∧ t.rd R.CE_MAP e = s.engArr.mig.target
        ∧ t.get R.CE_LAST_FREEZE_V e = (s.now - s.engArr.mig.freezeAt) % 2 ^ 32 ∧ t.get R.CE_MIG_STAT_STATE = 4
        ∧ (∀ f : Nat, t.eng f = { s.eng f with bad := if f = e then badKept (s.eng f) else (s.eng f).bad })
        ∧ (badDue (s.eng e) = [] → t.mem = s.mem)
        ∧ (∀ (w : Fin 4096) (old : Word), badDue (s.eng e) = [(w.val, old, true)] → t.mword (.imem e) (4 * w) = old.toNat
            ∧ OnlyBytes s t (.imem e) (4 * w) 4))
  ∧ (∀ (r : Requester) (v : Word) (s : State), isAtl r = true ∨ isPat r = true → writes s r (R.CE_MIG_CTL.addr 0 0 0) = true →
      s.get R.CE_MIG_STAT_STATE = 1 ∨ s.get R.CE_MIG_STAT_STATE = 2 → jobBoxes s (.engine (s.get R.CE_MIG_CTL_LE)) = [] →
      s.engArr.mig.target < 52 →
      ∃ t, exec (.migrationCancel r v) s = .next t ∧ t.get R.CE_MIG_STAT_STATE = 0 ∧ t.get R.PAT_CE_SPARE s.engArr.mig.target = 1
        ∧ t.get R.CE_SPARES_FREE = (s.get R.CE_SPARES_FREE + 1) % 8 ∧ t = { s with bus := {}, regs := t.regs })

/-- For each of the 17 instructions of R107, issued by an engine whose write-backs stand in order: the result is that of the rule on the operands as the instruction's position reads them; ADD, ADC, SUB, SBC and CMP set Z, C, N and V (C of a subtraction: no borrow; V: the exact signed result does not fit), the logic and shift instructions Z and N, the multiplications none; the result is read from distance 2 (a product from 4) on, not before, and never in w0. The engine goes on to the next instruction; nothing else of it, no other engine and nothing else of the device changes. (R93, R94, R97, R98, R99, R107) -/
def Obligations.RegisterArithmetic : Prop :=
  ∀ (e : Fin 48) (s : State), Ordered (s.eng e) →
    (∀ wd wa wb : Fin 32, issues s e (.add wd wa wb) = true → ∃ t, exec (.add e wd wa wb) s = .next t
      ∧ Produces s t e 2 (some (wd, (((s.eng e).readAt (s.eng e).pos).reg wa) + (((s.eng e).readAt (s.eng e).pos).reg wb))) (flags4 ((((s.eng e).readAt (s.eng e).pos).reg wa) + (((s.eng e).readAt (s.eng e).pos).reg wb)) (decide (2 ^ 32 ≤ (((s.eng e).readAt (s.eng e).pos).reg wa).toNat + (((s.eng e).readAt (s.eng e).pos).reg wb).toNat)) ((((s.eng e).readAt (s.eng e).pos).reg wa).toInt + (((s.eng e).readAt (s.eng e).pos).reg wb).toInt)))
    ∧ (∀ wd wa wb : Fin 32, issues s e (.adc wd wa wb) = true → ∃ t, exec (.adc e wd wa wb) s = .next t
      ∧ Produces s t e 2 (some (wd, (((s.eng e).readAt (s.eng e).pos).reg wa) + (((s.eng e).readAt (s.eng e).pos).reg wb) + w32 ((s.eng e).readAt (s.eng e).pos).c.toNat)) (flags4 ((((s.eng e).readAt (s.eng e).pos).reg wa) + (((s.eng e).readAt (s.eng e).pos).reg wb) + w32 ((s.eng e).readAt (s.eng e).pos).c.toNat) (decide (2 ^ 32 ≤ (((s.eng e).readAt (s.eng e).pos).reg wa).toNat + (((s.eng e).readAt (s.eng e).pos).reg wb).toNat + ((s.eng e).readAt (s.eng e).pos).c.toNat)) ((((s.eng e).readAt (s.eng e).pos).reg wa).toInt + (((s.eng e).readAt (s.eng e).pos).reg wb).toInt + (((s.eng e).readAt (s.eng e).pos).c.toNat : Int))))
    ∧ (∀ wd wa wb : Fin 32, issues s e (.sub wd wa wb) = true → ∃ t, exec (.sub e wd wa wb) s = .next t
      ∧ Produces s t e 2 (some (wd, (((s.eng e).readAt (s.eng e).pos).reg wa) - (((s.eng e).readAt (s.eng e).pos).reg wb))) (flags4 ((((s.eng e).readAt (s.eng e).pos).reg wa) - (((s.eng e).readAt (s.eng e).pos).reg wb)) (decide ((((s.eng e).readAt (s.eng e).pos).reg wb).toNat ≤ (((s.eng e).readAt (s.eng e).pos).reg wa).toNat)) ((((s.eng e).readAt (s.eng e).pos).reg wa).toInt - (((s.eng e).readAt (s.eng e).pos).reg wb).toInt)))
    ∧ (∀ wd wa wb : Fin 32, issues s e (.sbc wd wa wb) = true → ∃ t, exec (.sbc e wd wa wb) s = .next t
      ∧ Produces s t e 2 (some (wd, (((s.eng e).readAt (s.eng e).pos).reg wa) - (((s.eng e).readAt (s.eng e).pos).reg wb) - w32 (!((s.eng e).readAt (s.eng e).pos).c).toNat)) (flags4 ((((s.eng e).readAt (s.eng e).pos).reg wa) - (((s.eng e).readAt (s.eng e).pos).reg wb) - w32 (!((s.eng e).readAt (s.eng e).pos).c).toNat) (decide ((((s.eng e).readAt (s.eng e).pos).reg wb).toNat + (!((s.eng e).readAt (s.eng e).pos).c).toNat ≤ (((s.eng e).readAt (s.eng e).pos).reg wa).toNat)) ((((s.eng e).readAt (s.eng e).pos).reg wa).toInt - (((s.eng e).readAt (s.eng e).pos).reg wb).toInt - ((!((s.eng e).readAt (s.eng e).pos).c).toNat : Int))))
    ∧ (∀ wa wb : Fin 32, issues s e (.cmp wa wb) = true → ∃ t, exec (.cmp e wa wb) s = .next t
      ∧ Produces s t e 2 none (flags4 ((((s.eng e).readAt (s.eng e).pos).reg wa) - (((s.eng e).readAt (s.eng e).pos).reg wb)) (decide ((((s.eng e).readAt (s.eng e).pos).reg wb).toNat ≤ (((s.eng e).readAt (s.eng e).pos).reg wa).toNat)) ((((s.eng e).readAt (s.eng e).pos).reg wa).toInt - (((s.eng e).readAt (s.eng e).pos).reg wb).toInt)))
    ∧ (∀ wd wa wb : Fin 32, issues s e (.and wd wa wb) = true → ∃ t, exec (.and e wd wa wb) s = .next t
      ∧ Produces s t e 2 (some (wd, (((s.eng e).readAt (s.eng e).pos).reg wa) &&& (((s.eng e).readAt (s.eng e).pos).reg wb))) (flagsZN ((((s.eng e).readAt (s.eng e).pos).reg wa) &&& (((s.eng e).readAt (s.eng e).pos).reg wb))))
    ∧ (∀ wd wa wb : Fin 32, issues s e (.or wd wa wb) = true → ∃ t, exec (.or e wd wa wb) s = .next t
      ∧ Produces s t e 2 (some (wd, (((s.eng e).readAt (s.eng e).pos).reg wa) ||| (((s.eng e).readAt (s.eng e).pos).reg wb))) (flagsZN ((((s.eng e).readAt (s.eng e).pos).reg wa) ||| (((s.eng e).readAt (s.eng e).pos).reg wb))))
    ∧ (∀ wd wa wb : Fin 32, issues s e (.xor wd wa wb) = true → ∃ t, exec (.xor e wd wa wb) s = .next t
      ∧ Produces s t e 2 (some (wd, (((s.eng e).readAt (s.eng e).pos).reg wa) ^^^ (((s.eng e).readAt (s.eng e).pos).reg wb))) (flagsZN ((((s.eng e).readAt (s.eng e).pos).reg wa) ^^^ (((s.eng e).readAt (s.eng e).pos).reg wb))))
    ∧ (∀ wd wa wb : Fin 32, issues s e (.andn wd wa wb) = true → ∃ t, exec (.andn e wd wa wb) s = .next t
      ∧ Produces s t e 2 (some (wd, (((s.eng e).readAt (s.eng e).pos).reg wa) &&& ~~~(((s.eng e).readAt (s.eng e).pos).reg wb))) (flagsZN ((((s.eng e).readAt (s.eng e).pos).reg wa) &&& ~~~(((s.eng e).readAt (s.eng e).pos).reg wb))))
    ∧ (∀ wa wb : Fin 32, issues s e (.tst wa wb) = true → ∃ t, exec (.tst e wa wb) s = .next t
      ∧ Produces s t e 2 none (flagsZN ((((s.eng e).readAt (s.eng e).pos).reg wa) &&& (((s.eng e).readAt (s.eng e).pos).reg wb))))
    ∧ (∀ wd wa wb : Fin 32, issues s e (.shl wd wa wb) = true → ∃ t, exec (.shl e wd wa wb) s = .next t
      ∧ Produces s t e 2 (some (wd, (((s.eng e).readAt (s.eng e).pos).reg wa) <<< ((((s.eng e).readAt (s.eng e).pos).reg wb).toNat % 32))) (flagsZN ((((s.eng e).readAt (s.eng e).pos).reg wa) <<< ((((s.eng e).readAt (s.eng e).pos).reg wb).toNat % 32))))
    ∧ (∀ wd wa wb : Fin 32, issues s e (.shr wd wa wb) = true → ∃ t, exec (.shr e wd wa wb) s = .next t
      ∧ Produces s t e 2 (some (wd, (((s.eng e).readAt (s.eng e).pos).reg wa) >>> ((((s.eng e).readAt (s.eng e).pos).reg wb).toNat % 32))) (flagsZN ((((s.eng e).readAt (s.eng e).pos).reg wa) >>> ((((s.eng e).readAt (s.eng e).pos).reg wb).toNat % 32))))
    ∧ (∀ wd wa wb : Fin 32, issues s e (.sar wd wa wb) = true → ∃ t, exec (.sar e wd wa wb) s = .next t
      ∧ Produces s t e 2 (some (wd, (((s.eng e).readAt (s.eng e).pos).reg wa).sshiftRight ((((s.eng e).readAt (s.eng e).pos).reg wb).toNat % 32))) (flagsZN ((((s.eng e).readAt (s.eng e).pos).reg wa).sshiftRight ((((s.eng e).readAt (s.eng e).pos).reg wb).toNat % 32))))
    ∧ (∀ wd wa wb : Fin 32, issues s e (.ror wd wa wb) = true → ∃ t, exec (.ror e wd wa wb) s = .next t
      ∧ Produces s t e 2 (some (wd, (((s.eng e).readAt (s.eng e).pos).reg wa).rotateRight ((((s.eng e).readAt (s.eng e).pos).reg wb).toNat % 32))) (flagsZN ((((s.eng e).readAt (s.eng e).pos).reg wa).rotateRight ((((s.eng e).readAt (s.eng e).pos).reg wb).toNat % 32))))
    ∧ (∀ wd wa wb : Fin 32, issues s e (.mul wd wa wb) = true → ∃ t, exec (.mul e wd wa wb) s = .next t
      ∧ Produces s t e 4 (some (wd, (((s.eng e).readAt (s.eng e).pos).reg wa) * (((s.eng e).readAt (s.eng e).pos).reg wb))) noFlags)
    ∧ (∀ wd wa wb : Fin 32, issues s e (.mulh wd wa wb) = true → ∃ t, exec (.mulh e wd wa wb) s = .next t
      ∧ Produces s t e 4 (some (wd, BitVec.ofInt 32 ((((s.eng e).readAt (s.eng e).pos).reg wa).toInt * (((s.eng e).readAt (s.eng e).pos).reg wb).toInt / 2 ^ 32))) noFlags)
    ∧ (∀ wd wa wb : Fin 32, issues s e (.mulhu wd wa wb) = true → ∃ t, exec (.mulhu e wd wa wb) s = .next t
      ∧ Produces s t e 4 (some (wd, BitVec.ofNat 32 ((((s.eng e).readAt (s.eng e).pos).reg wa).toNat * (((s.eng e).readAt (s.eng e).pos).reg wb).toNat / 2 ^ 32))) noFlags)

/-- For each of the 12 instructions of R108: as for the register formats, with the immediate sign-extended in ADDI, SUBI and CMPI, zero-extended in ANDI, ORI, XORI and TSTI, times 65,536 in LIH (which sets no flags), and a shift by n in SHLI, SHRI, SARI and RORI; results and flags are read from distance 2 on. (R93, R94, R98, R99, R108) -/
def Obligations.ImmediateArithmetic : Prop :=
  ∀ (e : Fin 48) (s : State), Ordered (s.eng e) →
    (∀ (wd wa : Fin 32) (imm : Fin 65536), issues s e (.addi wd wa imm) = true → ∃ t, exec (.addi e wd wa imm) s = .next t
      ∧ Produces s t e 2 (some (wd, (((s.eng e).readAt (s.eng e).pos).reg wa) + ((BitVec.ofNat 16 imm.val).signExtend 32))) (flags4 ((((s.eng e).readAt (s.eng e).pos).reg wa) + ((BitVec.ofNat 16 imm.val).signExtend 32)) (decide (2 ^ 32 ≤ (((s.eng e).readAt (s.eng e).pos).reg wa).toNat + ((BitVec.ofNat 16 imm.val).signExtend 32).toNat)) ((((s.eng e).readAt (s.eng e).pos).reg wa).toInt + ((BitVec.ofNat 16 imm.val).signExtend 32).toInt)))
    ∧ (∀ (wd wa : Fin 32) (imm : Fin 65536), issues s e (.subi wd wa imm) = true → ∃ t, exec (.subi e wd wa imm) s = .next t
      ∧ Produces s t e 2 (some (wd, (((s.eng e).readAt (s.eng e).pos).reg wa) - ((BitVec.ofNat 16 imm.val).signExtend 32))) (flags4 ((((s.eng e).readAt (s.eng e).pos).reg wa) - ((BitVec.ofNat 16 imm.val).signExtend 32)) (decide (((BitVec.ofNat 16 imm.val).signExtend 32).toNat ≤ (((s.eng e).readAt (s.eng e).pos).reg wa).toNat)) ((((s.eng e).readAt (s.eng e).pos).reg wa).toInt - ((BitVec.ofNat 16 imm.val).signExtend 32).toInt)))
    ∧ (∀ (wa : Fin 32) (imm : Fin 65536), issues s e (.cmpi wa imm) = true → ∃ t, exec (.cmpi e wa imm) s = .next t
      ∧ Produces s t e 2 none (flags4 ((((s.eng e).readAt (s.eng e).pos).reg wa) - ((BitVec.ofNat 16 imm.val).signExtend 32)) (decide (((BitVec.ofNat 16 imm.val).signExtend 32).toNat ≤ (((s.eng e).readAt (s.eng e).pos).reg wa).toNat)) ((((s.eng e).readAt (s.eng e).pos).reg wa).toInt - ((BitVec.ofNat 16 imm.val).signExtend 32).toInt)))
    ∧ (∀ (wd wa : Fin 32) (imm : Fin 65536), issues s e (.andi wd wa imm) = true → ∃ t, exec (.andi e wd wa imm) s = .next t
      ∧ Produces s t e 2 (some (wd, (((s.eng e).readAt (s.eng e).pos).reg wa) &&& (BitVec.ofNat 32 imm.val))) (flagsZN ((((s.eng e).readAt (s.eng e).pos).reg wa) &&& (BitVec.ofNat 32 imm.val))))
    ∧ (∀ (wd wa : Fin 32) (imm : Fin 65536), issues s e (.ori wd wa imm) = true → ∃ t, exec (.ori e wd wa imm) s = .next t
      ∧ Produces s t e 2 (some (wd, (((s.eng e).readAt (s.eng e).pos).reg wa) ||| (BitVec.ofNat 32 imm.val))) (flagsZN ((((s.eng e).readAt (s.eng e).pos).reg wa) ||| (BitVec.ofNat 32 imm.val))))
    ∧ (∀ (wd wa : Fin 32) (imm : Fin 65536), issues s e (.xori wd wa imm) = true → ∃ t, exec (.xori e wd wa imm) s = .next t
      ∧ Produces s t e 2 (some (wd, (((s.eng e).readAt (s.eng e).pos).reg wa) ^^^ (BitVec.ofNat 32 imm.val))) (flagsZN ((((s.eng e).readAt (s.eng e).pos).reg wa) ^^^ (BitVec.ofNat 32 imm.val))))
    ∧ (∀ (wa : Fin 32) (imm : Fin 65536), issues s e (.tsti wa imm) = true → ∃ t, exec (.tsti e wa imm) s = .next t
      ∧ Produces s t e 2 none (flagsZN ((((s.eng e).readAt (s.eng e).pos).reg wa) &&& (BitVec.ofNat 32 imm.val))))
    ∧ (∀ (wd : Fin 32) (imm : Fin 65536), issues s e (.lih wd imm) = true → ∃ t, exec (.lih e wd imm) s = .next t
      ∧ Produces s t e 2 (some (wd, BitVec.ofNat 32 (imm.val * 65536))) noFlags)
    ∧ (∀ (wd wa : Fin 32) (n : Fin 32), issues s e (.shli wd wa n) = true → ∃ t, exec (.shli e wd wa n) s = .next t
      ∧ Produces s t e 2 (some (wd, (((s.eng e).readAt (s.eng e).pos).reg wa) <<< n.val)) (flagsZN ((((s.eng e).readAt (s.eng e).pos).reg wa) <<< n.val)))
    ∧ (∀ (wd wa : Fin 32) (n : Fin 32), issues s e (.shri wd wa n) = true → ∃ t, exec (.shri e wd wa n) s = .next t
      ∧ Produces s t e 2 (some (wd, (((s.eng e).readAt (s.eng e).pos).reg wa) >>> n.val)) (flagsZN ((((s.eng e).readAt (s.eng e).pos).reg wa) >>> n.val)))
    ∧ (∀ (wd wa : Fin 32) (n : Fin 32), issues s e (.sari wd wa n) = true → ∃ t, exec (.sari e wd wa n) s = .next t
      ∧ Produces s t e 2 (some (wd, (((s.eng e).readAt (s.eng e).pos).reg wa).sshiftRight n.val)) (flagsZN ((((s.eng e).readAt (s.eng e).pos).reg wa).sshiftRight n.val)))
    ∧ (∀ (wd wa : Fin 32) (n : Fin 32), issues s e (.rori wd wa n) = true → ∃ t, exec (.rori e wd wa n) s = .next t
      ∧ Produces s t e 2 (some (wd, (((s.eng e).readAt (s.eng e).pos).reg wa).rotateRight n.val)) (flagsZN ((((s.eng e).readAt (s.eng e).pos).reg wa).rotateRight n.val)))

/-- CRCB advances the CRC state in wa by n + 1 bytes of wb, one after the other, least significant first; BFX and BFXR give the field of w + 1 bits from the position on, bits beyond bit 31 as 0, sign-extended from the field's top bit where SX is set; BFI gives wd with the field of w + 1 bits at the position replaced by the low bits of wa, bits beyond bit 31 dropped. None sets a flag; the result is read from distance 2 on and nothing else changes. (R98, R99, R123, R124) -/
def Obligations.FieldInstructions : Prop :=
  (∀ (e : Fin 48) (s : State), Ordered (s.eng e) →
    (∀ (wd wa wb : Fin 32) (poly : Fin 6) (n : Fin 4), issues s e (.crcb wd wa wb poly n) = true → ∃ t, exec (.crcb e wd wa wb poly n) s = .next t
      ∧ Produces s t e 2 (some (wd, w32 (crcb (((s.eng e).readAt (s.eng e).pos).reg wa).toNat (((s.eng e).readAt (s.eng e).pos).reg wb).toNat poly (n.val + 1)))) noFlags)
    ∧ (∀ (wd wa : Fin 32) (sx : Bool) (w pos : Fin 32), issues s e (.bfx wd wa sx w pos) = true → ∃ t, exec (.bfx e wd wa sx w pos) s = .next t
      ∧ Produces s t e 2 (some (wd, (if sx && (bits (((s.eng e).readAt (s.eng e).pos).reg wa).toNat pos.val (w.val + 1)).testBit w.val then (BitVec.ofNat 32 (bits (((s.eng e).readAt (s.eng e).pos).reg wa).toNat pos.val (w.val + 1))) - BitVec.ofNat 32 (2 ^ (w.val + 1)) else (BitVec.ofNat 32 (bits (((s.eng e).readAt (s.eng e).pos).reg wa).toNat pos.val (w.val + 1)))))) noFlags)
    ∧ (∀ (wd wa wb : Fin 32) (sx : Bool) (w : Fin 32), issues s e (.bfxr wd wa wb sx w) = true → ∃ t, exec (.bfxr e wd wa wb sx w) s = .next t
      ∧ Produces s t e 2 (some (wd, (if sx && (bits (((s.eng e).readAt (s.eng e).pos).reg wa).toNat ((((s.eng e).readAt (s.eng e).pos).reg wb).toNat % 32) (w.val + 1)).testBit w.val then (BitVec.ofNat 32 (bits (((s.eng e).readAt (s.eng e).pos).reg wa).toNat ((((s.eng e).readAt (s.eng e).pos).reg wb).toNat % 32) (w.val + 1))) - BitVec.ofNat 32 (2 ^ (w.val + 1)) else (BitVec.ofNat 32 (bits (((s.eng e).readAt (s.eng e).pos).reg wa).toNat ((((s.eng e).readAt (s.eng e).pos).reg wb).toNat % 32) (w.val + 1)))))) noFlags)
    ∧ (∀ (wd wa w : Fin 32) (byReg : Bool) (pos : Fin 32), issues s e (.bfi wd wa w byReg pos) = true → ∃ t, exec (.bfi e wd wa w byReg pos) s = .next t
      ∧ Produces s t e 2 (some (wd, insertField (((s.eng e).readAt (s.eng e).pos).reg wd) (((s.eng e).readAt (s.eng e).pos).reg wa) w (if byReg then (((s.eng e).readAt (s.eng e).pos).reg pos).toNat % 32 else pos.val))) noFlags))
  ∧ (∀ (old v : Word) (w pos : Fin 32) (i : Nat), i < 32 → (insertField old v w pos).getLsbD i
      = (if pos.val ≤ i ∧ i ≤ pos.val + w.val then v.getLsbD (i - pos.val) else old.getLsbD i))
  ∧ (∀ (st : Word) (b : Word) (poly : Fin 6) (n : Nat), crcb st.toNat b.toNat poly (n + 1)
      = crcb (crcb st.toNat b.toNat poly 1) (b.toNat / 256) poly n)

/-- A load gives the little-endian word, half-word or byte at the effective address (wa plus the sign-extended immediate, modulo 8 KiB, its low bits ignored to the access's size) of the engine's own data memory, zero- or sign-extended, read from distance 3 on; memory is unchanged. A store writes the low bytes of wd there and no other byte, changes no register, and notes the word as written (CE_DIRTY_HW, CE_FREEZE_EST, the migration's list). Nothing else changes. (R86, R88, R96, R98, R99, R109) -/
def Obligations.LoadsAndStores : Prop :=
  ∀ (e : Fin 48) (s : State), Ordered (s.eng e) →
    (∀ (wd wa : Fin 32) (imm : Fin 65536), issues s e (.ldw wd wa imm) = true → ∃ t, exec (.ldw e wd wa imm) s = .next t
      ∧ Produces s t e 3 (some (wd, s.mrd (.dmem e) ((effAddr ((s.eng e).readAt (s.eng e).pos) wa imm) / 4 * 4 + 3) ++ s.mrd (.dmem e) ((effAddr ((s.eng e).readAt (s.eng e).pos) wa imm) / 4 * 4 + 2) ++ s.mrd (.dmem e) ((effAddr ((s.eng e).readAt (s.eng e).pos) wa imm) / 4 * 4 + 1) ++ s.mrd (.dmem e) ((effAddr ((s.eng e).readAt (s.eng e).pos) wa imm) / 4 * 4 + 0))) noFlags)
    ∧ (∀ (wd wa : Fin 32) (imm : Fin 65536), issues s e (.ldh wd wa imm) = true → ∃ t, exec (.ldh e wd wa imm) s = .next t
      ∧ Produces s t e 3 (some (wd, (s.mrd (.dmem e) ((effAddr ((s.eng e).readAt (s.eng e).pos) wa imm) / 2 * 2 + 1) ++ s.mrd (.dmem e) ((effAddr ((s.eng e).readAt (s.eng e).pos) wa imm) / 2 * 2 + 0)).setWidth 32)) noFlags)
    ∧ (∀ (wd wa : Fin 32) (imm : Fin 65536), issues s e (.ldhs wd wa imm) = true → ∃ t, exec (.ldhs e wd wa imm) s = .next t
      ∧ Produces s t e 3 (some (wd, (s.mrd (.dmem e) ((effAddr ((s.eng e).readAt (s.eng e).pos) wa imm) / 2 * 2 + 1) ++ s.mrd (.dmem e) ((effAddr ((s.eng e).readAt (s.eng e).pos) wa imm) / 2 * 2 + 0)).signExtend 32)) noFlags)
    ∧ (∀ (wd wa : Fin 32) (imm : Fin 65536), issues s e (.ldb wd wa imm) = true → ∃ t, exec (.ldb e wd wa imm) s = .next t
      ∧ Produces s t e 3 (some (wd, (s.mrd (.dmem e) (effAddr ((s.eng e).readAt (s.eng e).pos) wa imm)).setWidth 32)) noFlags)
    ∧ (∀ (wd wa : Fin 32) (imm : Fin 65536), issues s e (.ldbs wd wa imm) = true → ∃ t, exec (.ldbs e wd wa imm) s = .next t
      ∧ Produces s t e 3 (some (wd, (s.mrd (.dmem e) (effAddr ((s.eng e).readAt (s.eng e).pos) wa imm)).signExtend 32)) noFlags)
    ∧ (∀ (wd wa : Fin 32) (imm : Fin 65536), issues s e (.stw wd wa imm) = true → ∃ t, exec (.stw e wd wa imm) s = .next t
      ∧ (∀ i : Nat, i < 4 → t.mrd (.dmem e) (storeAddr ((s.eng e).readAt (s.eng e).pos) wa imm 4 + i) = BitVec.ofNat 8 ((((s.eng e).readAt (s.eng e).pos).reg wd).toNat / 256 ^ i))
      ∧ (∀ q : Nat, q < (Space.dmem e).base + storeAddr ((s.eng e).readAt (s.eng e).pos) wa imm 4 ∨ (Space.dmem e).base + storeAddr ((s.eng e).readAt (s.eng e).pos) wa imm 4 + 4 ≤ q →
          tabGet 0 t.mem q = tabGet 0 s.mem q)
      ∧ Retired (s.eng e) (t.eng e) 0 none noFlags ∧ (∀ g : Nat, g ≠ e → t.eng g = s.eng g)
      ∧ t = { s with regs := t.regs, mem := t.mem, engs := t.engs, engArr := { s.engArr with mig := { s.engArr.mig with dirty := t.engArr.mig.dirty } } }
      ∧ OnlyRegs s t [R.CE_DIRTY_HW.addr e 0 0, R.CE_FREEZE_EST.addr e 0 0])
    ∧ (∀ (wd wa : Fin 32) (imm : Fin 65536), issues s e (.sth wd wa imm) = true → ∃ t, exec (.sth e wd wa imm) s = .next t
      ∧ (∀ i : Nat, i < 2 → t.mrd (.dmem e) (storeAddr ((s.eng e).readAt (s.eng e).pos) wa imm 2 + i) = BitVec.ofNat 8 ((((s.eng e).readAt (s.eng e).pos).reg wd).toNat / 256 ^ i))
      ∧ (∀ q : Nat, q < (Space.dmem e).base + storeAddr ((s.eng e).readAt (s.eng e).pos) wa imm 2 ∨ (Space.dmem e).base + storeAddr ((s.eng e).readAt (s.eng e).pos) wa imm 2 + 2 ≤ q →
          tabGet 0 t.mem q = tabGet 0 s.mem q)
      ∧ Retired (s.eng e) (t.eng e) 0 none noFlags ∧ (∀ g : Nat, g ≠ e → t.eng g = s.eng g)
      ∧ t = { s with regs := t.regs, mem := t.mem, engs := t.engs, engArr := { s.engArr with mig := { s.engArr.mig with dirty := t.engArr.mig.dirty } } }
      ∧ OnlyRegs s t [R.CE_DIRTY_HW.addr e 0 0, R.CE_FREEZE_EST.addr e 0 0])
    ∧ (∀ (wd wa : Fin 32) (imm : Fin 65536), issues s e (.stb wd wa imm) = true → ∃ t, exec (.stb e wd wa imm) s = .next t
      ∧ (∀ i : Nat, i < 1 → t.mrd (.dmem e) (storeAddr ((s.eng e).readAt (s.eng e).pos) wa imm 1 + i) = BitVec.ofNat 8 ((((s.eng e).readAt (s.eng e).pos).reg wd).toNat / 256 ^ i))
      ∧ (∀ q : Nat, q < (Space.dmem e).base + storeAddr ((s.eng e).readAt (s.eng e).pos) wa imm 1 ∨ (Space.dmem e).base + storeAddr ((s.eng e).readAt (s.eng e).pos) wa imm 1 + 1 ≤ q →
          tabGet 0 t.mem q = tabGet 0 s.mem q)
      ∧ Retired (s.eng e) (t.eng e) 0 none noFlags ∧ (∀ g : Nat, g ≠ e → t.eng g = s.eng g)
      ∧ t = { s with regs := t.regs, mem := t.mem, engs := t.engs, engArr := { s.engArr with mig := { s.engArr.mig with dirty := t.engArr.mig.dirty } } }
      ∧ OnlyRegs s t [R.CE_DIRTY_HW.addr e 0 0, R.CE_FREEZE_EST.addr e 0 0])

/-- A command for an instruction that does not issue changes nothing. B and BL transfer to (A + k) mod 4,096 after the delay slot when the condition holds, and go on otherwise; a taken BL and JALR put (A + 2) mod 4,096 in w31 and wd; JR and JALR go to wa[11:0] after the delay slot. HALT completes every pending write-back and leaves the engine HALTED with CE_ERR.HALT. EVS sets line 28 + k of the engine in wa[5:0], from 48 on it sets IO_RSVD. NOP does nothing; an undefined instruction does nothing but set ILL_OP. The conditions from 8 on are the complements of those below. (R100, R101, R103, R106, R110, R111, R121) -/
def Obligations.ControlTransfers : Prop :=
  (∀ (e : Fin 48) (s : State) (wa : Fin 32), issues s e (.jr wa) = false → exec (.jr e wa) s = .next s)
  ∧ (∀ (k : Fin 8) (z c n v : Bool), condHolds ⟨k.val + 8, by omega⟩ z c n v = !condHolds ⟨k.val, by omega⟩ z c n v)
  ∧ (∀ (e : Fin 48) (s : State), Ordered (s.eng e) →
    (∀ (cond : Fin 16) (off : Fin 2097152), issues s e (.b cond off) = true → ∃ t, exec (.b e cond off) s = .next t
      ∧ Retired (s.eng e) (t.eng e) 0 none noFlags ∧ IssueOnly (s.eng e) (t.eng e) ∧ t = { s with engs := t.engs }
      ∧ (t.eng e).npc = if condHolds cond ((s.eng e).readAt (s.eng e).pos).z ((s.eng e).readAt (s.eng e).pos).c
          ((s.eng e).readAt (s.eng e).pos).n ((s.eng e).readAt (s.eng e).pos).v
          then BitVec.ofNat 12 ((s.eng e).pc.toNat + off.val) else (s.eng e).npc + 1)
    ∧ (∀ (cond : Fin 16) (off : Fin 2097152), issues s e (.bl cond off) = true → ∃ t, exec (.bl e cond off) s = .next t
      ∧ IssueOnly (s.eng e) (t.eng e) ∧ t = { s with engs := t.engs }
      ∧ (condHolds cond ((s.eng e).readAt (s.eng e).pos).z ((s.eng e).readAt (s.eng e).pos).c
          ((s.eng e).readAt (s.eng e).pos).n ((s.eng e).readAt (s.eng e).pos).v = true →
          (t.eng e).npc = BitVec.ofNat 12 ((s.eng e).pc.toNat + off.val)
          ∧ Retired (s.eng e) (t.eng e) 2 (some (31, BitVec.ofNat 32 (((s.eng e).pc.toNat + 2) % 4096))) noFlags)
      ∧ (condHolds cond ((s.eng e).readAt (s.eng e).pos).z ((s.eng e).readAt (s.eng e).pos).c
          ((s.eng e).readAt (s.eng e).pos).n ((s.eng e).readAt (s.eng e).pos).v = false → Produces s t e 0 none noFlags))
    ∧ (∀ wa : Fin 32, issues s e (.jr wa) = true → ∃ t, exec (.jr e wa) s = .next t ∧ Retired (s.eng e) (t.eng e) 0 none noFlags
      ∧ (t.eng e).npc = (((s.eng e).readAt (s.eng e).pos).reg wa).setWidth 12 ∧ IssueOnly (s.eng e) (t.eng e) ∧ t = { s with engs := t.engs })
    ∧ (∀ wd wa : Fin 32, issues s e (.jalr wd wa) = true → ∃ t, exec (.jalr e wd wa) s = .next t
      ∧ Retired (s.eng e) (t.eng e) 2 (some (wd, BitVec.ofNat 32 (((s.eng e).pc.toNat + 2) % 4096))) noFlags
      ∧ (t.eng e).npc = (((s.eng e).readAt (s.eng e).pos).reg wa).setWidth 12 ∧ IssueOnly (s.eng e) (t.eng e) ∧ t = { s with engs := t.engs })
    ∧ (issues s e .nop = true → ∃ t, exec (.engineNop e) s = .next t ∧ Produces s t e 0 none noFlags)
    ∧ (issues s e .undefined = true → ∃ t, exec (.undefinedInstruction e) s = .next t ∧ t.get R.CE_ERR_ILL_OP e = 1
      ∧ Retired (s.eng e) (t.eng e) 0 none noFlags ∧ (t.eng e).npc = (s.eng e).npc + 1 ∧ IssueOnly (s.eng e) (t.eng e)
      ∧ t = { s with regs := t.regs, engs := t.engs } ∧ OnlyRegs s t [R.CE_ERR.addr e 0 0])
    ∧ (issues s e .halt = true → ∃ t, exec (.halt e) s = .next t ∧ engState t e = 0 ∧ t.get R.CE_ERR_HALT e = 1 ∧ (t.eng e).wbs = []
      ∧ (∀ (p : Nat) (k : Fin 32), (s.eng e).pos ≤ p → (∀ b ∈ (s.eng e).wbs, b.slot ≤ p) → (t.eng e).reg k = ((s.eng e).readAt p).reg k)
      ∧ t = { s with regs := t.regs, engs := t.engs } ∧ OnlyRegs s t [R.CE_STAT.addr e 0 0, R.CE_ERR.addr e 0 0])
    ∧ (∀ (wa : Fin 32) (line : Fin 4), issues s e (.evs wa line) = true → ∃ t, exec (.evs e wa line) s = .next t
      ∧ (∀ x : Nat, (((s.eng e).readAt (s.eng e).pos).reg wa).toNat % 64 = x → x < 48 →
          (t.eng x).events = (s.eng x).events ||| w32 (2 ^ (28 + line.val)) ∧ t = { s with engs := t.engs })
      ∧ (48 ≤ (((s.eng e).readAt (s.eng e).pos).reg wa).toNat % 64 → t.get R.CE_ERR_IO_RSVD e = 1 ∧ (t.eng e).events = (s.eng e).events
          ∧ t = { s with regs := t.regs, engs := t.engs })))

/-- IN of CYC_CNT gives its word at distance 4, of a reserved address 0 with IO_RSVD; INW of the receive FIFO takes its next word or leaves the engine waiting until a word is there, and the completion takes it. OUT queues the write; a delivery gives the oldest one to its unit: EV_CLR clears event lines, a reserved address sets IO_RSVD. OUTW to Atelier's FIFO puts the word in, or waits until there is room. WAIT completes when its mask is 0 or its lines are pending (any, or all), gives them, and clears them unless KEEP; else the engine is WAITING. WAITT completes when its target has passed, with the domain's time. (R70, R71, R74, R98, R112, R113, R114, R115, R116, R117, R120) -/
def Obligations.EngineIoAndWaits : Prop :=
  ∀ (e : Fin 48) (s : State), Ordered (s.eng e) →
    (∀ wd : Fin 32, issues s e (.ioIn wd 2 none) = true → ∃ t, exec (.ioIn e wd 2 none) s = .next t
      ∧ Produces s t e 4 (some (wd, w32 (s.rd R.CE_CYC_CNT e))) noFlags)
    ∧ (∀ wd : Fin 32, issues s e (.ioIn wd 7 none) = true → ∃ t, exec (.ioIn e wd 7 none) s = .next t ∧ t.get R.CE_ERR_IO_RSVD e = 1
      ∧ Retired (s.eng e) (t.eng e) 4 (some (wd, 0)) noFlags ∧ t = { s with regs := t.regs, engs := t.engs }
      ∧ OnlyRegs s t [R.CE_ERR.addr e 0 0])
    ∧ (∀ wd : Fin 32, issues s e (.ioInw wd 0x100 none) = true → ∃ t, exec (.ioInw e wd 0x100 none) s = .next t ∧ t = { s with engs := t.engs }
      ∧ (∀ x rest, (s.eng e).winA.rx = x :: rest → ioIdle (s.eng e) = true → (t.eng e).winA.rx = rest ∧ (t.eng e).winA.rxs = x.stat
          ∧ Retired (s.eng e) (t.eng e) 4 (some (wd, x.data)) noFlags)
      ∧ ((s.eng e).winA.rx = [] → (t.eng e).wait = .ioRead 0x100 wd ∧ Retired (s.eng e) (t.eng e) 0 none noFlags))
    ∧ (∀ (wd : Nat) x rest, engRuns s e = true → (s.eng e).wait = .ioRead 0x100 wd → (s.eng e).winA.rx = x :: rest → ioIdle (s.eng e) = true →
      ∃ t, exec (.inwComplete e) s = .next t ∧ (t.eng e).winA.rx = rest ∧ (t.eng e).wait = .none ∧ t = { s with engs := t.engs }
        ∧ (t.eng e).wbs = (s.eng e).wbs ++ [⟨max ((s.eng e).pos - 1 + 4) (s.eng e).lastW, some (wd, x.data), none⟩])
    ∧ (∀ (wd : Fin 32) (io : Fin 4096) (idx : Option (Fin 32)), issues s e (.ioOut wd io idx) = true → ∃ t, exec (.ioOut e wd io idx) s = .next t
      ∧ (t.eng e).outQ = (s.eng e).outQ ++ [(ioAddr ((s.eng e).readAt (s.eng e).pos) io idx, ((s.eng e).readAt (s.eng e).pos).reg wd)]
      ∧ Retired (s.eng e) (t.eng e) 0 none noFlags ∧ t = { s with engs := t.engs })
    ∧ (∀ (a : Nat) (v : Word) rest, (s.eng e).closing = none → (s.eng e).outQ = (a, v) :: rest → ∃ t, exec (.ioWriteDelivery e) s = .next t
      ∧ (a = 0x00A → (t.eng e).outQ = rest ∧ (t.eng e).events = (s.eng e).events &&& ~~~v ∧ t = { s with engs := t.engs })
      ∧ (a = 0x007 → (t.eng e).outQ = rest ∧ t.get R.CE_ERR_IO_RSVD e = 1 ∧ t = { s with regs := t.regs, engs := t.engs }))
    ∧ (∀ wd : Fin 32, issues s e (.ioOutw wd 0x380 none) = true → ioIdle (s.eng e) = true → ∃ t, exec (.ioOutw e wd 0x380 none) s = .next t
      ∧ t = { s with engs := t.engs } ∧ Retired (s.eng e) (t.eng e) 0 none noFlags
      ∧ ((s.eng e).atlTx.length < 8 → (t.eng e).atlTx = (s.eng e).atlTx ++ [((s.eng e).readAt (s.eng e).pos).reg wd] ∧ (t.eng e).wait = .none)
      ∧ (8 ≤ (s.eng e).atlTx.length → (t.eng e).wait = .ioWrite 0x380 (((s.eng e).readAt (s.eng e).pos).reg wd)))
    ∧ (∀ v : Word, engRuns s e = true → (s.eng e).wait = .ioWrite 0x380 v → (s.eng e).atlTx.length < 8 → ioIdle (s.eng e) = true →
      ∃ t, exec (.outwComplete e) s = .next t ∧ (t.eng e).atlTx = (s.eng e).atlTx ++ [v] ∧ (t.eng e).wait = .none ∧ t = { s with engs := t.engs })
    ∧ (∀ (wd wa : Fin 32) (keep all : Bool) (m : Word), ((s.eng e).readAt (s.eng e).pos).reg wa = m → engState s e ≠ 2 →
      issues s e (.wait wd wa keep all) = true → ∃ t, exec (.wait e wd wa keep all) s = .next t ∧ t = { s with regs := t.regs, engs := t.engs }
      ∧ (linesDone m (pendLines s e) all = true → Retired (s.eng e) (t.eng e) 4 (some (wd, pendLines s e &&& m)) noFlags
          ∧ (t.eng e).events = (if keep then (s.eng e).events else (s.eng e).events &&& ~~~(pendLines s e &&& m))
          ∧ (t.eng e).wait = .none ∧ engState t e = engState s e)
      ∧ (linesDone m (pendLines s e) all = false → (t.eng e).wait = .lines m keep all wd ∧ (t.eng e).events = (s.eng e).events
          ∧ engState t e = if engState s e = 1 then 2 else engState s e))
    ∧ (∀ (m : Word) (keep all : Bool) (wd : Nat), engRuns s e = true → (s.eng e).wait = .lines m keep all wd →
      linesDone m (pendLines s e) all = true → ∃ t, exec (.waitComplete e) s = .next t ∧ (t.eng e).wait = .none
        ∧ (t.eng e).events = (if keep then (s.eng e).events else (s.eng e).events &&& ~~~(pendLines s e &&& m))
        ∧ (t.eng e).wbs = (s.eng e).wbs ++ [⟨max ((s.eng e).pos - 1 + 4) (s.eng e).lastW, some (wd, pendLines s e &&& m), none⟩]
        ∧ engState t e = (if engState s e = 2 then 1 else engState s e) ∧ t = { s with regs := t.regs, engs := t.engs })
    ∧ (∀ (wd wa : Fin 32) (dom : Fin 2) (m : Word), ((s.eng e).readAt (s.eng e).pos).reg wa = m → engState s e ≠ 2 →
      issues s e (.waitt wd wa dom) = true → ∃ t, exec (.waitt e wd wa dom) s = .next t ∧ t = { s with regs := t.regs, engs := t.engs }
      ∧ (reached (domView s dom) m.toNat = true → Retired (s.eng e) (t.eng e) 4 (some (wd, w32 (domTime s dom))) noFlags)
      ∧ (reached (domView s dom) m.toNat = false → (t.eng e).wait = .time dom m wd))
    ∧ (∀ (dom wd : Nat) (m : Word), engRuns s e = true → (s.eng e).wait = .time dom m wd → reached (domView s dom) m.toNat = true →
      ∃ t, exec (.waittComplete e) s = .next t ∧ (t.eng e).wait = .none
        ∧ (t.eng e).wbs = (s.eng e).wbs ++ [⟨max ((s.eng e).pos - 1 + 4) (s.eng e).lastW, some (wd, w32 (domTime s dom)), none⟩]
        ∧ t = { s with regs := t.regs, engs := t.engs })

/-- For every instruction of the engines but the I/O accesses, and for the completions of WAIT and WAITT: if every engine's write-backs stand in the order of their slots with none beyond the last slot given out, they do so after the command. That this holds after reset follows from the reset state, in which no write-back is pending. (R98, R99) -/
def Obligations.WriteBackOrder : Prop :=
  ∀ (e : Fin 48) (c : Instr) (s t : State),
    ((∃ wd wa wb : Fin 32, c ∈ [.add e wd wa wb, .adc e wd wa wb, .sub e wd wa wb, .sbc e wd wa wb, .cmp e wa wb, .and e wd wa wb,
        .or e wd wa wb, .xor e wd wa wb, .andn e wd wa wb, .tst e wa wb, .shl e wd wa wb, .shr e wd wa wb, .sar e wd wa wb,
        .ror e wd wa wb, .mul e wd wa wb, .mulh e wd wa wb, .mulhu e wd wa wb, .shli e wd wa wb, .shri e wd wa wb, .sari e wd wa wb,
        .rori e wd wa wb, .jr e wa, .jalr e wd wa])
      ∨ (∃ (wd wa : Fin 32) (imm : Fin 65536), c ∈ [.addi e wd wa imm, .subi e wd wa imm, .cmpi e wa imm, .andi e wd wa imm,
        .ori e wd wa imm, .xori e wd wa imm, .tsti e wa imm, .lih e wd imm, .ldw e wd wa imm, .ldh e wd wa imm, .ldhs e wd wa imm,
        .ldb e wd wa imm, .ldbs e wd wa imm, .stw e wd wa imm, .sth e wd wa imm, .stb e wd wa imm])
      ∨ (∃ cond off, c ∈ [.b e cond off, .bl e cond off]) ∨ (∃ wd wa keep all, c = .wait e wd wa keep all)
      ∨ (∃ wd wa dom, c = .waitt e wd wa dom) ∨ (∃ wa line, c = .evs e wa line)
      ∨ (∃ wd wa wb poly n, c = .crcb e wd wa wb poly n) ∨ (∃ wd wa sx w pos, c = .bfx e wd wa sx w pos)
      ∨ (∃ wd wa wb sx w, c = .bfxr e wd wa wb sx w) ∨ (∃ wd wa w byReg pos, c = .bfi e wd wa w byReg pos)
      ∨ c ∈ [.engineNop e, .halt e, .undefinedInstruction e, .waitComplete e, .waittComplete e]) →
    (∀ f : Nat, Ordered (s.eng f)) → exec c s = .next t → ∀ f : Nat, Ordered (t.eng f)

/-- A leader at S_k counts the cycle on, is owed one more return and sends the frame of the cycle with its own ID; a candidate in COLDSTART that gets its own frame back in time is LEADER from that frame's time, and on another's frame, or none, it goes to LISTEN, as a leader does after four cycles without a return and a node at its listen timeout, a candidate then sending its cold-start frame and going on to COLDSTART. In LISTEN a valid cyclic frame gives the cycle, the second in a row makes the node ACTIVE; at the leader it clears the count of missing returns. A delay request that is due and a DATA frame wait for the node's mini-slot, in which one of them is sent; a response adds a result, the last four kept; a DATA frame for the node is kept. No other instance changes. That S_k lies less than a cycle before LEADER_TIME by an unknown time is the model's choice (assumption 92). (R186, R187, R188, R190, R193, R194, R195, R203, R204, R205) -/
def Obligations.FriezeNode : Prop :=
  ∀ (i : Fin 256) (s : State) (x : FzInst), s.fzi i = x → x.role ≠ 2 → x.cfg.da.length = 6 →
    (x.st = 3 → x.s0 + x.cfg.cycle ≤ fzNow s i → x.missed < 4 → fzLeads s i = true → ∃ t, exec (.cyclicFrameOriginate i) s = .next t
      ∧ FzStep s t i { x with sample := ((fzSample s i).fzi i).sample, k := (x.k + 1) % 2 ^ 32, s0 := x.s0 + x.cfg.cycle, missed := x.missed + 1, mini := false }
      ∧ (x.port < 24 → spliceFree s x.port = true → s.on R.TB_PORT_CFG_ONESTEP x.port = false → x.cfg.node < 128 →
          fzCycle (t.port x.port).wire = (x.k + 1) % 2 ^ 32 ∧ fzType (t.port x.port).wire = 0 ∧ fzSrc (t.port x.port).wire = x.cfg.node))
    ∧ (∀ f : List Byte, x.role = 1 → x.st = 1 → fzOurs x.cfg f = true → fzType f = 1 →
      ∃ t, exec (.coldstartRelayReceive i f) s = .next t ∧ FzStep s t i
        (if fzSrc f = x.cfg.node ∧ fzNow s i ≤ x.csAt + x.cfg.cycle then { x with st := 3, s0 := x.csAt, k := 0, missed := 0, up := 0, phased := true }
          else inListen s x (fzNow s i)))
    ∧ (x.st = 1 → x.csAt + x.cfg.cycle < fzNow s i → ∃ t, exec (.coldstartTimeout i) s = .next t ∧ FzStep s t i (inListen s x (fzNow s i)))
    ∧ (x.st = 3 → 4 ≤ x.missed → x.s0 + x.cfg.cycle ≤ fzNow s i → ∃ t, exec (.leaderReturnTimeout i) s = .next t ∧ FzStep s t i (inListen s x x.since))
    ∧ ((s.inst i).used = true → x.st = 0 ∨ x.st = 2 → x.since + 4 * x.cfg.cycle + x.cfg.node * 2000 ≤ fzNow s i →
      ∃ t, exec (.listenTimeout i) s = .next t
        ∧ (x.cfg.cand = false ∨ x.role = 0 → FzStep s t i (inListen s x (fzNow s i)))
        ∧ (x.cfg.cand = true → x.role = 1 → s.get R.TB_D_CTL_MODE x.dom ≠ 2 →
            FzStep s t i { inListen s x (fzNow s i) with st := 1, csAt := if spliceFree s x.port then fzStampNow s i x.port else fzNow s i }
            ∧ (x.port < 24 → spliceFree s x.port = true → s.on R.TB_PORT_CFG_ONESTEP x.port = false → x.cfg.node < 128 →
                (t.port x.port).wire.length = 64 ∧ fzType (t.port x.port).wire = 1 ∧ fzSrc (t.port x.port).wire = x.cfg.node
                ∧ fzCycle (t.port x.port).wire = 0 ∧ fzNodes (t.port x.port).wire = 0)))
    ∧ (∀ (f : List Byte) (age : BitVec 32), (s.inst i).used = true →
      (x.st = 0 → FzCalm s i x → ∃ t, ∃ d : Nat, exec (.cyclicFrameReceive i f age) s = .next t ∧ (0 < x.cfg.cycle → d < x.cfg.cycle)
        ∧ FzStep s t i (if fzValid x f then
          { x with k := fzCycle f, rxK := fzCycle f, valid := x.valid + 1, since := (fzRx t i x.port age.toNat / 4).toNat,
                   mini := x.mini && fzCycle f == x.k, got := true, acq := false, st := if x.valid = 0 then 0 else 2,
                   phased := x.phased || x.valid != 0, s0 := if x.valid = 0 then x.s0 else fzTime f - d }
          else if fzCyclic x.cfg f then { x with got := true } else x))
      ∧ (x.st = 3 → fzValid x f = true → sectStatus x.cfg f (slotPos x.cfg x.cfg.node) / 2 % 2 = 0 →
          ∃ t, exec (.cyclicFrameReceive i f age) s = .next t ∧ (t.fzi i).missed = 0 ∧ (t.fzi i).st = 3 ∧ (t.fzi i).k = x.k ∧ (t.fzi i).rxK = fzCycle f
            ∧ ∀ j : Nat, j ≠ i.val → t.fzi j = s.fzi j))
    ∧ (∀ (n : Fin 128) (f : List Byte) (age : BitVec 32), x.st = 2 ∨ x.st = 3 → FzCalm s i x →
      (x.delays.length < 4 → (∀ d ∈ x.due, d.2.1 ≠ 1) → ∃ t, exec (.delayReq i n f age) s = .next t
        ∧ FzStep s t i { x with due := x.due ++ [(fzNow s i, 1, 0, [])] })
      ∧ (n.val = x.cfg.node → (s.inst i).used = true → 4 + (fzAcyclic s x.cfg 0 x.port 0 0 0 (f.drop 30)).length ≤ x.cfg.acycMax →
        ∃ t, exec (.acyclicFrame i n f age) s = .next t ∧ FzStep s t i { x with due := x.due ++ [(fzNow s i, 0, fzNodes f, f.drop 30)] }))
    ∧ (∀ (at_ kind dst : Nat) (payload : List Byte) (rest : List (Nat × Nat × Nat × List Byte)), x.st = 2 ∨ x.st = 3 → x.phased = true →
      x.due = (at_, kind, dst, payload) :: rest → x.mini = false → at_ ≤ fzSlotAt x → fzSlotAt x ≤ fzNow s i →
      fzNow s i < fzSlotAt x + x.cfg.miniLen → dst < 256 →
      FzStep s (fzMiniSend s i) i (if kind = 1
          then { x with due := rest, mini := true, reqAt := some x.k, t1 := if spliceFree s x.port then fzStampNow s i x.port else x.t1 } else { x with due := rest, mini := true })
      ∧ (x.port < 24 → spliceFree s x.port = true → s.on R.TB_PORT_CFG_ONESTEP x.port = false → x.cfg.node < 128 →
          fzCycle ((fzMiniSend s i).port x.port).wire = x.k % 2 ^ 32 ∧ fzType ((fzMiniSend s i).port x.port).wire = 2
          ∧ fzSrc ((fzMiniSend s i).port x.port).wire = x.cfg.node))
    ∧ (∀ (n : Fin 128) (f : List Byte) (age : BitVec 32), n.val ≠ x.cfg.node → (s.inst i).used = true → fzOurs x.cfg f = true →
      fzType f = 2 → fzKind f = 0 → fzNodes f = 0 ∨ fzNodes f = x.cfg.node → ∃ t, exec (.acyclicFrame i n f age) s = .next t
        ∧ FzStep s t i { x with rxData := x.rxData ++ [(dropFcs f).drop 30] })
    ∧ (∀ (f : List Byte) (age : BitVec 32), (s.inst i).used = true → fzOurs x.cfg f = true → fzType f = 2 → fzKind f = 2 →
      fzNodes f = x.cfg.node → x.delays ≠ [] → ∃ t, exec (.delayResp i f age) s = .next t ∧ FzStep s t i
        { x with delays := (x.delays ++ [((fzRx s i x.port age.toNat * 64 - x.t1 * 256)
            - (diff32 (fzTime f) (beAt f 30 4) * 256 - (byteAt f 34 % 4 * 64 : Nat))) / 2]).drop (x.delays.length - 3) })

/-- In NET_RUN, within the present cycle: a good start on a LISTEN branch that had a relay begins its calibration; a CALIB sample is gathered, the eighth within GUARD giving the mean as RT, and with the next cycle the branch is ACTIVE; a start on an ACTIVE branch outside its window is a strike, three within 16 cycles quarantine it; one in its window is accepted with its deviation, the leader's setting the origin. A bypass marks the silent last node MISSING and ends the phase; a cycle without an origination counts as lost, once; four cycles without a return, or two silent ones in quarantine, send a branch to LISTEN; four lost cycles lead to NET_LISTEN with every branch in LISTEN. There candidates' cold-start frames are gathered, the earliest 16 ns unit and in it the lower node decides the leader, in a cluster star 2 µs later and in cluster time, and the network runs. No other instance changes. (R196, R197, R198, R199, R200, R202, R204, R206) -/
def Obligations.FriezeStar : Prop :=
  ∀ (i : Fin 256) (s : State) (x : FzInst), s.fzi i = x → x.role = 2 →
    (∀ (n : Fin 128) (f : List Byte) (age back : BitVec 32) (long : Bool), x.run = true → ∀ (y : FzInst) (b : FzBranch) (u : Int),
      fzRxOn s i n age.toNat = u →
      y = (if (fzMap x n).2.1 = pkId s then x else setFzBr x n { fzBr x n with tn := (fzBr x n).tn.map fun _ => u - back.toNat }) →
      fzBr y n = b → u / 4 < x.s0 + x.dUsed / 256 - x.cfg.guard + x.cfg.cycle →
      ∃ t, exec (.starRelayStart i n f ⟨age, back⟩ long) s = .next t ∧ (∀ j : Nat, j ≠ i.val → t.fzi j = s.fzi j)
        ∧ (b.st = 1 → fcsOk f = true → b.tn ≠ none → fzBr (t.fzi i) n = { b with st := 2, samples := [], missed := 0, acc := true, seen := b.seen + 1 })
        ∧ (∀ v : Int, b.st = 2 → b.tn = some v → b.acc = false → fcsOk f = true → f.length = fzLen x.cfg + 4 → (u - v).natAbs ≤ 2 * x.cfg.cycle →
            (b.samples.length < 7 → (fzBr (t.fzi i) n).samples = b.samples ++ [u - v] ∧ (fzBr (t.fzi i) n).st = 2)
            ∧ (b.samples.length = 7 → b.repD ≠ 0 → (∀ a ∈ b.samples ++ [u - v], ∀ c ∈ b.samples ++ [u - v], a - c ≤ 4 * (x.cfg.guard : Int)) →
                (fzBr (t.fzi i) n).st = 2 ∧ (fzBr (t.fzi i) n).samples.length = 8
                  ∧ (fzBr (t.fzi i) n).rt = (((b.samples ++ [u - v]).foldl (· + ·) 0 + 16) / 32).toNat))
        ∧ (b.st = 3 → (b.acc = true ∨ ∀ e, fzExpected y n = some e → 256 * x.cfg.guard < (64 * u - e).natAbs) → (fzBr (t.fzi i) n).total = b.total + 1
            ∧ (fzBr (t.fzi i) n).st = (if 2 ≤ (b.strikes.filter (fzRecent x.k)).length then 4 else 3))
        ∧ (∀ e, b.st = 3 → b.acc = false → fzExpected y n = some e → (64 * u - e).natAbs ≤ 256 * x.cfg.guard → fcsOk f = true →
            f.length = fzLen x.cfg + 4 → long = false → (fzBr (t.fzi i) n).acc = true ∧ (fzBr (t.fzi i) n).dev = (64 * u - e) / 256
              ∧ (fzBr (t.fzi i) n).total = b.total ∧ (n.val = x.leader → (t.fzi i).origin = some u ∧ (t.fzi i).lost = 0)))
    ∧ (∀ (j : Nat) (e : Int), x.pos = some j → j + 1 = x.cfg.slots.length → fzExpected x (x.cfg.slots.getD j 0) = some e →
      (2048000 * 72 : Int) ≤ fzRate s x (x.cfg.slots.getD j 0) * (256 * (fzNow s i : Int) - (e + 256 * x.cfg.guard)) →
      ∃ t, exec (.bypass i) s = .next t ∧ FzStep s t i { x with frame := setStatus x.cfg x.frame j 1, cut := false, pos := none })
    ∧ (x.run = true → x.origin = none → x.lostSeen = false →
      (2048000 * 72 : Int) ≤ fzRate s x x.leader * (256 * (fzNow s i : Int) - (256 * (x.s0 + x.cfg.guard : Nat) + x.dUsed)) →
      (fzNow s i : Int) < x.s0 + x.dUsed / 256 - x.cfg.guard + x.cfg.cycle →
      ∃ t, exec (.lostCycle i) s = .next t ∧ FzStep s t i { x with lost := x.lost + 1, lostSeen := true }
        ∧ tabGet 0 (t.inst i).words 22 = tabGet 0 (s.inst i).words 22 + 1)
    ∧ (∀ (n : Fin 128) (b : FzBranch), x.run = true → 0 < x.cfg.cycle → x.br = [(n.val, b)] → b.st = 2 → b.samples.length = 8 → b.acc = true →
      (x.s0 : Int) + x.dUsed / 256 - x.cfg.guard + x.cfg.cycle ≤ (fzNow s i : Int) →
      (fzNow s i : Int) < x.s0 + x.dUsed / 256 - x.cfg.guard + 2 * x.cfg.cycle →
      ∃ t, exec (.branchReturnTimeout i n) s = .next t ∧ (fzBr (t.fzi i) n).st = 3 ∧ (fzBr (t.fzi i) n).strikes = [] ∧ (fzBr (t.fzi i) n).maxDev = 0
        ∧ (fzBr (t.fzi i) n).rt = b.rt ∧ (t.fzi i).k = (x.k + 1) % 2 ^ 32 ∧ (t.fzi i).s0 = x.s0 + x.cfg.cycle)
    ∧ (∀ n : Fin 128, (fzNow s i : Int) < x.s0 + x.dUsed / 256 - x.cfg.guard + x.cfg.cycle →
      ((fzBr x n).st = 2 ∨ (fzBr x n).st = 3 → 4 ≤ (fzBr x n).missed → ∃ t, exec (.branchReturnTimeout i n) s = .next t
        ∧ FzStep s t i (setFzBr x n (listening (fzBr x n))))
      ∧ ((fzBr x n).st = 4 → 2 ≤ (fzBr x n).silent → ∃ t, exec (.quarantineSilence i n) s = .next t
        ∧ FzStep s t i (setFzBr x n { fzBr x n with st := 1, strikes := [], missed := 0 })))
    ∧ (∀ (n : Fin 128) (f : List Byte) (age : BitVec 32), x.run = false → (fzMap x n).2.2.1 = true → fzOurs x.cfg f = true →
      fzType f = 1 → fzSrc f = n.val → ∃ t, exec (.coldstartFrame i n f age) s = .next t
        ∧ FzStep s t i { x with cold := x.cold ++ [(coldTime s i (fzRxOn s i n age.toNat), n.val, dropFcs f, fzRxOn s i n age.toNat)] })
    ∧ (∀ (a b w : Int × Nat × List Byte × Int), x.cold = [a, b] →
      (coldUnit a.1 + 1) * 16 + (if fzCluster s x.cfg then 2000 else 0) ≤ coldTime s i (4 * fzNow s i) / 4 →
      w = (if coldUnit b.1 < coldUnit a.1 ∨ (coldUnit b.1 = coldUnit a.1 ∧ b.2.1 < a.2.1) then b else a) →
      ∃ t, exec (.coldstartDecision i) s = .next t ∧ (t.fzi i).run = true ∧ (t.fzi i).leader = w.2.1 ∧ (t.fzi i).k = 0
        ∧ (t.fzi i).s0 = fzTime w.2.2.1 ∧ (fzBr (t.fzi i) w.2.1).st = 3 ∧ (fzBr (t.fzi i) w.2.1).maxDev = 0 ∧ (t.fzi i).cold = []
        ∧ ∀ j : Nat, j ≠ i.val → t.fzi j = s.fzi j)
    ∧ (x.run = true → 4 ≤ x.lost → ∃ t, exec (.netListen i) s = .next t ∧ (t.fzi i).run = false ∧ (t.fzi i).lost = 0
      ∧ (∀ y ∈ x.cfg.branches, y.2.2.2.2 = true → (fzBr (t.fzi i) y.1).st = 1) ∧ ∀ j : Nat, j ≠ i.val → t.fzi j = s.fzi j)

/-- The loss of XREF clears XREF_OK, shows ALTREF, raises REF_LOSS, and goes to ALTREF where that is enabled and valid, else to HOLDOVER; an XREF that shows edges again is shown, and once it has for 1 s REVERT goes back to it, but not before. The first lock outside a POR or SYSTEM reset starts FRC at 0; a later one changes nothing. A read of TB_FRC_LO answers the low word and latches the upper half for that requester alone. TB_SNAP captures FRC and both domains at one tick and counts. TSF_POP discards the head record and shows the next. Nothing else changes. (R160, R161, R162, R163, R165, R169) -/
def Obligations.TimebaseReferences : Prop :=
  ∀ s : State,
    (∀ altref : Bool, s.on R.TB_STAT_XREF_OK = true → ∃ t, exec (.refLoss altref) s = .next t ∧ t.get R.TB_STAT_XREF_OK = 0
      ∧ t.get R.TB_STAT_ALTREF_OK = bit01 altref ∧ t.get R.TB_EVT_REF_LOSS = 1
      ∧ (s.on R.TB_CTL_ALTREF_EN && altref → t.get R.TB_STAT_REF_ACTIVE = 1 ∧ t.get R.TB_STAT_HOLDOVER = 0)
      ∧ ((s.on R.TB_CTL_ALTREF_EN && altref) = false → t.get R.TB_STAT_HOLDOVER = 1)
      ∧ t = { s with regs := t.regs } ∧ OnlyRegs s t [R.TB_STAT.addr 0 0 0, R.TB_EVT.addr 0 0 0])
    ∧ (s.on R.TB_STAT_XREF_OK = false → ∃ t, exec .refRevert s = .next t ∧ t.get R.TB_STAT_XREF_OK = 1
      ∧ t.get R.TB_STAT_REF_ACTIVE = s.get R.TB_STAT_REF_ACTIVE ∧ t.get R.TB_STAT_HOLDOVER = s.get R.TB_STAT_HOLDOVER
      ∧ t = { s with regs := t.regs, time := { s.time with xrefAt := s.now } } ∧ OnlyRegs s t [R.TB_STAT.addr 0 0 0])
    ∧ (s.on R.TB_STAT_XREF_OK = true → s.time.xrefAt + 1000000000 ≤ s.now → s.on R.TB_CTL_REVERT = true →
      s.on R.TB_STAT_REF_ACTIVE = true ∨ s.on R.TB_STAT_HOLDOVER = true → ∃ t, exec .refRevert s = .next t ∧ t.get R.TB_STAT_XREF_OK = 1
        ∧ t.get R.TB_STAT_REF_ACTIVE = 0 ∧ t.get R.TB_STAT_HOLDOVER = 0 ∧ t = { s with regs := t.regs } ∧ OnlyRegs s t [R.TB_STAT.addr 0 0 0])
    ∧ (s.on R.TB_STAT_XREF_OK = true → s.now < s.time.xrefAt + 1000000000 ∨ s.on R.TB_CTL_REVERT = false → s.on R.TB_STAT_HOLDOVER = false →
      (s.on R.TB_STAT_REF_ACTIVE = true → s.on R.TB_STAT_ALTREF_OK = true) → exec .refRevert s = .next s)
    ∧ (inReset s = true → exec .pllLock s = .next s)
    ∧ (inReset s = false → ∃ t, exec .pllLock s = .next t ∧ t.on R.TB_STAT_LOCK = true ∧ (s.on R.TB_STAT_LOCK = true → t = s)
      ∧ (s.on R.TB_STAT_LOCK = false → t = { s with regs := t.regs, time := { s.time with frc := 0, xrefAt := s.now } }))
    ∧ (∀ r : Requester, reads s r (R.TB_FRC_LO.addr 0 0 0) = true → ∃ t, exec (.frcRead r) s = .next t
      ∧ t.bus = { rdata := s.time.frc.setWidth 32, err := false }
      ∧ tabGet 0 t.time.frcHi (frcLatch r) = (s.time.frc >>> 32).setWidth 32
      ∧ (∀ q, frcLatch q ≠ frcLatch r → tabGet 0 t.time.frcHi (frcLatch q) = tabGet 0 s.time.frcHi (frcLatch q))
      ∧ t = { s with bus := t.bus, time := { s.time with frcHi := t.time.frcHi } })
    ∧ (∀ r : Requester, writes s r (R.TB_SNAP.addr 0 0 0) = true → isAtl r = true ∨ isArm r = true ∨ isHost r = true →
      ∃ t, exec (.tbSnap r) s = .next t ∧ t.get64 R.TB_SNAP_FRC_LO R.TB_SNAP_FRC_HI = s.time.frc.toNat
        ∧ t.get64 R.TB_SNAP_D0_LO R.TB_SNAP_D0_HI = domTime s 0 ∧ t.rd R.TB_SNAP_D0_FRAC = domFrac s 0
        ∧ t.get64 R.TB_SNAP_D1_LO R.TB_SNAP_D1_HI = domTime s 1 ∧ t.rd R.TB_SNAP_D1_FRAC = domFrac s 1
        ∧ t.rd R.TB_SNAP_SEQ = (s.rd R.TB_SNAP_SEQ + 1) % 2 ^ 32 ∧ t = { s with bus := {}, regs := t.regs })
    ∧ (∀ r : Requester, writes s r (R.TB_TSF_POP.addr 0 0 0) = true → isAtl r = true ∨ isArm r = true ∨ isHost r = true →
      s.time.tsf.length ≤ 256 → ∃ t, exec (.tsfPop r) s = .next t ∧ t.time.tsf = s.time.tsf.tail
        ∧ t.get R.TB_TSF_STAT_COUNT = s.time.tsf.length - 1
        ∧ (t.rd R.TB_TSF_W0, t.rd R.TB_TSF_W1, t.rd R.TB_TSF_W2)
            = ((t.time.tsf.headD ⟨0, 0, 0⟩).w0.toNat, (t.time.tsf.headD ⟨0, 0, 0⟩).w1.toNat, (t.time.tsf.headD ⟨0, 0, 0⟩).w2.toNat)
        ∧ t = { s with bus := {}, regs := t.regs, time := { s.time with tsf := t.time.tsf } })

/-- For a domain that does not walk: LOAD and ADJ set or move its offset, count a step and raise STEPd, unless the domain is ACQUIRED in STEPRATE, when they only set STEP_REF; a measurement is stored in LASTE and does nothing else in FREE; in SERVO, within STEP_THR and with no walk, it sets INTEG and RATE by the servo's law; in STEPRATE with ACQ armed it makes the acquisition step. ACQ arms; a MODE other than STEPRATE clears ACQUIRED. GO starts a walk of W towards T with RATE_W = RATE_T plus or minus WALK_PPM; within 1 ns the walk ends and W takes T's offset, rate and settings without a step. A measurement of a walking domain sets MEAS_IGN; a LOAD of it ends the walk with ABORTED. (R164, R171, R172, R174, R175) -/
def Obligations.DomainSteps : Prop :=
  ∀ (r : Requester) (d : Fin 2) (s : State), isAtl r = true ∨ isArm r = true →
    (∀ off : Nat, off < 0x1000 → writes s r (0x40050000 + off) = true) →
    (∃ t, exec (.domainLoad r d) s = .next t ∧ t.rd R.TB_D_CTL d = s.rd R.TB_D_CTL d
      ∧ (walking s d = true → t.get R.TB_WALK_STAT_BUSY = 0 ∧ t.get R.TB_WALK_STAT_ABORTED = 1)
      ∧ (stepRefused s d = true → t.get R.TB_D_STAT_STEP_REF d = 1 ∧ t.time = s.time)
      ∧ (stepRefused s d = false →
          (t.dom d).offs = BitVec.ofNat 104 (s.get64 R.TB_D_OFFS_LO R.TB_D_OFFS_HI d * 2 ^ 40 + s.rd R.TB_D_OFFS_FRAC d * 2 ^ 8)
          ∧ t.get R.TB_D_STAT_STEPS d = (s.get R.TB_D_STAT_STEPS d + 1) % 256
          ∧ t.get (if d.val = 0 then R.TB_EVT_STEP0 else R.TB_EVT_STEP1) = 1 ∧ t.dom (1 - d.val) = s.dom (1 - d.val)
          ∧ (s.on R.TB_WALK_STAT_BUSY = false → t.rd R.TB_D_RATE d = s.rd R.TB_D_RATE d))
      ∧ t = { s with bus := {}, regs := t.regs, time := t.time })
    ∧ (∀ v : Word, stepRefused s d = false → ∃ t, exec (.domainAdj r d v) s = .next t
      ∧ ((t.dom d).offs.toNat : Int) = (((s.dom d).offs.toNat : Int) + v.toInt * 2 ^ 40) % 2 ^ 104
      ∧ t.get R.TB_D_STAT_STEPS d = (s.get R.TB_D_STAT_STEPS d + 1) % 256 ∧ t.dom (1 - d.val) = s.dom (1 - d.val)
      ∧ t = { s with bus := {}, regs := t.regs, time := t.time })
    ∧ (∀ v : Word, ∃ t, exec (.measWrite r d v) s = .next t ∧ t.rd R.TB_D_LASTE d = v.toNat
      ∧ t = { s with bus := {}, regs := t.regs, time := t.time }
      ∧ (walking s d = true → t.get R.TB_D_STAT_MEAS_IGN d = 1 ∧ t.time = s.time
          ∧ OnlyRegs s t [R.TB_D_LASTE.addr d 0 0, R.TB_D_STAT.addr d 0 0])
      ∧ (walking s d = false → (s.get R.TB_D_CTL_MODE d = 0 ∨ s.get R.TB_D_CTL_MODE d = 3) → t.time = s.time
          ∧ OnlyRegs s t [R.TB_D_LASTE.addr d 0 0])
      ∧ (s.on R.TB_WALK_STAT_BUSY = false → s.get R.TB_D_CTL_MODE d = 1 → v.toInt.natAbs ≤ s.get R.TB_D_STEP_THR_V d * 256 →
          t.gets R.TB_D_INTEG_V d = clampRate s d (s.gets R.TB_D_INTEG_V d
              - (v.toInt * s.get R.TB_D_KI_KI d) / 2 ^ s.get R.TB_D_KI_KI_SH d)
          ∧ t.gets R.TB_D_RATE_V d = clampRate s d (t.gets R.TB_D_INTEG_V d
              - (v.toInt * s.get R.TB_D_KP_KP d) / 2 ^ s.get R.TB_D_KP_KP_SH d)
          ∧ (t.dom d).offs = (s.dom d).offs)
      ∧ (s.on R.TB_WALK_STAT_BUSY = false → s.get R.TB_D_CTL_MODE d = 2 → s.on R.TB_D_CTL_ACQ d = true →
          ((t.dom d).offs.toNat : Int) = (((s.dom d).offs.toNat : Int) - v.toInt * 2 ^ 32) % 2 ^ 104
          ∧ t.get R.TB_D_STAT_ACQUIRED d = 1 ∧ t.get R.TB_D_CTL_ACQ d = 0 ∧ t.get R.TB_D_STAT_PHASE_ERR d = 0))
    ∧ (∀ v : Word, ∃ t, exec (.acq r d v) s = .next t ∧ t.get R.TB_D_CTL_ACQ d = 1 ∧ t.get R.TB_D_CTL_MODE d = bits v.toNat 0 2
      ∧ t.get R.TB_D_STAT_ACQUIRED d = (if bits v.toNat 0 2 = 2 then s.get R.TB_D_STAT_ACQUIRED d else 0)
      ∧ t = { s with bus := {}, regs := t.regs })
    ∧ (∀ v : Word, ∃ t, exec (.walkGo r v) s = .next t ∧ t.get R.TB_WALK_STAT_BUSY = 1
      ∧ t.get R.TB_WALK_CTL_DIR = (if s.on R.TB_WALK_STAT_BUSY then s.get R.TB_WALK_CTL_DIR else bits v.toNat 1 1)
      ∧ t.gets R.TB_D_RATE_V (t.get R.TB_WALK_CTL_DIR) = sat32 (s.gets R.TB_D_RATE_V (1 - t.get R.TB_WALK_CTL_DIR)
          + (if walkDiff t < 0 then -(walkMag (bits v.toNat 8 8) : Int) else (walkMag (bits v.toNat 8 8) : Int)))
      ∧ t = { s with bus := {}, regs := t.regs })
    ∧ (s.on R.TB_WALK_STAT_BUSY = true → (walkDiff s).natAbs < 2 ^ 40 → ∃ t, exec .walkDone s = .next t
      ∧ t.get R.TB_WALK_STAT_BUSY = 0 ∧ t.get R.TB_EVT_WALK_DONE = 1
      ∧ t.dom (s.get R.TB_WALK_CTL_DIR) = s.dom (1 - s.get R.TB_WALK_CTL_DIR)
      ∧ (∀ q : Reg, q ∈ [R.TB_D_RATE, R.TB_D_KP, R.TB_D_KI, R.TB_D_STEP_THR, R.TB_D_RATE_MAX, R.TB_D_INTEG, R.TB_D_LOCK_THR] →
          t.rd q (s.get R.TB_WALK_CTL_DIR) = s.rd q (1 - s.get R.TB_WALK_CTL_DIR))
      ∧ (∀ x : Nat, x < 2 → t.rd R.TB_D_STAT x = s.rd R.TB_D_STAT x) ∧ t = { s with regs := t.regs, time := t.time })

/-- Enabling a generator takes mode, domain, period and START; a PERIODIC one whose START has passed goes to the first instant that has not, with PAST_START set. Disabling cancels the next firing. UPD sets the new period, from the last firing on. An armed generator whose time has come fires: it counts, its next instant is one period on (PERIODIC) or it is done (ONESHOT), a SYNC pin with PIN_EN takes its active level for WIDTH ns (8 at least), and an enabled group that waits for this generator, if it is its one consumer, gets a trigger with the scheduled time rounded up. A pin's configuration idles it; at a pulse's end it returns to its idle level. (R14, R48, R176, R177, R179, R180) -/
def Obligations.GeneratorSchedules : Prop :=
  ∀ (r : Requester) (n : Fin 32) (v : Word) (s : State), isAtl r = true ∨ isArm r = true → writes s r (R.TB_IG_CTL.addr n 0 0) = true →
    (s.on R.TB_IG_CTL_EN n = false → ∃ t, exec (.igEnable r n v) s = .next t ∧ t.on R.TB_IG_CTL_EN n = true
      ∧ (t.igen n).armed = true ∧ (t.igen n).mode = v.getLsbD 1 ∧ (t.igen n).dom = bits v.toNat 2 1
      ∧ (t.igen n).period = igPeriod s n ∧ (t.igen n).fired = none ∧ t.get R.TB_IG_STAT_RUN n = 1
      ∧ t.get64 R.TB_IG_NEXT_LO R.TB_IG_NEXT_HI n = ceil16 (t.igen n).next % 2 ^ 64
      ∧ (s.get64 R.TB_IG_START_LO R.TB_IG_START_HI n < domTime s (bits v.toNat 2 1) → t.get R.TB_IG_STAT_PAST_START n = 1)
      ∧ (∃ k : Nat, (t.igen n).next = s.get64 R.TB_IG_START_LO R.TB_IG_START_HI n * 65536 + k * igPeriod s n
          ∧ (v.getLsbD 1 = false → k = 0)
          ∧ (v.getLsbD 1 = true → domTime s (bits v.toNat 2 1) ≤ ceil16 (t.igen n).next
              ∧ (k ≠ 0 → ceil16 ((t.igen n).next - igPeriod s n) < domTime s (bits v.toNat 2 1))))
      ∧ (∀ m : Nat, m ≠ n → t.igen m = s.igen m)
      ∧ t = { s with bus := {}, regs := t.regs, time := { s.time with ig := t.time.ig, sync := t.time.sync } })
    ∧ (s.on R.TB_IG_CTL_EN n = true → ∃ t, exec (.igDisable r n v) s = .next t ∧ t.on R.TB_IG_CTL_EN n = false
      ∧ t.igen n = { s.igen n with armed := false } ∧ t.get R.TB_IG_STAT_RUN n = 0
      ∧ t = { s with bus := {}, regs := t.regs, time := { s.time with ig := t.time.ig, sync := t.time.sync } })
    ∧ (s.on R.TB_IG_CTL_EN n = true → v.getLsbD 0 = true → (s.igen n).armed = true → (s.igen n).mode = true →
      ∃ t, exec (.igUpdate r n v) s = .next t ∧ (t.igen n).period = igPeriod s n ∧ (t.igen n).armed = true
        ∧ (s.igen n).fired = (t.igen n).fired
        ∧ ((s.igen n).fired = none → (t.igen n).next = (s.igen n).next)
        ∧ (∀ f : Nat, (s.igen n).fired = some f → ∃ k : Nat, (t.igen n).next = f + (k + 1) * igPeriod s n
            ∧ domTime s (s.igen n).dom ≤ ceil16 (t.igen n).next
            ∧ (k ≠ 0 → ceil16 ((t.igen n).next - igPeriod s n) < domTime s (s.igen n).dom))
        ∧ t = { s with bus := {}, regs := t.regs, time := { s.time with ig := t.time.ig, sync := t.time.sync } })
    ∧ ((s.igen n).armed = true → ceil16 (s.igen n).next ≤ domTime s (s.igen n).dom → QuietInstant s n →
      ∃ t, exec (.instant n) s = .next t
        ∧ t.igen n = { s.igen n with
            fired := some (s.igen n).next
            next := if (s.igen n).mode then (s.igen n).next + (s.igen n).period else (s.igen n).next
            armed := (s.igen n).mode }
        ∧ t.rd R.TB_IG_CNT n = (s.rd R.TB_IG_CNT n + 1) % 2 ^ 32
        ∧ (n.val < 4 → s.on R.TB_IG_CTL_PIN_EN n = true → t.syncPin n
            = { level := !s.on R.TB_IG_CTL_POL n, pulseEnd := some (s.now + max 8 (s.get R.TB_IG_WIDTH_V n)) })
        ∧ (∀ g : Nat, numsWhere 256 (fun g => !s.on R.SS_CG_CTL_TRIG g && s.get R.SS_CG_CTL_IG g == n.val) = [g] →
            s.on R.SS_CTL_EN = true → s.on R.SS_CG_CTL_EN g = true → cgInCommit s g = false → s.triggers g = [] →
            t.triggers g = [⟨s.now, ceil16 (s.igen n).next, false⟩])
        ∧ t = { s with regs := t.regs, time := t.time, store := { s.store with triggers := t.store.triggers } })
    ∧ (∀ (p : Fin 4) (en pol : Bool), writes s r (R.TB_IG_CTL.addr p 0 0) = true → s.get R.TB_IG_CTL_UPD p = 0 →
      ∃ t, exec (.syncPinConfig r p en pol) s = .next t ∧ t.on R.TB_IG_CTL_PIN_EN p = en ∧ t.on R.TB_IG_CTL_POL p = pol
        ∧ (t.syncPin p = if en && (!s.on R.TB_IG_CTL_PIN_EN p || s.on R.TB_IG_CTL_POL p != pol) then { level := pol } else s.syncPin p)
        ∧ t = { s with bus := {}, regs := t.regs, time := { s.time with sync := t.time.sync } })
    ∧ (∀ (p : Fin 4) (e : Nat), (s.syncPin p).pulseEnd = some e → e ≤ s.now → ∃ t, exec (.syncPulseEnd p) s = .next t
        ∧ (t.syncPin p).level = ((s.syncPin p).idle.getD (s.on R.TB_IG_CTL_POL p)) ∧ (t.syncPin p).pulseEnd = none
        ∧ t = { s with time := { s.time with sync := t.time.sync } })

/-- For every engine and slot: a read of T0_LO latches the other words of the same tick. ISk_CTL sets the mode, and leaving one-shot disarms. ISk_TIME stores the target; in one-shot it arms the slot, and a target already passed fires at once: the slot's event line is set, LAST holds the target and the slot is disarmed. A slot that is armed fires so at its target. JOB_MARK enters S - t into SLACK_CUR, keeping the smallest, and a negative one counts in LATE_CNT. CE_SLACK_CLR sets SLACK_MIN to 2^31 - 1. Nothing else changes. (R19, R81, R82, R181) -/
def Obligations.EngineInstantSlots : Prop :=
  ∀ (e : Fin 48) (k : Fin 8) (s : State),
    (∃ t, exec (.engineTimeRead e) s = .next t
      ∧ (t.eng e).tlat = [w32 (domTime s 0 / 2 ^ 32), w32 (domTime s 1), w32 (domTime s 1 / 2 ^ 32), w32 s.time.frc.toNat,
          w32 (s.time.frc.toNat / 2 ^ 32)] ∧ t = { s with engs := t.engs } ∧ ∀ f : Nat, f ≠ e → t.eng f = s.eng f)
    ∧ (∀ v : Word, ∃ t, exec (.slotConfig e k v) s = .next t ∧ slotMode ((t.eng e).islot k) = bits v.toNat 0 2
      ∧ bits ((t.eng e).islot k).ctl 2 5 = bits v.toNat 2 5 ∧ bits ((t.eng e).islot k).ctl 8 1 = bits v.toNat 8 1
      ∧ ((t.eng e).islot k).armed = (((s.eng e).islot k).armed && bits v.toNat 0 2 == 2)
      ∧ ((t.eng e).islot k).time = ((s.eng e).islot k).time ∧ t = { s with engs := t.engs }
      ∧ ∀ j : Nat, j ≠ k → (t.eng e).islot j = (s.eng e).islot j)
    ∧ (∀ v : Word, ∃ t, exec (.slotArm e k v) s = .next t ∧ ((t.eng e).islot k).time = v ∧ t = { s with engs := t.engs }
      ∧ (slotMode ((s.eng e).islot k) ≠ 2 → ((t.eng e).islot k).armed = false ∧ (t.eng e).events = (s.eng e).events)
      ∧ (slotMode ((s.eng e).islot k) = 2 → reached (domView s (bits ((s.eng e).islot k).ctl 8 1)) v.toNat = false →
          ((t.eng e).islot k).armed = true ∧ w32 ((t.eng e).islot k).target = v ∧ (t.eng e).events = (s.eng e).events)
      ∧ (slotMode ((s.eng e).islot k) = 2 → reached (domView s (bits ((s.eng e).islot k).ctl 8 1)) v.toNat = true →
          ((t.eng e).islot k).armed = false ∧ ((t.eng e).islot k).last = v
          ∧ (t.eng e).events = (s.eng e).events ||| w32 (2 ^ k.val)))
    ∧ (slotMode ((s.eng e).islot k) = 2 → ((s.eng e).islot k).armed = true →
      reached (domView s (bits ((s.eng e).islot k).ctl 8 1)) ((s.eng e).islot k).time.toNat = true →
      ∃ t, exec (.slotFire e k) s = .next t ∧ ((t.eng e).islot k).armed = false
        ∧ ((t.eng e).islot k).last = w32 ((s.eng e).islot k).target ∧ (t.eng e).events.getLsbD k = true ∧ t = { s with engs := t.engs })
    ∧ (∀ x : Nat, jobTime s e k = some x → ∃ t, exec (.jobMark e k) s = .next t
      ∧ t.gets R.CE_SLACK_CUR_V e = min (sat32 (diff64 x (domTime s (slotDom s e k)))) (s.gets R.CE_SLACK_CUR_V e)
      ∧ t.rd R.CE_LATE_CNT e = (if diff64 x (domTime s (slotDom s e k)) < 0 then min (s.rd R.CE_LATE_CNT e + 1) (2 ^ 32 - 1)
          else s.rd R.CE_LATE_CNT e)
      ∧ t = { s with regs := t.regs } ∧ OnlyRegs s t [R.CE_SLACK_CUR.addr e 0 0, R.CE_LATE_CNT.addr e 0 0])
    ∧ (∀ r : Requester, writes s r (R.CE_SLACK_CLR.addr e 0 0) = true → ∃ t, exec (.slackClear r e) s = .next t
      ∧ t.rd R.CE_SLACK_MIN e = 2 ^ 31 - 1 ∧ t = { s with bus := {}, regs := t.regs } ∧ OnlyRegs s t [R.CE_SLACK_MIN.addr e 0 0])

/-- For every engine and window: SPL_E1 appends the staged entry to a ring that has room; SPL_FLUSH empties the ring and counts nothing as missed; TXC with SOF alone on an empty transmit FIFO opens a frame with its class and, with AT_IS, its instant; a word of TXD opens a frame or joins the open one, and where the FIFO has no room it is discarded with CE_ERR.IO_RSVD. A frame's EOF at an owned, live, idle and unpaused port sends its bytes with an FCS; a scheduled frame does so once its instant is reached, its slack entered, LATE telling whether it came late, and one that missed its instant and whose window has closed is dropped, with LATE set, and counted in the port's TX_UNDERRUN (the counter is the model's choice). (R19, R74, R75, R82, R114, R214, spec/03_chisel_engines.md) -/
def Obligations.EngineFrames : Prop :=
  ∀ (e : Fin 48) (b : Bool) (s : State),
    (∀ v : Word, (s.win e b).ring.length < 32 → ∃ t, exec (.spliceEntryPush e b v) s = .next t
      ∧ (t.win e b).ring = (s.win e b).ring ++ [⟨bits (s.win e b).e0.toNat 0 16, bits (s.win e b).e0.toNat 16 7 + 1,
          (s.win e b).e0.getLsbD 24, (s.win e b).e0.getLsbD 25, bits v.toNat 0 18,
          ((s.win e b).head + (s.win e b).ring.length) % 32, none⟩]
      ∧ t = { s with engs := t.engs } ∧ ∀ f : Nat, f ≠ e.val → t.eng f = s.eng f)
    ∧ (∃ t, exec (.spliceFlush e b) s = .next t ∧ (t.win e b).ring = [] ∧ t = { s with engs := t.engs, sw := t.sw })
    ∧ (∀ v : Word, (s.win e b).txs = [] → v.getLsbD 0 = true → v.getLsbD 1 = false →
      ∃ t, exec (.txcWrite e b v) s = .next t ∧ (t.win e b).txs = [⟨[], bits v.toNat 8 3,
          if v.getLsbD 2 then txInstant s e (bits v.toNat 4 3) else none, 0, false, 0, false, false⟩]
      ∧ t = { s with engs := t.engs })
    ∧ (∀ v : Word, (s.win e b).txs = [] → ∃ t x, exec (.txdAppend e b v) s = .next t ∧ (t.win e b).txs = [x]
      ∧ x = { words := [v], firstAt := domTime s 0, started := x.started, port := x.port } ∧ t = { s with engs := t.engs, sw := t.sw })
    ∧ (∀ (v : Word) (x : TxFrame), (s.win e b).txs = [x] → x.eof = false → x.cut = false →
      (x.words.length < 64 → x.sched = none → ∃ t y, exec (.txdAppend e b v) s = .next t ∧ (t.win e b).txs = [y]
        ∧ y.words = x.words ++ [v] ∧ y.eof = false ∧ t = { s with engs := t.engs, sw := t.sw })
      ∧ (64 ≤ x.words.length → x.started = false → ∃ t, exec (.txdAppend e b v) s = .next t
        ∧ t.get R.CE_ERR_IO_RSVD e = 1 ∧ t = { s with regs := t.regs } ∧ OnlyRegs s t [R.CE_ERR.addr e 0 0]))
    ∧ (∀ (p : Nat) (x : TxFrame), (s.win e b).txs = [x] → x.started = false → x.words ≠ [] → winPort s e b = some p →
      (b = true → (s.eng e).attach = none) → type8 s p = false → s.on R.TB_PORT_CFG_ONESTEP p = false →
      (∀ v : Word, x.sched = none → x.eof = false → v.getLsbD 0 = false → v.getLsbD 1 = true → portOwner s p = some e.val →
        portFree s p = true → pausedTill s p x.cls = 0 →
        ∃ t, exec (.txcWrite e b v) s = .next t ∧ (t.win e b).txs = [] ∧ (t.win e b).dropped = false
          ∧ (t.port p).wire = txBytes x ++ fcsOf (txBytes x) ∧ (t.port p).txOpen = false)
      ∧ (∀ d at_ : Nat, x.sched = some (d, at_) → x.eof = true → diff64 at_ (domTime s d) ≤ 0 →
        (portOwner s p = some e.val → portFree s p = true → pausedTill s p x.cls = 0 →
          (0 ≤ diff64 at_ x.firstAt ∨ windowOpen s p e (-diff64 at_ (domTime s d)).toNat = true) →
          ∃ t, exec (.scheduledFrameStart e b) s = .next t ∧ (t.win e b).txs = []
            ∧ (t.port p).wire = txBytes x ++ fcsOf (txBytes x)
            ∧ (t.win e b).late = decide (diff64 at_ x.firstAt < 0 ∨ diff64 at_ (domTime s d) < 0)
            ∧ t.gets R.CE_SLACK_CUR_V e = min (sat32 (diff64 at_ x.firstAt)) (s.gets R.CE_SLACK_CUR_V e))
        ∧ (windowOpen s p e (-diff64 at_ (domTime s d)).toNat = false → diff64 at_ x.firstAt < 0 →
          ∃ t, exec (.scheduledFrameStart e b) s = .next t ∧ (t.win e b).txs = [] ∧ (t.win e b).late = true
            ∧ (t.win e b).dropped = true ∧ t.get R.MAC_CNT_V p 8 = min (s.get R.MAC_CNT_V p 8 + 1) (2 ^ 32 - 1)
            ∧ t = { s with regs := t.regs, engs := t.engs })))

/-- The start of a frame at a live bound port gives it to the port's owner with no byte passed. A byte in the range of a started insert leaves with the item's bits over its own, bits beyond the item's width kept; a byte that a one-byte extract names is delivered as an XD word with its status and leaves unchanged. The end of a frame without an owner sends the bytes that left, unmodified, to the window that FWD names, at once or behind the frames that wait for its wire. An overflow counts and sets OVF and ends the frame in progress; an underrun counts, sets UNDERRUN and ends the frame on the wire, on a PHY port with an invalid FCS. A reference frame is received by the port's MAC at its time. (R13, R74, R75, R76, R85, R92, R214) -/
def Obligations.PassingFrames : Prop :=
  ∀ (p : Fin 24) (s : State),
    (portLive s p = true → binders s p ≠ [] → inMaquette s p = false → (s.port p).pass = none →
      ∃ t f, exec (.frameReceive p [] true false) s = .next t ∧ (t.port p).pass = some f ∧ f.owner = portOwner s p
        ∧ f.inB = [] ∧ f.ended = false ∧ t = { s with engs := t.engs, sw := t.sw })
    ∧ (∀ (e : Nat) (f : PassFrame) (x : SplEntry) (v : Byte), (s.port p).pass = some f → f.owner = some e → f.ended = false →
      f.eolSeen = false → f.inB.length < s.get R.MAC_MAXLEN_V p → type8 s p = false → engActive s e = true →
      f.src = none → (s.win e f.sideB).ring = [x] →
      (∀ w d : Nat, x.insert = true → x.view = some (w, d) → x.pos ≤ f.inB.length → f.inB.length < x.pos + x.len →
        (f.started = true ∨ x.pos = f.inB.length) → ∃ t g y, exec (.frameReceive p [v] false false) s = .next t
          ∧ (t.port p).pass = some g ∧ g.inB = f.inB ++ [v] ∧ g.outB = f.outB ++ [y]
          ∧ ∀ i : Nat, i < 8 → y.getLsbD i = (if 8 * (f.inB.length - x.pos) + i < w then
              d.testBit (8 * (f.inB.length - x.pos) + i) else v.getLsbD i))
      ∧ (x.insert = false → x.pos = f.inB.length → x.len = 1 → f.cur = [] → f.started = false →
        ∃ t g, exec (.frameReceive p [v] false false) s = .next t ∧ (t.port p).pass = some g ∧ g.outB = f.outB ++ [v]
          ∧ (t.win e f.sideB).xd = (s.win e f.sideB).xd ++ [⟨w32 v.toNat, w32 (x.index + 2 ^ 8 + 2 ^ 13), 0⟩]
          ∧ (t.win e f.sideB).ring = []))
    ∧ (∀ (e q : Nat) (f : PassFrame), (s.port p).pass = some f → f.ended = false → f.owner = none → f.byEng = some e → f.fwd = 1 →
      f.inserted = false → f.src = none → type8 s p = false → 64 ≤ f.inB.length → f.inB.length ≤ s.get R.MAC_MAXLEN_V p →
      s.on R.TB_PORT_CFG_ONESTEP q = false →
      (∀ x : Stamp, (f.tx = some (q, x) ∧ f.txGone = false)
          ∨ (f.tx = none ∧ winPort s e (!winSide s e p) = some q ∧ spliceFree s q = true) →
        ∃ t, exec (.frameReceive p [] false true) s = .next t ∧ (t.port p).pass = (s.port p).held ∧ (t.port q).wire = f.outB)
      ∧ (f.tx = none → winPort s e (!winSide s e p) = some q → spliceFree s q = false → portLive s q = true →
        ∃ t, exec (.frameReceive p [] false true) s = .next t ∧ (t.port p).pass = none
          ∧ (t.port q).spl = (s.port q).spl ++ [(f.outB, none)] ∧ (t.port q).wire = (s.port q).wire))
    ∧ ((∀ f e, (s.port p).pass = some f → f.owner = some e → e < 48) →
      ∃ t, exec (.receiveFifoOverflow p) s = .next t ∧ t.get R.MAC_CNT_V p 5 = min (s.get R.MAC_CNT_V p 5 + 1) (2 ^ 32 - 1)
      ∧ t.get R.MAC_EVT_OVF p = 1 ∧ ∀ f, (s.port p).pass = some f → ∃ g, (t.port p).pass = some g ∧ g.ended = true)
    ∧ (onWire s p = true →
      ∃ t, exec (.transmitFifoUnderrun p) s = .next t ∧ t.get R.MAC_CNT_V p 8 = min (s.get R.MAC_CNT_V p 8 + 1) (2 ^ 32 - 1)
        ∧ t.get R.MAC_EVT_UNDERRUN p = 1 ∧ (t.port p).txCut = true ∧ (t.port p).txEnd = s.now + gapNs s p
        ∧ (p.val < 16 → (t.port p).wire = (s.port p).wire.take (sentBytes s p))
        ∧ (16 ≤ p.val → type8 s p = false → (t.port p).wire = withFcs ((s.port p).wire.take (sentBytes s p)) false)
        ∧ t = { s with regs := t.regs, sw := { s.sw with ports := t.sw.ports } }
        ∧ OnlyRegs s t [R.MAC_CNT.addr p 8 0, R.MAC_EVT.addr p 0 0])
    ∧ (∀ (k : Fin 65536) (off at_ nx : Nat) (f : List Byte), s.get R.CE_MQ_PORT_MODE p = 3 → portLive s p = true →
      binders s p = [] → s.on R.SW_CTL_EN = false → type8 s p = false →
      (mqPos s (s.rd R.CE_MQ_REF_BASE) (s.get R.CE_MQ_REF_LEN_V) k).bind
        (mqFrame s (s.rd R.CE_MQ_REF_BASE) (s.get R.CE_MQ_REF_LEN_V)) = some (off, f, nx) →
      (s.igen (s.get R.CE_MQ_START_IG_V)).fired = some at_ → mqNext s p at_ k = true →
      ceil16 at_ + off ≤ domTime s (igDom s (s.get R.CE_MQ_START_IG_V)) → 64 ≤ f.length → f.length ≤ s.get R.MAC_MAXLEN_V p →
      fcsOk f = true → ∃ t, exec (.maquettePlayFrame p k) s = .next t
        ∧ t.get R.MAC_CNT_V p 0 = min (s.get R.MAC_CNT_V p 0 + 1) (2 ^ 32 - 1)
        ∧ t.get R.MAC_CNT_V p 1 = min (s.get R.MAC_CNT_V p 1 + f.length) (2 ^ 32 - 1)
        ∧ mqPlayed t p at_ = k.val :: mqPlayed s p at_
        ∧ t = { s with regs := t.regs, time := t.time, engArr := t.engArr })

/-- A write of MAC_CTL by Atelier with STATE 1, 0 or 2 puts the port in that state; DISABLED takes MODE from the write; leaving ENABLED drops the queued frames, takes the link down and ends preemption. A link of an ENABLED port outside Maquette comes up with the mode's or the partner's speed and sets LINK_CHG; half duplex sets HDX and leaves it down. A link that drops clears LINK and PREEMPT_ACT and ends the frame that passes. A wake match in SLEEP sets WAKE and, with AUTO, enables the port; anything else changes nothing. A verify attempt that succeeds makes preemption active, a third failure sets VERIFY_FAIL, attempts being 10 ms apart. (R212, R213, R216, R217, R218, R222) -/
def Obligations.PortStates : Prop :=
  ∀ (p : Fin 24) (s : State),
    (∀ (r : Requester) (v : Word), isAtl r = true → writes s r (R.MAC_CTL.addr p 0 0) = true →
      (∃ t, exec (.portEnable r p v) s = .next t ∧ t.get R.MAC_CTL_STATE p = 1
        ∧ t.get R.MAC_CTL_MODE p = (if portState s p = 0 then bits v.toNat 4 3 else s.get R.MAC_CTL_MODE p)
        ∧ t = { s with bus := {}, regs := t.regs, sw := { s.sw with ports := t.sw.ports } }
        ∧ OnlyRegs s t [R.MAC_CTL.addr p 0 0, R.MAC_STAT.addr p 0 0, R.MAC_CNT.addr p 12 0])
      ∧ (∃ t, exec (.portDisable r p v) s = .next t ∧ t.get R.MAC_CTL_STATE p = 0 ∧ t.get R.MAC_CTL_MODE p = bits v.toNat 4 3
        ∧ (portState s p = 1 → t.get R.MAC_STAT_LINK p = 0 ∧ t.get R.MAC_STAT_PREEMPT_ACT p = 0 ∧ ∀ c : Nat, c < 8 → t.queue p c = [])
        ∧ (portState s p = 1 → s.on R.MAC_STAT_LINK p = true → t.get R.MAC_EVT_LINK_CHG p = 1)
        ∧ t = { s with bus := {}, regs := t.regs, sw := t.sw, freeCtr := t.freeCtr })
      ∧ (∃ t, exec (.portSleep r p v) s = .next t ∧ t.get R.MAC_CTL_STATE p = 2
        ∧ (portState s p = 1 → t.get R.MAC_STAT_LINK p = 0 ∧ t.get R.MAC_STAT_PREEMPT_ACT p = 0 ∧ ∀ c : Nat, c < 8 → t.queue p c = [])
        ∧ t = { s with bus := {}, regs := t.regs, sw := t.sw, freeCtr := t.freeCtr }))
    ∧ (portState s p = 1 → s.on R.MAC_STAT_LINK p = false → inMaquette s p = false → ∀ speed : Fin 5,
      (∃ t, exec (.linkUp p speed false) s = .next t ∧ t.get R.MAC_STAT_LINK p = 1 ∧ t.get R.MAC_STAT_HDX p = 0
        ∧ t.get R.MAC_STAT_SPEED p = speedOf p (s.get R.MAC_CTL_MODE p) speed ∧ t.get R.MAC_EVT_LINK_CHG p = 1
        ∧ t = { s with regs := t.regs } ∧ OnlyRegs s t [R.MAC_STAT.addr p 0 0, R.MAC_EVT.addr p 0 0])
      ∧ (∃ t, exec (.linkUp p speed true) s = .next t ∧ t.get R.MAC_STAT_HDX p = 1 ∧ t.get R.MAC_STAT_LINK p = 0
        ∧ t = { s with regs := t.regs } ∧ OnlyRegs s t [R.MAC_STAT.addr p 0 0]))
    ∧ (s.on R.MAC_STAT_LINK p = true → (∀ f e, (s.port p).pass = some f → f.owner = some e → e < 48) →
      ∃ t, exec (.linkDown p) s = .next t ∧ t.get R.MAC_STAT_LINK p = 0 ∧ t.get R.MAC_STAT_PREEMPT_ACT p = 0
        ∧ t.get R.MAC_EVT_LINK_CHG p = 1 ∧ (t.port p).pass = none ∧ (t.port p).verify = 0
        ∧ (arriving s p = false → t = { s with regs := t.regs, sw := { s.sw with ports := t.sw.ports } }
            ∧ OnlyRegs s t [R.MAC_STAT.addr p 0 0, R.MAC_EVT.addr p 0 0]))
    ∧ (∀ f : List Byte, ∃ t, exec (.wakeMatch p f) s = .next t
      ∧ (((s.on R.MAC_WAKE_CTL_MAGIC p = true ∧ magicAt (beBytes 6 (s.rd R.MAC_ADDR_LO p + 2 ^ 32 * s.get R.MAC_ADDR_HI_V p)) f = true)
            ∨ ∃ k, k < 8 ∧ (s.get R.MAC_WAKE_CTL_PAT_EN p).testBit k = true ∧ patternHit s p k f = true) →
          portState s p = 2 → t.get R.MAC_EVT_WAKE p = 1 ∧ t.get R.MAC_CTL_STATE p = (if s.on R.MAC_WAKE_CTL_AUTO p then 1 else 2)
            ∧ t = { s with regs := t.regs } ∧ OnlyRegs s t [R.MAC_EVT.addr p 0 0, R.MAC_CTL.addr p 0 0])
      ∧ (portState s p ≠ 2 → t = s))
    ∧ (portLive s p = true → s.on R.MAC_CTL_PREEMPT p = true → s.on R.MAC_CTL_VERIFY_DIS p = false →
      s.on R.MAC_STAT_PREEMPT_ACT p = false → (s.port p).verify < 3 → (s.get R.MAC_CTL_MODE p = 0 → p.val < 16 → 2 ≤ s.get R.MAC_STAT_SPEED p) →
      (∃ t, exec (.preemptVerify p true) s = .next t ∧ t.get R.MAC_STAT_PREEMPT_ACT p = 1 ∧ (t.port p).verify = 0
        ∧ t = { s with regs := t.regs, sw := { s.sw with ports := t.sw.ports } })
      ∧ ((s.port p).verify ≠ 0 → s.now < (s.port p).verifyAt + 10000000 → exec (.preemptVerify p false) s = .next s)
      ∧ ((s.port p).verify = 0 ∨ (s.port p).verifyAt + 10000000 ≤ s.now → ∃ t, exec (.preemptVerify p false) s = .next t
        ∧ (t.port p).verify = (s.port p).verify + 1 ∧ (t.port p).verifyAt = s.now
        ∧ t.get R.MAC_STAT_PREEMPT_ACT p = 0 ∧ ((s.port p).verify = 2 → t.get R.MAC_EVT_VERIFY_FAIL p = 1)
        ∧ t = { s with regs := t.regs, sw := { s.sw with ports := t.sw.ports } }))

/-- A pause frame at a live port with PAUSE_RX and without PFC holds every class for its quanta at the port's rate; a PFC frame naming one priority holds the class it maps to where that is enabled. A hold that has run out ends. The watchdog, past LIMIT, releases every class, sets PW_ACTIVE and PW_TRIP and counts; past RECOVER it lets pause act again. A gate list that is enabled and not empty starts at its base time in the cycle that stands; at the end of an entry it goes to the next, at the end of the cycle to the first; a pending list becomes operative at its cycle start. (R219, R221, R234, R235, R238) -/
def Obligations.PauseAndGates : Prop :=
  ∀ (p : Fin 24) (s : State),
    (portLive s p = true → type8 s p = false → s.on R.MAC_STAT_PW_ACTIVE p = false → ∀ (en : BitVec 8) (q : List (BitVec 16)),
      (s.on R.MAC_CTL_PAUSE_RX p = true → s.on R.MAC_CTL_PFC p = false → ∃ t, exec (.pauseFrame p false en q) s = .next t
        ∧ (∀ c : Nat, c < 8 → pausedTill t p c
            = if (q.getD 0 0).toNat = 0 then 0 else s.now + (q.getD 0 0).toNat * 512000 / portRate s p)
        ∧ t = { s with regs := t.regs, sw := { s.sw with pause := t.sw.pause, pwSince := t.sw.pwSince } }
        ∧ OnlyRegs s t [R.MAC_CNT.addr p 9 0])
      ∧ (∀ k : Nat, k < 8 → s.on R.MAC_CTL_PFC p = true → (∀ j : Nat, j < 8 → en.toNat.testBit j = decide (j = k)) →
        ∃ t, exec (.pauseFrame p true en q) s = .next t
        ∧ (∀ c : Nat, c < 8 → pausedTill t p c = (if c = pcpClass s p k ∧ (s.get R.MAC_PFC_EN p).testBit c = true then
            (if (q.getD k 0).toNat = 0 then 0 else s.now + (q.getD k 0).toNat * 512000 / portRate s p) else pausedTill s p c))
        ∧ t = { s with regs := t.regs, sw := { s.sw with pause := t.sw.pause, pwSince := t.sw.pwSince } }))
    ∧ (∀ c : Fin 8, pausedTill s p c ≠ 0 → pausedTill s p c ≤ s.now → ∃ t, exec (.pauseEnd p c) s = .next t
      ∧ pausedTill t p c = 0 ∧ (∀ k : Nat, k < 8 → k ≠ c.val → pausedTill t p k = pausedTill s p k)
      ∧ t = { s with sw := { s.sw with pause := t.sw.pause, pwSince := t.sw.pwSince } })
    ∧ (s.on R.MAC_PW_EN p = true → s.on R.MAC_STAT_PW_ACTIVE p = false → tabGet 0 s.sw.pwSince p ≠ 0 →
      max 1 (min 1000 (s.get R.MAC_PW_LIMIT p)) * 1000000 < s.now + 1 - tabGet 0 s.sw.pwSince p →
      ∃ t, exec (.pauseWatchdogTrip p) s = .next t ∧ (∀ c : Nat, c < 8 → pausedTill t p c = 0)
        ∧ t.get R.MAC_STAT_PW_ACTIVE p = 1 ∧ t.get R.MAC_EVT_PW_TRIP p = 1
        ∧ t.get R.MAC_CNT_V p 11 = min (s.get R.MAC_CNT_V p 11 + 1) (2 ^ 32 - 1) ∧ t = { s with regs := t.regs, sw := t.sw })
    ∧ (s.on R.MAC_STAT_PW_ACTIVE p = true → tabGet 0 s.sw.pwUntil p ≤ s.now → ∃ t, exec (.pauseWatchdogRecover p) s = .next t
      ∧ t.get R.MAC_STAT_PW_ACTIVE p = 0 ∧ t = { s with regs := t.regs } ∧ OnlyRegs s t [R.MAC_STAT.addr p 0 0])
    ∧ (s.on R.SW_GCL_CTL_EN p = true → (s.gcl p).len ≠ 0 →
      ((s.gcl p).running = false → s.get64 R.SW_GCL_BASE_LO R.SW_GCL_BASE_HI p ≤ domTime s (s.get R.SW_GCL_CTL_DOM p) →
        ∃ t, exec (.gateEntry p) s = .next t ∧ (t.gcl p).running = true ∧ t.get R.SW_GCL_STAT_IDX p = 0
          ∧ (t.gcl p).entry = (t.gcl p).cycle ∧ (t.gcl p).cycle ≤ domTime s (s.get R.SW_GCL_CTL_DOM p)
          ∧ domTime s (s.get R.SW_GCL_CTL_DOM p) < (t.gcl p).cycle + gclCycle s p
          ∧ gclCycle s p ∣ (t.gcl p).cycle - s.get64 R.SW_GCL_BASE_LO R.SW_GCL_BASE_HI p ∧ t = { s with regs := t.regs, sw := t.sw })
      ∧ ((s.gcl p).running = true → entryEnd s p ≤ domTime s (s.get R.SW_GCL_CTL_DOM p) → ∃ t, exec (.gateEntry p) s = .next t
          ∧ (t.gcl p).entry = entryEnd s p
          ∧ (entryEnd s p = (s.gcl p).cycle + gclCycle s p → (t.gcl p).cycle = entryEnd s p ∧ t.get R.SW_GCL_STAT_IDX p = 0)
          ∧ (entryEnd s p ≠ (s.gcl p).cycle + gclCycle s p → (t.gcl p).cycle = (s.gcl p).cycle
              ∧ (s.get R.SW_GCL_STAT_IDX p < 255 → t.get R.SW_GCL_STAT_IDX p = s.get R.SW_GCL_STAT_IDX p + 1))
          ∧ t = { s with regs := t.regs, sw := t.sw }))
    ∧ (s.on R.SW_GCL_STAT_PEND p = true → s.on R.SW_GCL_CTL_EN p = true → (s.gcl p).chgAt ≤ domTime s (s.get R.SW_GCL_CTL_DOM p) →
      ∃ t, exec (.gateListChange p) s = .next t ∧ t.get R.SW_GCL_STAT_PEND p = 0
        ∧ t.get R.SW_GCL_STAT_OPER p = 1 - s.get R.SW_GCL_STAT_OPER p ∧ t.get R.SW_GCL_STAT_IDX p = 0
        ∧ t.gcl p = { s.gcl p with running := true, len := max 1 (min 256 (s.get R.SW_GCL_LEN_V p)), cycle := (s.gcl p).chgAt, entry := (s.gcl p).chgAt }
        ∧ t = { s with regs := t.regs, sw := t.sw })

/-- For a requester whose write of SW_IND_CMD passes and who is Atelier: command 1 on an entry of a table other than the FDB loads its eight words into SW_IND_DATA, command 2 stores them into it but for its read-only counters; an FDB insert with VALID whose key finds a way makes a look-up of that key find the entry with the data's words; where all four ways are static it sets ERR; a delete takes the entry that holds the key away and clears ERR; a look-up that hits clears ERR and loads the entry's key, one that misses sets ERR. A dynamic entry older than SW_AGE goes; a recovery entry that has taken nothing for its timeout is reset and counts it. Nothing else changes. (R223, R224, R241) -/
def Obligations.SwitchTables : Prop :=
  (∀ (r : Requester) (s : State), isAtl r = true → writes s r (R.SW_IND_CMD.addr 0 0 0) = true →
    (s.get R.SW_IND_SEL_TABLE ≠ 0 → s.get R.SW_IND_SEL_INDEX < swEntries (s.get R.SW_IND_SEL_TABLE) →
      (∃ t, exec (.swIndRead r) s = .next t
        ∧ (∀ w : Nat, w < 8 → t.rd R.SW_IND_DATA w = swWord s (s.get R.SW_IND_SEL_TABLE) (s.get R.SW_IND_SEL_INDEX) w)
        ∧ t = { s with bus := {}, regs := t.regs } ∧ OnlyRegs s t ((List.range 8).map fun w => R.SW_IND_DATA.addr w 0 0))
      ∧ (∃ t, exec (.swIndWrite r) s = .next t
        ∧ (∀ e w : Nat, e < swEntries (s.get R.SW_IND_SEL_TABLE) → w < 8 → swWord t (s.get R.SW_IND_SEL_TABLE) e w
            = if e = s.get R.SW_IND_SEL_INDEX ∧ swRoWord (s.get R.SW_IND_SEL_TABLE) w = false then s.rd R.SW_IND_DATA w else swWord s (s.get R.SW_IND_SEL_TABLE) e w)
        ∧ t = { s with bus := {}, sw := { s.sw with tables := t.sw.tables } }))
    ∧ (∀ i : Nat, fdbVictim s (indKey s).1 (indKey s).2 = some i → (s.rd R.SW_IND_DATA 2).testBit 13 = true →
      ∃ t, exec (.fdbInsert r) s = .next t ∧ fdbFind t (indKey s).1 (indKey s).2 = some i ∧ swWord t 0 i 0 = s.rd R.SW_IND_DATA 0
        ∧ swWord t 0 i 1 = s.rd R.SW_IND_DATA 1 ∧ swWord t 0 i 2 = s.rd R.SW_IND_DATA 2 % 65536
        ∧ swWord t 0 i 3 = s.rd R.SW_IND_DATA 3 ∧ t.get R.SW_IND_STAT_ERR = 0 ∧ t = { s with bus := {}, regs := t.regs, sw := t.sw })
    ∧ (fdbVictim s (indKey s).1 (indKey s).2 = none → ∃ t, exec (.fdbInsert r) s = .next t ∧ t.get R.SW_IND_STAT_ERR = 1
      ∧ t = { s with bus := {}, regs := t.regs })
    ∧ (∀ i : Nat, fdbFind s (indKey s).1 (indKey s).2 = some i →
      (∃ t, exec (.fdbDelete r) s = .next t ∧ fdbValid t i = false ∧ t.get R.SW_IND_STAT_ERR = 0
        ∧ (∀ j : Nat, j < 32768 → j ≠ i → swWord t 0 j 2 = swWord s 0 j 2) ∧ t = { s with bus := {}, regs := t.regs, sw := t.sw })
      ∧ (∃ t, exec (.fdbLookup r) s = .next t ∧ t.rd R.SW_IND_DATA 0 = swWord s 0 i 0 ∧ t.rd R.SW_IND_DATA 1 = swWord s 0 i 1
        ∧ t.get R.SW_IND_STAT_ERR = 0 ∧ t = { s with bus := {}, regs := t.regs }))
    ∧ (fdbFind s (indKey s).1 (indKey s).2 = none → ∃ t, exec (.fdbLookup r) s = .next t ∧ t.get R.SW_IND_STAT_ERR = 1
      ∧ t = { s with bus := {}, regs := t.regs } ∧ OnlyRegs s t [R.SW_IND_STAT.addr 0 0 0]))
  ∧ (∀ (i : Fin 32768) (s : State), fdbValid s i = true → fdbStatic s i = false →
    max 1 (min 1000000 (s.get R.SW_AGE_V)) < fdbAge s i → ∃ t, exec (.fdbAgeOut i) s = .next t ∧ fdbValid t i = false
      ∧ (∀ j : Nat, j < 32768 → j ≠ i.val → ∀ w : Nat, w < 8 → swWord t 0 j w = swWord s 0 j w) ∧ t = { s with sw := t.sw })
  ∧ (∀ (i : Fin 512) (s : State), (tabGet {} s.sw.frer i).taken = true →
    bits (swWord s 5 i 1) 0 16 * 1000000 ≤ s.now - (tabGet {} s.sw.frer i).at_ → ∃ t, exec (.frerResetTimeout i) s = .next t
      ∧ (tabGet {} t.sw.frer i).taken = false ∧ swWord t 5 i 6 = min (swWord s 5 i 6 + 1) (2 ^ 32 - 1) ∧ t = { s with sw := t.sw })

/-- A good frame at an unbound live port of an enabled switch core, whose VLAN is known and whose destination the FDB gives as an internal port with room, is queued there with its class, whole and with its cells counted; a frame of an unknown VLAN is dropped and counted, and fragments on a port without preemption count as a bad frame (model's choice). The head of a queue starts where it may and no higher class may: at an external port it goes on the wire, at the HDMA port it is handed to HDMA receive, on EF0 or EF1 it goes into the window of the attached engine that it is for, and its queue goes on; a frame older than the residence limit is dropped and counted instead. (R214, R223, R225, R228, R231, R237, R242) -/
def Obligations.SwitchFrames : Prop :=
  (∀ (p : Fin 24) (ext : Fin 24) (frag : Fin 256) (f : List Byte) (q : Nat) (s : State), portLive s p = true → binders s p = [] →
    inMaquette s p = false → type8 s p = false → s.on R.SW_CTL_EN = true →
    (frag ≠ 0 → s.on R.MAC_CTL_PREEMPT p = false → ∃ t, exec (.ingressFrame (p.castLE (by omega)) ext ⟨f, frag⟩) s = .next t
      ∧ t.get R.MAC_CNT_V p 2 = min (s.get R.MAC_CNT_V p 2 + 1) (2 ^ 32 - 1) ∧ t.sw = s.sw)
    ∧ ((frag = 0 ∨ s.on R.MAC_CTL_PREEMPT p = true) → 64 ≤ f.length → f.length ≤ s.get R.MAC_MAXLEN_V p → fcsOk f = true →
    ∀ vid pcp cls : Nat, vid = (if (if tagged f then tci f % 4096 else 0) = 0 then s.get R.SW_P_CFG_PVID p else tci f % 4096) →
    pcp = (if tagged f then tci f / 8192 else s.get R.SW_P_CFG_DEF_PCP p) → cls = pcpClass s p pcp →
    ((swWord s 1 vid 2).testBit 16 = false → ∃ t, exec (.ingressFrame (p.castLE (by omega)) ext ⟨f, frag⟩) s = .next t
      ∧ t.get R.SW_P_DROP_V p 6 cls = min (s.get R.SW_P_DROP_V p 6 cls + 1) (2 ^ 32 - 1) ∧ t.sw = s.sw)
    ∧ (∀ i : Nat, (swWord s 1 vid 2).testBit 16 = true → s.on R.SW_P_CFG_INGRESS_FILT p = false → s.on R.SW_P_CFG_LEARN p = false →
      frameDa f ≠ 0xFFFFFFFFFFFF → fdbFind s (frameDa f) (swWord s 1 vid 2 % 4096) = some i → swWord s 0 i 2 % 4 = 0 → bits (swWord s 0 i 2) 2 10 = q →
      24 ≤ q → q < 30 → (swWord s 0 i 3).testBit 15 = false →
      (f.length + 8 + 255) / 256 + cellsOf (s.queue q cls) ≤ s.get R.SW_P_LIM_V q cls → cellsOf (s.queue q cls) < s.get R.SW_P_LIM_V q cls →
      s.get R.SW_WRED_MIN_V (8 * q + cls) (if tagged f && (tci f).testBit 12 then 1 else 0) = 0x7FFF →
      s.get R.SW_WRED_MAX_V (8 * q + cls) (if tagged f && (tci f).testBit 12 then 1 else 0) = 0x7FFF →
      s.on R.SW_CTL_PUSHOUT = false → (f.length + 8 + 255) / 256 ≤ s.get R.SW_POOL_FREE_V →
      ∃ t x, exec (.ingressFrame (p.castLE (by omega)) ext ⟨f, frag⟩) s = .next t ∧ t.queue q cls = s.queue q cls ++ [x]
        ∧ x.bytes = egressCopy f (pcp * 8192 + vid) ((swWord s 1 vid 1).testBit q) false ∧ x.cls = cls ∧ x.ingress = p.val
        ∧ x.shared + x.rsv = (x.bytes.length + 255) / 256 ∧ x.at_ = s.now
        ∧ t.get R.SW_POOL_FREE_V = s.get R.SW_POOL_FREE_V - x.shared)))
  ∧ (∀ (p : Fin 30) (c : Fin 8) (x : SwFrame) (rest : List SwFrame) (s : State), s.queue p c = x :: rest →
    (∀ k : Nat, k < 8 → s.on R.SW_CBS_EN (8 * p.val + k) = false) →
    (max 1 (min 10000 (s.get R.SW_RES_LIMIT_V)) * 1000000 < s.now - x.at_ → ∃ t, exec (.egressFrameStart p c) s = .next t
      ∧ t.queue p c = rest ∧ t.get R.SW_P_DROP_V p 4 c = min (s.get R.SW_P_DROP_V p 4 c + 1) (2 ^ 32 - 1)
      ∧ t = { s with regs := t.regs, sw := t.sw, freeCtr := t.freeCtr })
    ∧ (s.now - x.at_ ≤ max 1 (min 10000 (s.get R.SW_RES_LIMIT_V)) * 1000000 → eligible s p c = true →
      (∀ k : Nat, c.val < k → k < 8 → eligible s p k = false) →
      (p.val < 24 → s.on R.TB_PORT_CFG_ONESTEP p = false → s.on R.TB_PORT_CFG_TC p = false → inMaquette s p = false →
        ∃ t, exec (.egressFrameStart p c) s = .next t ∧ t.queue p c = rest ∧ (t.port p).wire = withFcs (dropFcs x.bytes) true)
      ∧ (∀ e : Nat, e < 48 → p.val = 24 + e % 2 → x.eng = some e → (s.eng e).attach.isSome = true → (s.eng e).winB.rx = [] → x.bytes ≠ [] →
        (∀ k : Nat, k < 8 → ∀ y ∈ s.queue p k, y.eng = some e → x.at_ ≤ y.at_) →
        ∃ t, exec (.egressFrameStart p c) s = .next t ∧ t.queue p c = rest ∧ (t.eng e).winB.rx ≠ [])
      ∧ (p.val = 27 → ∃ t, exec (.egressFrameStart p c) s = .next t ∧ t.queue p c = rest ∧ t.dma.hrx = dropFcs x.bytes
        ∧ t = { s with regs := t.regs, sw := t.sw, dma := { s.dma with hrx := t.dma.hrx }, freeCtr := t.freeCtr })))

/-- A command taken from mailbox n is acknowledged as follows. An opcode that AF 3.2.0 does not have: BAD_OP. NOP: OK and its ARG. PING: OK and 0x3200. FX_HOLD_REL: OK and the former HOLD bits, HOLD released. With a channel whose entry passes the common checks: CH_OPEN of a channel that is no stream: OK and GEN, of a stream that is in order: the stream runs; CH_CLOSE: BUSY for a running instance's channel, else its stream and its cached entry go; CH_REFRESH: the entry is read anew; DIAG_READ with SEL 1: the eight words of the store stand in the parameter area, undefined selectors are BAD_STATE. The next notification goes out through AMB0. (R319, R320, R322, R324, R325, R326, R329, R330, R336, R345) -/
def Obligations.HostServiceCommands : Prop :=
  ∀ (n : Fin 16) (s : State),
    (canTake s n = true → plainOps.contains (hmbOp s n) = false → chanOps.contains (hmbOp s n) = false →
      ∃ t, exec (.undefinedOpcode n) s = .next t ∧ Acked s t n 2 0 ∧ t = { s with regs := t.regs, cmd := t.cmd } ∧ OnlyRegs s t (ackRegs n))
    ∧ (canTake s n = true → hmbOp s n = 0 → ∃ t, exec (.hmbNop n) s = .next t ∧ Acked s t n 0 (hmbArg s n)
      ∧ t = { s with regs := t.regs, cmd := t.cmd } ∧ OnlyRegs s t (ackRegs n))
    ∧ (canTake s n = true → hmbOp s n = 1 → ∃ t, exec (.ping n) s = .next t ∧ Acked s t n 0 0x3200
      ∧ t = { s with regs := t.regs, cmd := t.cmd } ∧ OnlyRegs s t (ackRegs n))
    ∧ (Taken s n 0x29 = true → ∃ t, exec (.fxHoldRel n) s = .next t
      ∧ Acked s t n 0 (s.get R.FX_STAT_HOLD + 2 * s.get R.FX_STAT_HOLD_EXPIRED) ∧ t.get R.FX_STAT_HOLD = 0
      ∧ t.get R.FX_STAT_HOLD_EXPIRED = 0 ∧ t = { s with regs := t.regs, cmd := t.cmd, field := t.field })
    ∧ (∀ b : List Byte, Served s n 0x08 [1, 2, 3] 0 b = true → chFieldsOk b = true →
      (chType b ≠ 3 → ∃ t, exec (.chOpen n) s = .next t ∧ Acked s t n 0 (chGen b) ∧ t.cmd.streams = s.cmd.streams
        ∧ t = { s with regs := t.regs, cmd := t.cmd } ∧ OnlyRegs s t (ackRegs n))
      ∧ (chType b = 3 → streamOk s b = true → streamQueueOk s (chDq b) = true → streamOnQueue s (chDq b) = false →
        s.cmd.streams.any (·.ch == hmbCh s n) = false → ∃ t, exec (.chOpen n) s = .next t ∧ Acked s t n 0 (chGen b)
          ∧ t.cmd.streams = s.cmd.streams ++ [⟨hmbCh s n, b⟩] ∧ t = { s with regs := t.regs, cmd := t.cmd } ∧ OnlyRegs s t (ackRegs n)))
    ∧ (∀ b : List Byte, Served s n 0x09 [1, 2, 3] 0 b = true → ∃ t, exec (.chClose n) s = .next t
      ∧ (chType b = 2 → chHeld s (hmbCh s n) = true → Acked s t n 1 0 ∧ t.cmd.streams = s.cmd.streams)
      ∧ (chType b ≠ 2 ∨ chHeld s (hmbCh s n) = false → Acked s t n 0 0 ∧ cached t (hmbCh s n) = none
          ∧ t.cmd.streams = s.cmd.streams.filter fun e => e.ch != hmbCh s n)
      ∧ t = { s with regs := t.regs, cmd := t.cmd } ∧ OnlyRegs s t (ackRegs n))
    ∧ (∀ b : List Byte, Served s n 0x0A [1, 2, 3] 0 b = true → chHeld s (hmbCh s n) = false → chtUp s = true →
      (s.on R.HIF_CHT_CTL_LOC = true → memReady s (.atl 0) (entryPlace s (hmbCh s n)) 64 = true) → chFlag (entryAt s (hmbCh s n)) 0 = true → [1, 2, 3].contains (chType (entryAt s (hmbCh s n))) = true →
      ∃ t, exec (.chRefresh n) s = .next t ∧ Acked s t n 0 (chGen (entryAt s (hmbCh s n)))
        ∧ cached t (hmbCh s n) = some (entryAt s (hmbCh s n)) ∧ t = { s with regs := t.regs, cmd := t.cmd } ∧ OnlyRegs s t (R.HIF_CHC_MISS.addr 0 0 0 :: ackRegs n))
    ∧ (∀ b : List Byte, (Served s n 0x30 [1] 32 b = true → hmbArg s n = 1 → ∃ t, exec (.diagRead n) s = .next t ∧ Acked s t n 0 8
        ∧ t.words (chtSpace s) (parAddr s b) 8 = [R.SS_NITEMS, R.SS_NCASTS, R.SS_WR_CNT, R.SS_THRU_CNT, R.SS_THRU_DEPTH,
            R.SS_REMOTE_CNT, R.SS_ECC_HANDLE, R.SS_EVT].map (fun r => regView s r 0 % 2 ^ 32)
        ∧ OnlyBytes s t (chtSpace s) (parAddr s b) 32 ∧ t = { s with regs := t.regs, cmd := t.cmd, mem := t.mem })
      ∧ (Served s n 0x30 [1, 2] 0 b = true → diagShape (hmbArg s n) = none → ∃ t, exec (.diagRead n) s = .next t
        ∧ Acked s t n 4 0 ∧ t = { s with regs := t.regs, cmd := t.cmd } ∧ OnlyRegs s t (ackRegs n)))
    ∧ (∀ (w : Word) (ws : List Word), s.cmd.notes = w :: ws → s.cmd.lost = 0 → s.on R.AMB_STAT_FULL 0 = false →
      s.on R.HIF_STAT_ATL_RESTART = false → ∃ t, exec .notification s = .next t ∧ t.rd R.AMB_DATA 0 = w.toNat
        ∧ t.get R.AMB_STAT_FULL 0 = 1 ∧ t.get R.AMB_STAT_ACKV 0 = 0 ∧ t.cmd.notes = ws
        ∧ t = { s with regs := t.regs, cmd := { s.cmd with notes := ws } })

/-- A batch of one entry on a channel that passes the common checks: ITEM_SET of a new handle that breaks no rule of the map gives it the entry's word with VALID and without casts, every other item as before, and is acknowledged with 1; one that breaks a rule writes BAD_STATE to the entry's STATUS and changes no item; ITEM_CLEAR of an item that nothing holds or casts to makes it invalid, all others keep their validity; CAST_SET of the only item's first cast that passes every check puts it, as the last of its run, at the table's start; CAST_CLEAR of all empties the run and counts. CG_SET of a group that nothing holds and that is fast enough writes its control and keeps MIN_PERIOD; CG0 is DENIED. (R39, R51, R58, R325, R328, R333, R334) -/
def Obligations.HostStoreCommands : Prop :=
  ∀ (n : Fin 16) (b e : List Byte) (s : State),
    (hmbArg s n = 1 → Served s n 0x18 [1] 16 b = true → e = parBytes s (parAddr s b) 16 → itValid (s.item (hdr e 0 4 % 262144)) = false →
      (itemBad s (hdr e 0 4 % 262144) (entryBits e) = false → ∃ t, exec (.itemSet n) s = .next t ∧ Acked s t n 0 1
        ∧ t.item (hdr e 0 4 % 262144) = entryWith (entryBits e) 0xFFFF
        ∧ (∀ h : Nat, h ≠ hdr e 0 4 % 262144 → t.item h = s.item h)
        ∧ t = { s with regs := t.regs, cmd := t.cmd, store := t.store, mem := t.mem })
      ∧ (itemBad s (hdr e 0 4 % 262144) (entryBits e) = true → ∃ t, exec (.itemSet n) s = .next t ∧ Acked s t n 4 0
        ∧ t.mrd (chtSpace s) (parAddr s b + 12) = 4 ∧ OnlyBytes s t (chtSpace s) (parAddr s b + 12) 1
        ∧ t = { s with regs := t.regs, cmd := t.cmd, mem := t.mem }))
    ∧ (hmbArg s n = 1 → Served s n 0x19 [1] 4 b = true → e = parBytes s (parAddr s b) 4 → itValid (s.item (hdr e 0 4 % 262144)) = true →
      itemHeld s (hdr e 0 4 % 262144) = false → (∀ p ∈ s.store.casts, caValid p.2 = true → caRemote p.2 = true ∨ caDst p.2 ≠ hdr e 0 4 % 262144) →
      ∃ t, exec (.itemClear n) s = .next t ∧ Acked s t n 0 1 ∧ itValid (t.item (hdr e 0 4 % 262144)) = false
        ∧ (∀ h : Nat, h ≠ hdr e 0 4 % 262144 → itValid (t.item h) = itValid (s.item h))
      ∧ t = { s with regs := t.regs, cmd := t.cmd, store := t.store, mem := t.mem } ∧ OnlyRegs s t (ackRegs n))
    ∧ (∀ x : BitVec 64, hmbArg s n = 1 → e = parBytes s (parAddr s b) 16 → s.store.items = [(hdr e 0 4 % 262144, x)] → itValid x = true →
      (Served s n 0x1B [1] 16 b = true → s.store.casts = [] → castBad s (hdr e 0 4 % 262144) (entryBits e) = none →
        ∃ t, exec (.castSet n) s = .next t ∧ Acked s t n 0 1 ∧ t.store.casts = [(0, castEntry (entryBits e) true)]
          ∧ itCast (t.item (hdr e 0 4 % 262144)) = 0 ∧ t = { s with regs := t.regs, cmd := t.cmd, store := t.store })
      ∧ (Served s n 0x1C [1] 16 b = true → (hdr e 0 4).testBit 31 = true → ∃ t, exec (.castClear n) s = .next t
          ∧ Acked s t n 0 (min (castRun s x).length 0xFFFF) ∧ t.store.casts = [] ∧ itCast (t.item (hdr e 0 4 % 262144)) = 0xFFFF
          ∧ t = { s with regs := t.regs, cmd := t.cmd, store := t.store }))
    ∧ (∀ g ctl mp : Nat, Served s n 0x1A [1] 16 b = true → hmbArg s n = g → g < 256 → ctl = s.mword (chtSpace s) (parAddr s b) →
      mp = s.mword (chtSpace s) (parAddr s b + 4) →
      (g ≠ 0 → groupHeld s g = false → tooSlow (groupSlots s g) (commitPeriod s ctl mp) = false → ∃ t, exec (.cgSet n) s = .next t
        ∧ Acked s t n 0 g ∧ t.rd R.SS_CG_CTL g = regWriteWord R.SS_CG_CTL (s.rd R.SS_CG_CTL g) ctl % 2 ^ 32
        ∧ tabGet 0 t.cmd.minPeriod g = mp ∧ (∀ k : Nat, k < 256 → k ≠ g → t.rd R.SS_CG_CTL k = s.rd R.SS_CG_CTL k)
        ∧ t = { s with regs := t.regs, cmd := t.cmd, store := t.store })
      ∧ (g = 0 → ∃ t, exec (.cgSet n) s = .next t ∧ Acked s t n 6 0 ∧ t = { s with regs := t.regs, cmd := t.cmd } ∧ OnlyRegs s t (ackRegs n)))

/-- A batch of one WRITE record on a channel that passes the common checks writes the register it names and is acknowledged with 1: PORT_CFG MAC_MAXLEN (a value outside 64 to 9,216 is taken as the nearer end), SW_CFG SW_AGE, TIME_CFG a domain's STEP_THR, CAN_CFG the bit timing of an unowned controller in INIT, RASP_CFG the pin map of an unowned unit, FX_CFG a channel's DIAG_EN, and nothing else changes. For each of the six, a record whose address is outside the command's range is DENIED: its STATUS byte says so and no register of the device changes. A WAIT record on SW_AGE that has waited for 10 ms and whose condition does not hold ends with TIMEOUT in its STATUS byte: the acknowledge is TIMEOUT at the first record, else PARTIAL with the number applied. (R326, R328, R335, R254) -/
def Obligations.ConfigurationCommands : Prop :=
  (∀ (n : Fin 16) (b e : List Byte) (s : State), hmbArg s n = 1 → e = parBytes s (parAddr s b) 16 → hdr e 4 1 = 0 →
    (∀ p : Fin 24, Served s n 0x20 [1] 16 b = true → hdr e 0 4 = R.MAC_MAXLEN.addr p 0 0 → ∃ t, exec (.portCfg n) s = .next t
      ∧ Acked s t n 0 1 ∧ t.get R.MAC_MAXLEN_V p = max 64 (min 9216 (hdr e 8 4 % 2 ^ 14)) ∧ t = { s with regs := t.regs, cmd := t.cmd } ∧ OnlyRegs s t (R.MAC_MAXLEN.addr p 0 0 :: ackRegs n))
    ∧ (Served s n 0x21 [1] 16 b = true → hdr e 0 4 = R.SW_AGE.addr 0 0 0 → ∃ t, exec (.swCfg n) s = .next t
      ∧ Acked s t n 0 1 ∧ t.get R.SW_AGE_V = hdr e 8 4 % 2 ^ 20 ∧ t = { s with regs := t.regs, cmd := t.cmd } ∧ OnlyRegs s t (R.SW_AGE.addr 0 0 0 :: ackRegs n))
    ∧ (∀ d : Fin 2, Served s n 0x22 [1] 16 b = true → hdr e 0 4 = R.TB_D_STEP_THR.addr d 0 0 → ∃ t, exec (.timeCfg n) s = .next t
      ∧ Acked s t n 0 1 ∧ t.get R.TB_D_STEP_THR_V d = hdr e 8 4 % 2 ^ 24 ∧ t = { s with regs := t.regs, cmd := t.cmd } ∧ OnlyRegs s t (R.TB_D_STEP_THR.addr d 0 0 :: ackRegs n))
    ∧ (∀ c : Fin 4, Served s n 0x23 [1] 16 b = true → hdr e 0 4 = R.CAN_NBT.addr c 0 0 → s.on R.CAN_CTL_OWNER_EN c = false →
      s.on R.CAN_STAT_INIT c = true → ∃ t, exec (.canCfg n) s = .next t ∧ Acked s t n 0 1 ∧ t.rd R.CAN_NBT c % 2 ^ 31 = hdr e 8 4 % 2 ^ 31
        ∧ t = { s with regs := t.regs, cmd := t.cmd } ∧ OnlyRegs s t (R.CAN_NBT.addr c 0 0 :: ackRegs n))
    ∧ (∀ u : Fin 16, Served s n 0x24 [1] 16 b = true → hdr e 0 4 = R.RASP_U_OMAP.addr u 0 0 → s.on R.RASP_U_CTL_OWNER_EN u = false →
      ∃ t, exec (.raspCfg n) s = .next t ∧ Acked s t n 0 1 ∧ t.rd R.RASP_U_OMAP u % 2 ^ 30 = hdr e 8 4 % 2 ^ 30
        ∧ t = { s with regs := t.regs, cmd := t.cmd } ∧ OnlyRegs s t (R.RASP_U_OMAP.addr u 0 0 :: ackRegs n))
    ∧ (∀ c : Fin 32, Served s n 0x28 [1] 16 b = true → hdr e 0 4 = R.FX_CH_DIAG_EN.addr c 0 0 → ∃ t, exec (.fxCfg n) s = .next t
      ∧ Acked s t n 0 1 ∧ t.get R.FX_CH_DIAG_EN_V c = hdr e 8 4 % 2 ^ 7 ∧ t = { s with regs := t.regs, cmd := t.cmd } ∧ OnlyRegs s t (R.FX_CH_DIAG_EN.addr c 0 0 :: ackRegs n)))
  ∧ (∀ (n : Fin 16) (b e : List Byte) (c : Instr) (op : Nat) (s : State), (c = .portCfg n ∧ op = 0x20) ∨ (c = .swCfg n ∧ op = 0x21)
      ∨ (c = .timeCfg n ∧ op = 0x22) ∨ (c = .canCfg n ∧ op = 0x23) ∨ (c = .raspCfg n ∧ op = 0x24) ∨ (c = .fxCfg n ∧ op = 0x28) →
    hmbArg s n = 1 → Served s n op [1] 16 b = true → e = parBytes s (parAddr s b) 16 → hdr e 4 1 ≤ 3 → cfgRange op (hdr e 0 4) = false →
    ∃ t, exec c s = .next t ∧ Acked s t n 6 0 ∧ t.mrd (chtSpace s) (parAddr s b + 5) = 6
      ∧ OnlyBytes s t (chtSpace s) (parAddr s b + 5) 1 ∧ t = { s with regs := t.regs, cmd := t.cmd, mem := t.mem }
      ∧ OnlyRegs s t (ackRegs n))
  ∧ (∀ (n : Fin 16) (a i since : Nat) (e : List Byte) (s : State), s.job n = .record a i since → i < 4096 →
    s.on R.HIF_STAT_ATL_RESTART = false → since + 10000000 ≤ s.now → hmbOp s n = 0x21 → e = parBytes s (a + 16 * i) 16 →
    hdr e 0 4 = R.SW_AGE.addr 0 0 0 → hdr e 4 1 = 3 → s.rd R.SW_AGE &&& hdr e 12 4 ≠ hdr e 8 4 →
    (s.on R.HIF_CHT_CTL_LOC = true → memReady s (.atl 0) (a + 16 * i) 16 = true) → ∃ t, exec (.recordWaitTimeout n) s = .next t ∧ (if i = 0 then Acked s t n 7 0 else Acked s t n 10 i) ∧ t.job n = .none
      ∧ t.mrd (chtSpace s) (a + 16 * i + 5) = 7 ∧ OnlyBytes s t (chtSpace s) (a + 16 * i + 5) 1
      ∧ t = { s with regs := t.regs, cmd := t.cmd, mem := t.mem } ∧ OnlyRegs s t (ackRegs n))

/-- On a channel that passes the common checks: PACK_LOAD takes the image from its buffer and waits for Armature; the load that came first ends with the status of the checks, with OK its pack in the slot; PACK_UNLOAD empties a loaded slot that no instance runs, else BUSY or BAD_STATE; PACK_START, where the plan of the pack and the allocation succeed, makes an instance STARTING with its slot, role, channel, ports and one engine for each program, answers its number in the acknowledge and its resources in the parameter area; PACK_STOP makes the channel's running instance STOPPING. When its engines are HALTED the instance is STOPPED, gives up engines, generators and ports, and the command is acknowledged. (R130, R131, R134, R140, R158, R324, R331, R332) -/
def Obligations.PackCommands : Prop :=
  (∀ (n : Fin 16) (b : List Byte) (s : State), Served s n 0x10 [1] 16 b = true →
    (s.on R.HIF_CHT_CTL_LOC = true → memReady s (.atl 0) (chtAddr s (leNat (parBytes s (parAddr s b) 8))) (leNat (parBytes s (parAddr s b + 8) 4)) = true) → ∃ t, exec (.packLoad n) s = .next t
    ∧ t.packs.loads = s.packs.loads ++ [(n.val, parBytes s (chtAddr s (leNat (parBytes s (parAddr s b) 8))) (leNat (parBytes s (parAddr s b + 8) 4)))]
    ∧ t.job n = .packLoad ∧ t = { s with regs := t.regs, cmd := t.cmd, packs := t.packs } ∧ OnlyRegs s t [R.HIF_CHC_HIT.addr 0 0 0])
  ∧ (∀ (n : Fin 16) (img : List Byte) (rest : List (Nat × List Byte)) (s : State), s.packs.loads = (n.val, img) :: rest →
    s.on R.HIF_STAT_ATL_RESTART = false → ∃ t, exec .packVerified s = .next t ∧ t.packs.loads = rest ∧ t.packs.insts = s.packs.insts
      ∧ ((packCheck s img).1 = 0 → Acked s t n 0 (packCheck s img).2 ∧ (t.slot (packCheck s img).2).loaded = true
          ∧ (t.slot (packCheck s img).2).code = imgCode img
          ∧ (memReady s .arm ((imageRoom s (packCheck s img).2 img.length).getD 0) img.length = true → slotImage t (t.slot (packCheck s img).2) = img))
      ∧ ((packCheck s img).1 ≠ 0 → Acked s t n (packCheck s img).1 0 ∧ t.packs.slots = s.packs.slots))
  ∧ (∀ (n : Fin 16) (s : State), Taken s n 0x11 = true → ∃ t, exec (.packUnload n) s = .next t
    ∧ ((s.slot (hmbArg s n % 16)).loaded = false → Acked s t n 4 0 ∧ t.packs = s.packs)
    ∧ ((s.slot (hmbArg s n % 16)).loaded = true → slotRuns s (hmbArg s n % 16) = true → Acked s t n 1 0 ∧ t.packs = s.packs)
    ∧ ((s.slot (hmbArg s n % 16)).loaded = true → slotRuns s (hmbArg s n % 16) = false → Acked s t n 0 0
        ∧ t.slot (hmbArg s n % 16) = {} ∧ ∀ k, k ≠ hmbArg s n % 16 → t.slot k = s.slot k)
    ∧ t = { s with regs := t.regs, cmd := t.cmd, packs := t.packs } ∧ OnlyRegs s t (ackRegs n))
  ∧ (∀ (n : Fin 16) (b : List Byte) (i slot role mask : Nat) (plan : Config.PackPlan) (fz : Option FzCfg) (progs : List Config.PackEngine)
      (s u v : State), Served s n 0x12 [2] 0x20 b = true → u = cacheUse (s.addSat R.HIF_CHC_HIT_V 1) (hmbCh s n) b →
    slot = hmbArg s n % 16 → role = bits (hmbArg s n) 4 5 → mask = leNat (parBytes s (parAddr s b) 4) % 2 ^ 24 →
    (s.slot slot).loaded = true → (s.slot slot).roles.testBit role = true → chHeld s (hmbCh s n) = false →
    (∀ q ∈ portList mask, (instOfPort s q).isNone = true ∧ inMaquette s q = false) → instOfCh s (hmbCh s n) = none → instFree s = some i →
    startPlan u (s.slot slot) role mask (parBytes s (parAddr s b + 0x20) (chLen b - 0x20)) = .ok (plan, fz, progs) →
    startAll u i (hmbCh s n) slot role mask (leNat (parBytes s (parAddr s b + 4) 4)) plan fz progs = .ok v →
    v.rd R.HMB_DATA n = s.rd R.HMB_DATA n → i < 256 → chtSpace v = chtSpace s →
    (s.on R.HIF_CHT_CTL_LOC = true → memReady u (.atl 0) (parAddr s b) (chLen b) = true ∧ memReady v (.atl 0) (parAddr s b + 0x10) 16 = true) → ∃ t, exec (.packStart n) s = .next t ∧ Acked s t n 0 i ∧ (t.inst i).used = true ∧ (t.inst i).st = 1 ∧ (t.inst i).slot = slot
      ∧ (t.inst i).role = role ∧ (t.inst i).ch = hmbCh s n ∧ (t.inst i).ports = mask ∧ (t.inst i).engines.length = progs.length
      ∧ t.mword (chtSpace s) (parAddr s b + 0x10) = instRes (t.inst i) % 2 ^ 32)
  ∧ (∀ (n : Fin 16) (b : List Byte) (i : Nat) (s : State), Served s n 0x13 [2] 0 b = true →
    (instWhere s fun x => x.st != 0 && x.st != 4 && x.ch == hmbCh s n).head? = some i → ∃ t, exec (.packStop n) s = .next t
      ∧ t.inst i = { s.inst i with st := 4 } ∧ (∀ k, k ≠ i → t.inst k = s.inst k) ∧ t.job n = .packStop i)
  ∧ (∀ (i : Fin 256) (n : Nat) (s : State), (s.inst i).used = true → (s.inst i).st = 4 → (∀ e ∈ (s.inst i).engines, e < 48 ∧ engState s e = 0) →
    (∀ g ∈ (s.inst i).groups, g < 256) → (∀ g ∈ (s.inst i).igs, g < 32) → n < 16 → s.job n = .packStop i →
    s.on R.HIF_STAT_ATL_RESTART = false → ∃ t, exec (.instanceStopped i) s = .next t ∧ (t.inst i).st = 0 ∧ (t.inst i).used = true
      ∧ (t.inst i).engines = [] ∧ (t.inst i).igs = [] ∧ (t.inst i).ports = 0 ∧ (t.inst i).groups = (s.inst i).groups
      ∧ Acked s t n 0 0 ∧ ∀ k, k ≠ i.val → t.inst k = s.inst k)

/-- On a channel that passes the common checks: BEGIN erases the whole inactive slot (this model's reading: the slot that did not start), which the boot takes from then on for invalid, opens the update and answers the slot, BUSY while one is open. WRITE copies LEN bytes, a multiple of 256 up to 65,536 that lies in the slot, from the buffer to the slot's offset, and no other byte changes; any other LEN, or no open update, is BAD_STATE. COMMIT of an image that passes every check closes the update; a firmware image makes its slot valid and writes the slot and the next SEQ with their CRC to both copies of the boot record (the copies' layout is this model's), a ROM patch is copied to its area; a refused one is acknowledged with its status, and nothing changes. ABORT closes the update, BAD_STATE without one. No register changes but those of the acknowledge. (R326, R338, R398, R400, R402, R417) -/
def Obligations.FirmwareCommands : Prop :=
  ∀ (n : Fin 16) (b : List Byte) (s : State),
    (hmbArg s n % 4 = 0 → Served s n 0x40 [1] 0 b = true → ∃ t, exec (.fwUpdateBegin n) s = .next t
      ∧ (s.cmd.fwOpen = none → Acked s t n 0 (fwSlot s) ∧ t.cmd.fwOpen = some (fwSlot s)
          ∧ (∀ a : Nat, a < 0x800000 → t.mrd .flash (slotFlash (fwSlot s) + a) = 0)
          ∧ OnlyBytes s t .flash (slotFlash (fwSlot s)) 0x800000)
      ∧ (s.cmd.fwOpen ≠ none → Acked s t n 1 0 ∧ t.mem = s.mem ∧ t.cmd.fwOpen = s.cmd.fwOpen ∧ t.boot = s.boot)
      ∧ (s.cmd.fwOpen = none → fwSlot s ∈ t.boot.unfit)
      ∧ t = { s with regs := t.regs, cmd := t.cmd, mem := t.mem, boot := { s.boot with unfit := t.boot.unfit } } ∧ OnlyRegs s t (ackRegs n))
    ∧ (∀ off len : Nat, hmbArg s n % 4 = 1 → Served s n 0x40 [1] 16 b = true → off = leNat (parBytes s (parAddr s b) 4) →
      len = leNat (parBytes s (parAddr s b + 4) 4) →
      (s.on R.HIF_CHT_CTL_LOC = true → memReady s (.atl 0) (chtAddr s (leNat (parBytes s (parAddr s b + 8) 8))) len = true) → ∃ t, exec (.fwUpdateWrite n) s = .next t
      ∧ (∀ k : Nat, s.cmd.fwOpen = some k → len % 256 = 0 → len ≤ 65536 → off + len ≤ 0x800000 → Acked s t n 0 0
          ∧ t.bytes .flash (slotFlash k + off) len = parBytes s (chtAddr s (leNat (parBytes s (parAddr s b + 8) 8))) len
          ∧ OnlyBytes s t .flash (slotFlash k + off) len)
      ∧ (s.cmd.fwOpen = none ∨ len % 256 ≠ 0 ∨ 65536 < len ∨ 0x800000 < off + len → Acked s t n 4 0 ∧ t.mem = s.mem)
      ∧ t.cmd.fwOpen = s.cmd.fwOpen ∧ t = { s with regs := t.regs, cmd := t.cmd, mem := t.mem } ∧ OnlyRegs s t (ackRegs n))
    ∧ (∀ k : Fin 2, hmbArg s n % 4 = 2 → Served s n 0x40 [1] 0 b = true → s.cmd.fwOpen = some k.val →
      ∃ t, exec (.fwUpdateCommit n) s = .next t
      ∧ (fwStatus s k ≠ 0 → Acked s t n (fwStatus s k) 0 ∧ t.mem = s.mem ∧ t.cmd.fwOpen = some k.val)
      ∧ (fwStatus s k = 0 → Acked s t n 0 0 ∧ t.cmd.fwOpen = none
          ∧ (imgCode (s.bytes .flash (slotFlash k) (s.mword .flash (slotFlash k + 0x20) + 29792)) = 0 →
              (∃ rec : List Byte, rec = leBytes 4 ((bootRecord s).elim 1 fun r => r.1 + 1) ++ leBytes 4 k
                ∧ t.bytes .flash 0 12 = rec ++ fcsOf rec ∧ t.bytes .flash 0x1000 12 = rec ++ fcsOf rec)
              ∧ ∀ a : Nat, (a < 12 ∨ 0x1000 ≤ a ∧ a < 0x100C) ∨ t.mrd .flash a = s.mrd .flash a)
          ∧ (imgCode (s.bytes .flash (slotFlash k) (s.mword .flash (slotFlash k + 0x20) + 29792)) ≠ 0 →
              t.bytes .flash 0x8000 (s.mword .flash (slotFlash k + 0x20) + 29792)
                = s.bytes .flash (slotFlash k) (s.mword .flash (slotFlash k + 0x20) + 29792)
              ∧ OnlyBytes s t .flash 0x8000 0x18000 ∧ t.boot = s.boot))
      ∧ (fwStatus s k ≠ 0 → t.boot = s.boot)
      ∧ (fwStatus s k = 0 → imgCode (s.bytes .flash (slotFlash k) (s.mword .flash (slotFlash k + 0x20) + 29792)) = 0 → k.val ∉ t.boot.unfit)
      ∧ t = { s with regs := t.regs, cmd := t.cmd, mem := t.mem, boot := { s.boot with unfit := t.boot.unfit } } ∧ OnlyRegs s t (ackRegs n))
    ∧ (hmbArg s n % 4 = 3 → Served s n 0x40 [1] 0 b = true → ∃ t, exec (.fwUpdateAbort n) s = .next t ∧ t.cmd.fwOpen = none
      ∧ Acked s t n (if s.cmd.fwOpen = none then 4 else 0) 0
      ∧ t = { s with regs := t.regs, cmd := t.cmd } ∧ OnlyRegs s t (ackRegs n))

/-- ATTEST on a channel that passes the common checks: the report, with its nonce, waits to be signed; signed, its body and a signature of it stand from the given address on, no other byte changes, and the command is acknowledged with the length. LC_CHANGE of a token that fails a check: its status, and nothing else. One that passes: INTENT and the target are burnt into the LC_LOG entry, the change is journaled, LC_BUSY is set, and unless it is a key update the secure bank's wipe begins. Its completion (here: of a change without operations) sets DONE, shows the state the log gives, clears LC_BUSY, and leaves debug locked in FIELD. The end of a wipe: the bank reads 0, WIPING and LOCKED are 0, WIPES counts. (R326, R339, R383, R409, R410, R411, R414, R415, R419) -/
def Obligations.TrustCommands : Prop :=
  (∀ (n : Fin 16) (b : List Byte) (s : State), Served s n 0x48 [1] (0x40 + reportLen s) b = true → ∃ t, exec (.attest n) s = .next t
    ∧ t.job n = .attest (parAddr s b + 0x40) (reportBody s (parBytes s (parAddr s b) 32))
    ∧ t = { s with regs := t.regs, cmd := t.cmd } ∧ OnlyRegs s t [R.HIF_CHC_HIT.addr 0 0 0])
  ∧ (∀ (n a : Nat) (rest : List Nat) (body : List Byte) (s : State), s.cmd.order = n :: rest → n < 16 → s.job n = .attest a body →
    body.length < 15680 → chtUp s = true → s.on R.HIF_STAT_ATL_RESTART = false → tabGet 0 s.cmd.ring n = 0 →
    (s.on R.HIF_CHT_CTL_LOC = true → memReady s (.atl 0) a (body.length + 49856) = true) → ∃ (t : State) (rnd : BitVec 256) (rep : List Byte), exec .attestSigned s = .next t
      ∧ rep = body ++ Config.slhDsaSign (idSeed s) rnd body
      ∧ t.bytes (chtSpace s) a rep.length = rep ∧ OnlyBytes s t (chtSpace s) a rep.length ∧ Acked s t n 0 (body.length + 49856)
      ∧ t = { s with regs := t.regs, cmd := t.cmd, mem := t.mem, freeCtr := t.freeCtr } ∧ OnlyRegs s t (ackRegs n))
  ∧ (∀ (n : Fin 16) (b tok : List Byte) (tg : Nat) (s : State), tg = hmbArg s n % 8 → Served s n 0x50 [1] (lcLength s tg) b = true →
    tok = parBytes s (parAddr s b) (lcLength s tg) →
    (∀ st : Nat, lcCheck s tg tok = some st → ∃ t, exec (.lcChange n) s = .next t ∧ Acked s t n st 0
      ∧ t = { s with regs := t.regs, cmd := t.cmd } ∧ OnlyRegs s t (ackRegs n))
    ∧ (lcCheck s tg tok = none → ∃ (t : State) (e : Nat), exec (.lcChange n) s = .next t
      ∧ e = (if tg = 4 then 255 else (lcFree s).headD 0) ∧ t.job n = .lifeCycle
      ∧ lcEntry t e = lcEntry s e ||| (tg + 8) ∧ OnlyBytes s t .otp (0x80 + 4 * e) 4 ∧ t.get R.SEC_STAT_LC_BUSY = 1
      ∧ t.sec = { s.sec with lc := some ⟨e, tg, lcState s == tg, false, tokOps tok, (tok.drop 0x260).take 64⟩ }
      ∧ (lcState s ≠ tg → t.get R.MEM_SEC_STAT_WIPING = 1 ∧ t.get R.MEM_SEC_STAT_LOCKED = 1)
      ∧ t = { s with regs := t.regs, cmd := t.cmd, mem := t.mem, sec := t.sec }))
  ∧ (∀ (c : LcChange) (s : State), s.sec.lc = some c → c.ops = [] → c.entry < 256 → (c.update = true ∨ s.on R.MEM_SEC_STAT_WIPING = false) →
    s.boot.phase ≠ 8 → armatureDown s = false → (∀ i : Nat, c.entry < i → i < 256 → lcDone s i = false) → ∃ t, exec .lcChangeDone s = .next t ∧ t.sec.lc = none
      ∧ lcDone t c.entry = true ∧ t.get R.SEC_STAT_LC = lcEntry s c.entry % 8 ∧ t.get R.SEC_STAT_LC_BUSY = 0
      ∧ (c.target = 2 → c.update = false → t.get R.SEC_STAT_DBG_UNLOCKED = 0) ∧ t.boot = s.boot
      ∧ (∀ n : Fin 16, jobBoxes s .lifeCycle = [n.val] → s.on R.HIF_STAT_ATL_RESTART = false → Acked s t n 0 0)
      ∧ t = { s with regs := t.regs, cmd := t.cmd, mem := t.mem, sec := t.sec, freeCtr := t.freeCtr })
  ∧ (∀ s : State, s.on R.MEM_SEC_STAT_WIPING = true → s.boot.phase ≠ 9 → s.sec.late = [] → lcWaits s = false → ∃ t, exec .secureWipeDone s = .next t
    ∧ (∀ a : Nat, a < 0x40000 → t.mrd .secure a = 0) ∧ OnlyBytes s t .secure 0 0x40000 ∧ t.get R.MEM_SEC_STAT_WIPING = 0
    ∧ t.get R.MEM_SEC_STAT_LOCKED = 0 ∧ t.get R.MEM_SEC_STAT_WIPES = (s.get R.MEM_SEC_STAT_WIPES + 1) % 2 ^ 16
    ∧ t.get R.MEM_EVT_WIPE_DONE = 1 ∧ t = { s with regs := t.regs, mem := t.mem })

/-- A BLOCK_RESET of class 1 to 5 and an index of its class, taken from a mailbox: while the block is not idle it is refused with BUSY and REFUSED is set; an idle block that a running instance or the field service owns is DENIED; else it is acknowledged with OK, DONE is set, the block's control register takes its reset value and what the block holds beside its registers (an engine's memories, program state; a port's, a CAN controller's, a Rasp unit's or a queue's) is as after reset, but that a Rasp unit's pins keep their hold. Class 0: OK, and the pulse is due 100 us later, behind those waiting; other indexes are BAD_STATE. The pulse, due: a SYSTEM or CORE reset begins, with its RST_CAUSE bit. (R340, R385, R387, R396) -/
def Obligations.BlockResetCommands : Prop :=
  (∀ (n : Fin 16) (cls i : Nat) (c : Instr) (ctl : Reg) (s : State), (c = .blockResetEngine n ∧ cls = 1 ∧ ctl = R.CE_CTL)
      ∨ (c = .blockResetPort n ∧ cls = 2 ∧ ctl = R.MAC_CTL) ∨ (c = .blockResetCan n ∧ cls = 3 ∧ ctl = R.CAN_CTL)
      ∨ (c = .blockResetRasp n ∧ cls = 4 ∧ ctl = R.RASP_U_CTL) ∨ (c = .blockResetQueue n ∧ cls = 5 ∧ ctl = R.DQ_CTL) →
    Taken s n 0x58 = true → bits (hmbArg s n) 8 4 = cls → i = hmbArg s n % 256 →
    (classSize cls ≤ i → ∃ t, exec c s = .next t ∧ Acked s t n 4 0
      ∧ t = { s with regs := t.regs, cmd := t.cmd } ∧ OnlyRegs s t (ackRegs n))
    ∧ (i < classSize cls → blockIdle s cls i = false → ∃ t, exec c s = .next t ∧ Acked s t n 1 0 ∧ t.get R.RST_BLK_STAT_REFUSED = 1
      ∧ t = { s with regs := t.regs, cmd := t.cmd } ∧ OnlyRegs s t (R.RST_BLK_STAT.addr 0 0 0 :: ackRegs n))
    ∧ (i < classSize cls → blockIdle s cls i = true → blockOwned s cls i = true → ∃ t, exec c s = .next t ∧ Acked s t n 6 0
      ∧ t = { s with regs := t.regs, cmd := t.cmd } ∧ OnlyRegs s t (ackRegs n))
    ∧ (i < classSize cls → blockIdle s cls i = true → blockOwned s cls i = false → (cls = 5 → streamOnQueue s i = false) →
      s.canonical = true → ∃ t, exec c s = .next t ∧ Acked s t n 0 0 ∧ t.get R.RST_BLK_STAT_DONE = 1
        ∧ t.rd ctl i = resetWord ctl i (s.rd ctl i) false
        ∧ (cls = 1 → (∀ a : Nat, a < 0x8000 → t.mrd (.imem i) a = 0) ∧ (∀ a : Nat, a < 0x2000 → t.mrd (.dmem i) a = 0)
            ∧ t.eng i = { packSlot := (s.eng i).packSlot, attach := (s.eng i).attach, link := (s.eng i).link })
        ∧ (cls = 2 → t.port i = {}) ∧ (cls = 3 → t.cb i = {}) ∧ (cls = 4 → t.unit i = { hold := (s.unit i).hold, t0 := (s.unit i).t0 }) ∧ (cls = 5 → t.dq i = {})
        ∧ (∀ k : Nat, k ≠ i → k < classSize cls → t.rd ctl k = s.rd ctl k)))
  ∧ (∀ (n : Fin 16) (s : State), Taken s n 0x58 = true → bits (hmbArg s n) 8 4 = 0 → ∃ t, exec (.blockResetDevice n) s = .next t
    ∧ (hmbArg s n % 256 = 1 ∨ hmbArg s n % 256 = 2 → Acked s t n 0 0
        ∧ t = { s with regs := t.regs, cmd := t.cmd, boot := { s.boot with hostReset := s.boot.hostReset ++ [(3 - hmbArg s n % 256, s.now + 100000)] } })
    ∧ (hmbArg s n % 256 ≠ 1 ∧ hmbArg s n % 256 ≠ 2 → Acked s t n 4 0 ∧ t = { s with regs := t.regs, cmd := t.cmd })
    ∧ OnlyRegs s t (ackRegs n))
  ∧ (∀ (reach due : Nat) (rest : List (Nat × Nat)) (s : State), s.boot.hostReset = (reach, due) :: rest → reach = 1 ∨ reach = 2 →
    (s.now < due → exec .hostResetPulse s = .next s)
    ∧ (due ≤ s.now → s.boot.reach = none → ∃ t, exec .hostResetPulse s = .next t ∧ t.boot.reach = some reach ∧ t.boot.phase = 0
        ∧ t.boot.hostReset = rest ∧ (t.rd R.RST_CAUSE).testBit (if reach = 1 then 6 else 7) = true ∧ t.now = s.now))

/-- SPARE_SWAP taken from a mailbox, KIND 0: an engine beyond 47 is BAD_STATE, during a migration BUSY, without a spare NO_RESOURCE; a HALTED engine moves to the spare at once; a running one with cycles and a gap begins its pre-copy, and the command waits; one without is REFUSED_GAP. KIND 1: the bank's slot begins its copy to the spare. KIND 2: the lane of a link that is UP leaves for the spare. KIND 3: the spare segment is on in parallel for 20 us. KIND 4: the spare core is armed, answered with 1; kinds 5 to 7 are BAD_STATE. MAQUETTE on a channel that passes the common checks writes the port's mode and the globals; with other globals while another port uses Maquette it is BUSY. (R86, R90, R91, R263, R337, R341, R382, R445) -/
def Obligations.SpareCommands : Prop :=
  (∀ (n : Fin 16) (u : Nat) (s : State), Taken s n 0x38 = true → u = bits (hmbArg s n) 3 9 →
    (bits (hmbArg s n) 0 3 = 0 → ∃ t, exec (.spareSwapEngine n) s = .next t
      ∧ (48 ≤ u → Acked s t n 4 0) ∧ (u < 48 → migBusy s = true → Acked s t n 1 0)
      ∧ (u < 48 → migBusy s = false → spareEngine s = none → Acked s t n 5 0)
      ∧ (∀ x : Nat, u < 48 → migBusy s = false → spareEngine s = some x → jobBoxes s (.engine u) = [] →
        (engState s u = 0 → s.rd R.CE_MAP u < 52 → Acked s t n 0 0 ∧ t.rd R.CE_MAP u = x ∧ t.get R.PAT_CE_STATE (s.rd R.CE_MAP u) = 3
            ∧ t.get R.CE_MIG_STAT_STATE = 4)
        ∧ (engState s u ≠ 0 → s.on R.CE_CYC_EN u = true → s.get R.CE_GAP_LEN_V u ≠ 0 → t.job n = .engine u ∧ t.get R.CE_MIG_CTL_LE = u
            ∧ t.get R.CE_MIG_STAT_STATE = 1 ∧ t.get R.PAT_CE_SPARE x = 0 ∧ t.engArr.mig = { target := x }
            ∧ t = { s with regs := t.regs, cmd := t.cmd, engArr := t.engArr })
        ∧ (engState s u ≠ 0 → s.on R.CE_CYC_EN u = false ∨ s.get R.CE_GAP_LEN_V u = 0 → Acked s t n 11 0
            ∧ t.get R.CE_MIG_STAT_STATE = 5 ∧ t.get R.PAT_CE_SPARE x = 1 ∧ t.rd R.CE_MAP u = s.rd R.CE_MAP u)))
    ∧ (∀ k m : Nat, bits (hmbArg s n) 0 3 = 1 → u < 96 → bankSlot s u = some k → k < 88 → s.get R.MEM_REMAP_STAT_STATE ≠ 1 →
      spareBank s = some m → ∃ t, exec (.spareSwapBank n) s = .next t ∧ t.job n = .bank u ∧ t.get R.MEM_REMAP_STAT_STATE = 1
        ∧ t.get R.MEM_REMAP_CTL_SLOT = k ∧ t.ocm.spare = m ∧ t.get R.MEM_BK_STAT_REMAP_SRC u = 1 ∧ t.get R.PAT_BK_SPARE m = 0
        ∧ (∀ j : Nat, j < 96 → t.rd R.MEM_MAP j = s.rd R.MEM_MAP j) ∧ t = { s with regs := t.regs, cmd := t.cmd, ocm := t.ocm })
    ∧ (bits (hmbArg s n) 0 3 = 2 → u < 8 → s.on R.PK_L_STAT_UP (u / 2) = true → s.on R.PK_L_STAT_SPARE_USED (u / 2) = false → s.on R.PAT_LK_SPARE (3 * (u / 2) + 2) = true →
      tabGet (0, false) s.pk.swap (u / 2) = (0, false) → ∃ t, exec (.spareSwapLane n) s = .next t ∧ t.job n = .lane u
        ∧ tabGet (0, false) t.pk.swap (u / 2) = (u % 2 + 1, false) ∧ t.get R.PK_L_CTL_SWAP (u / 2) = 1
        ∧ t.get R.PK_L_STAT_TRAINING (u / 2) = 1 ∧ t = { s with regs := t.regs, cmd := t.cmd, pk := t.pk })
    ∧ (bits (hmbArg s n) 0 3 = 3 → u < 256 → (s.rd R.FX_CH_SEG (u / 8)).testBit (u % 8) = true → segSpare s (u / 8) = true →
      ∃ t, exec (.spareSwapSegment n) s = .next t ∧ t.job n = .segment u ∧ (t.rd R.FX_CH_SEG (u / 8)).testBit 8 = true
        ∧ t.get R.FX_CH_STAT_SEG_SWAP (u / 8) = 1 ∧ (t.fx (u / 8)).worn = some (u % 8, s.now + 20000)
        ∧ t = { s with regs := t.regs, cmd := t.cmd, field := t.field })
    ∧ (bits (hmbArg s n) 0 3 = 4 → u < 4 → s.on R.PAT_AC_SPARE 4 = true → s.pat.coreArm = none → ∃ t, exec (.spareSwapCore n) s = .next t
      ∧ Acked s t n 0 1 ∧ t.pat.coreArm = some u ∧ t.get R.PAT_STAT_CORE_SWAP_ARMED = 1 ∧ t.get R.PAT_AC_SPARE 4 = 0
      ∧ t = { s with regs := t.regs, cmd := t.cmd, pat := t.pat })
    ∧ (5 ≤ bits (hmbArg s n) 0 3 → ∃ t, exec (.spareSwapCore n) s = .next t ∧ Acked s t n 4 0
      ∧ t = { s with regs := t.regs, cmd := t.cmd } ∧ OnlyRegs s t (ackRegs n)))
  ∧ (∀ (n : Fin 16) (b : List Byte) (ws : List Nat) (p mode : Nat) (s : State), Served s n 0x60 [1] 24 b = true → p = hmbArg s n % 32 →
    mode = bits (hmbArg s n) 5 2 → ws = leWords (parBytes s (parAddr s b) 24) 6 → ∃ t, exec (.maquette n) s = .next t
    ∧ (24 ≤ p → Acked s t n 4 0 ∧ t = { s with regs := t.regs, cmd := t.cmd } ∧ OnlyRegs s t (ackRegs n))
    ∧ (p < 24 → (mode = 2 → ws.getD 0 0 < 24) → ws.getD 5 0 < 32 → (∃ q : Nat, q < 24 ∧ q ≠ p ∧ mqUses s q = true) →
        s.rd R.CE_MQ_REF_BASE ≠ ws.getD 1 0 → Acked s t n 1 0 ∧ t = { s with regs := t.regs, cmd := t.cmd } ∧ OnlyRegs s t (ackRegs n))
    ∧ (p < 24 → (mode = 2 → ws.getD 0 0 < 24) → ws.getD 5 0 < 32 → (∀ q : Nat, q < 24 → q ≠ p → mqUses s q = false) → Acked s t n 0 0
        ∧ t.get R.CE_MQ_PORT_MODE p = mode ∧ t.get R.CE_MQ_PORT_PARTNER p = ws.getD 0 0 % 32
        ∧ t.get R.CE_MQ_PORT_CAPTURE p = bits (hmbArg s n) 7 1 ∧ t.get R.CE_MQ_PORT_RECORD p = bits (hmbArg s n) 8 1
        ∧ t.rd R.CE_MQ_REF_BASE = ws.getD 1 0 ∧ t.get R.CE_MQ_START_IG_V = ws.getD 5 0
        ∧ (s.get R.CE_MQ_PORT_MODE p = mode → t = { s with regs := t.regs, cmd := t.cmd, engArr := t.engArr })))

/-- For a link k in service: training with the peer that the topology names brings it UP, shows the peer and its delay, sets its bit of PK_LINKMAP; with another peer it stays down with TOPO_ERR. A link that is UP with nothing unacknowledged: a failed lane retrains it with the spare if that is unused (SPARE_USED, the lane retired), else it goes down; LINK_DOWN counts it and takes it out of the map; a swap by Atelier takes it out of the map and sets SWAP and TRAINING, and its completion brings the link back with SPARE_USED and clears SWAP; where the link goes down before that, the swap is abandoned. Nothing else changes. (R437, R440, R441, R444, R445, R402) -/
def Obligations.PlinthLinkStates : Prop :=
  ∀ (k : Fin 4) (s : State),
    (∀ (id : Fin 8) (size : Fin 16) (link : Fin 4) (delay : BitVec 24), s.on R.PK_CTL_EN = true → s.on R.PK_STAT_CLUSTER_EN = true →
      s.on R.PK_L_CTL_EN k = true → s.on R.PK_L_STAT_UP k = false →
      ∃ t, exec (.plinthLinkTrained k id size link delay) s = .next t ∧ t.get R.PK_L_STAT_PEER_ID k = id
        ∧ t.get R.PK_L_STAT_PEER_LINK k = link ∧ t.get R.PK_L_DELAY_V k = delay.toNat ∧ t.get R.PK_L_STAT_TRAINING k = 0
        ∧ t = { s with regs := t.regs, pk := { s.pk with hold := t.pk.hold } }
        ∧ (pkPeer s (pkId s) k = some id.val → link = k → size.val = s.get R.PK_CTL_SIZE → id.val ≠ pkId s →
            t.get R.PK_L_STAT_UP k = 1 ∧ t.get R.PK_L_STAT_TOPO_ERR k = 0
            ∧ t.rd R.PK_LINKMAP = s.rd R.PK_LINKMAP ||| 2 ^ (4 * pkId s + k))
        ∧ (pkPeer s (pkId s) k ≠ some id.val ∨ link ≠ k ∨ size.val ≠ s.get R.PK_CTL_SIZE ∨ id.val = pkId s →
            t.get R.PK_L_STAT_UP k = 0 ∧ t.get R.PK_L_STAT_TOPO_ERR k = 1 ∧ t.get R.PK_EVT_TOPO_ERR = 1
            ∧ t.rd R.PK_LINKMAP = s.rd R.PK_LINKMAP))
    ∧ (s.on R.PK_L_STAT_UP k = true → pkOut s k = [] → tabGet (0, false) s.pk.swap k = (0, false) →
      (∀ lane : Fin 2, ∃ t, exec (.laneFailure k lane) s = .next t ∧ t.get R.PK_L_STAT_UP k = 0
        ∧ t.get R.PK_L_STAT_TRAINING k = bit01 (pkSpare s k)
        ∧ t.get R.PK_L_STAT_SPARE_USED k = (if pkSpare s k then 1 else s.get R.PK_L_STAT_SPARE_USED k)
        ∧ (pkSpare s k = true → t.get R.PAT_LK_STATE (3 * k + lane) = 3)
        ∧ t = { s with regs := t.regs, pk := t.pk, pat := { s.pat with recDue := t.pat.recDue } })
      ∧ (∃ t, exec (.plinthLinkDown k) s = .next t ∧ t.get R.PK_L_STAT_UP k = 0 ∧ t.get R.PK_L_STAT_TRAINING k = 1
        ∧ t.get R.PK_L_DOWNS_V k = min (s.get R.PK_L_DOWNS_V k + 1) (2 ^ 32 - 1)
        ∧ (t.rd R.PK_LINKMAP).testBit (4 * pkId s + k) = false ∧ t.get R.PK_EVT_LINK_CHG = 1
        ∧ t = { s with regs := t.regs, pk := t.pk })
      ∧ (∀ (r : Requester) (v : Word), writes s r (R.PK_L_CTL.addr k 0 0) = true → isAtl r = true →
          s.on R.PK_L_STAT_SPARE_USED k = false → s.on R.PAT_LK_SPARE (3 * k + 2) = true → v.getLsbD 0 = true →
          s.on R.PK_L_CTL_EN k = true →
          ∃ t, exec (.laneSwap r k v) s = .next t ∧ tabGet (0, false) t.pk.swap k = (bits v.toNat 2 1 + 1, false)
            ∧ t.get R.PK_L_CTL_SWAP k = 1 ∧ t.get R.PK_L_STAT_TRAINING k = 1
            ∧ (t.rd R.PK_LINKMAP).testBit (4 * pkId s + k) = false ∧ t = { s with bus := {}, regs := t.regs, pk := t.pk }))
    ∧ (∀ (lane : Fin 2) (pat : Bool), tabGet (0, false) s.pk.swap k = (lane.val + 1, pat) → pkOut s k = [] →
        jobBoxes s (.lane (2 * k.val + lane.val)) = [] →
        ∃ t, exec (.laneSwapDone k) s = .next t ∧ (tabGet (0, false) t.pk.swap k).1 = 0 ∧ t.get R.PK_L_CTL_SWAP k = 0
          ∧ t.get R.PK_L_STAT_SPARE_USED k = 1 ∧ t.get R.PK_L_STAT_TRAINING k = 0
          ∧ t.rd R.PK_LINKMAP = s.rd R.PK_LINKMAP ||| 2 ^ (4 * pkId s + k)
          ∧ t = { s with regs := t.regs, pk := t.pk, cmd := t.cmd, pat := { s.pat with recDue := true, look := true } }
        ∧ ∃ u, exec (.plinthLinkDown k) s = .next u ∧ (s.on R.PK_L_STAT_UP k = true → u.get R.PK_L_STAT_UP k = 0
          ∧ (tabGet (0, false) u.pk.swap k).1 = 0 ∧ u.get R.PK_L_CTL_SWAP k = 0 ∧ u.get R.PK_L_STAT_SPARE_USED k = s.get R.PK_L_STAT_SPARE_USED k
          ∧ u = { s with regs := u.regs, pk := u.pk }))

/-- On a link that is UP: an arrival drops the packets that the peer acknowledges from the front of the link's unacknowledged ones; one with a bad CRC brings nothing else; one for another device goes to the end of the link that the routing rule gives, with one more hop, or, without a path, is discarded and counted; an event message for this device makes EV316 + sender Pending. A resend counts. A flooded word of another device replaces its four bits of PK_LINKMAP, and PRESENT shows the devices with a path. The end of a hold releases the destination's packets. A link that is down takes nothing. (R438, R441, R442, R444, R448) -/
def Obligations.PlinthPackets : Prop :=
  (∀ (k : Fin 4) (acked : Fin 33) (s : State),
    (∀ ok p, s.on R.PK_L_STAT_UP k = false → exec (.packetReceive k acked ok p) s = .next s)
    ∧ (∀ ok p, s.on R.PK_L_STAT_UP k = true → (ok = false ∨ p = none) → ∃ t, exec (.packetReceive k acked ok p) s = .next t
        ∧ pkOut t k = (pkOut s k).drop acked ∧ t = { s with pk := { s.pk with out := t.pk.out } }
        ∧ ∀ j : Nat, j ≠ k → pkOut t j = pkOut s j)
    ∧ (∀ p : Packet, s.on R.PK_L_STAT_UP k = true → p.dst.val ≠ pkId s → (∀ (w : BitVec 64) (c : Word), p.msg ≠ .time w c) → ∃ t, exec (.packetReceive k acked true (some p)) s = .next t
        ∧ (∀ (j : Nat) (dim : Bool), pkRoute s p = some (j, dim) → j ≠ k →
            pkOut t j = pkOut s j ++ [{ p with hops := p.hops + 1, dimOnly := dim }] ∧ t = { s with pk := { s.pk with out := t.pk.out } })
        ∧ (pkRoute s p = none → t.get R.PK_DISCARD_V = min (s.get R.PK_DISCARD_V + 1) (2 ^ 32 - 1) ∧ t.get R.PK_EVT_DISCARD = 1
            ∧ t = { s with regs := t.regs, pk := { s.pk with out := t.pk.out } }))
    ∧ (∀ (p : Packet) (n : Fin 512), s.on R.PK_L_STAT_UP k = true → p.dst.val = pkId s → p.msg = .event n →
        s.get R.EVH_SRC_CFG_STATE (316 + p.src.val) = 0 → ∃ t, exec (.packetReceive k acked true (some p)) s = .next t
        ∧ t.get R.EVH_SRC_CFG_STATE (316 + p.src.val) = 1)
    ∧ (s.on R.PK_L_STAT_UP k = true → pkOut s k ≠ [] → ∃ t, exec (.packetResend k) s = .next t
        ∧ t.get R.PK_L_RETRY_V k = min (s.get R.PK_L_RETRY_V k + 1) (2 ^ 32 - 1)
        ∧ t = { s with regs := t.regs } ∧ OnlyRegs s t [R.PK_L_RETRY.addr k 0 0]))
  ∧ (∀ (d : Fin 8) (w : BitVec 4) (s : State), s.on R.PK_CTL_EN = true → d.val ≠ pkId s →
      ∃ t, exec (.linkStateFlood d w) s = .next t ∧ t.rd R.PK_LINKMAP = setBits (s.rd R.PK_LINKMAP) (4 * d) 4 w.toNat
        ∧ (∀ x : Nat, x < 8 → (t.get R.PK_STAT_PRESENT).testBit x
            = (x != pkId s && x < s.get R.PK_CTL_SIZE && (pkDist t (pkId s) x).isSome))
        ∧ t = { s with regs := t.regs, pk := { s.pk with hold := t.pk.hold } })
  ∧ (∀ (d : Fin 8) (s : State), ((List.range 4).any fun k => (pkOut s k).any fun p => p.src.val == pkId s && p.dst == d) = false →
      ∃ t, exec (.routeHoldEnd d) s = .next t ∧ tabGet false t.pk.hold d = false
        ∧ t.pk.held = s.pk.held.filter (fun p => p.dst.val != d.val) ∧ t = { s with regs := t.regs, pk := t.pk })

/-- A GO of a remote access by its port's originator: toward a device that is not present it ends with RESULT 3; else the port is BUSY for 1 ms and the packet goes onto the link of its route; an answer or the timeout (RESULT 4) ends it. A remote DMA GO and its completion likewise set BUSY, RESULT, DONE and their events; a copy towards this device writes its bytes. An event message makes EV316 + sender Pending. A reset request is sent, refused while REMOTE_EN = 0, and else asserted. The time master sends its time each 1 ms; another device's measurement goes to its STEPRATE domain, or sets MODE_ERR. (R387, R446, R447, R448, R449, R450) -/
def Obligations.PlinthMessages : Prop :=
  (∀ (r : Requester) (p : Fin 2) (v : Word) (s : State), writes s r (R.PK_RA_CMD.addr p 0 0) = true →
    (if p.val = 1 then isHost r else isAtl r) = true →
    (s.on R.PK_RA_STAT_BUSY p = true → exec (.remoteAccessGo r p v) s = .next { s with bus := {} })
    ∧ (s.on R.PK_RA_STAT_BUSY p = false → ∃ t, exec (.remoteAccessGo r p v) s = .next t
      ∧ (pkPresent s (bits v.toNat 0 3) = false → t.get R.PK_RA_STAT_RESULT p = 3 ∧ t.get R.PK_RA_STAT_BUSY p = 0
          ∧ t.get R.PK_EVT_RA_DONE = 1 ∧ t = { s with bus := {}, regs := t.regs })
      ∧ (pkPresent s (bits v.toNat 0 3) = true → tabGet false s.pk.hold (bits v.toNat 0 3) = false →
          t.get R.PK_RA_STAT_BUSY p = 1 ∧ t.get R.PK_RA_CMD_GO p = 1 ∧ tabGet 0 t.pk.raEnd p = s.now + 1000000
          ∧ Sent s t (bits v.toNat 0 3) (if v.getLsbD 4 then .write (p.val == 1) (w32 (s.rd R.PK_RA_ADDR p)) (w32 (s.rd R.PK_RA_DATA p))
              else .read (p.val == 1) (w32 (s.rd R.PK_RA_ADDR p)))
          ∧ t = { s with bus := {}, regs := t.regs, pk := t.pk })))
  ∧ (∀ (p : Fin 2) (s : State), s.on R.PK_RA_STAT_BUSY p = true →
    (∀ (result : Fin 4) (v : Word), ∃ t, exec (.remoteAccessDone p result v) s = .next t ∧ t.get R.PK_RA_STAT_BUSY p = 0
      ∧ t.get R.PK_RA_STAT_RESULT p = result ∧ t.get R.PK_EVT_RA_DONE = 1
      ∧ t.rd R.PK_RA_DATA p = (if result = 0 ∧ s.on R.PK_RA_CMD_WRITE p = false then v.toNat else s.rd R.PK_RA_DATA p)
      ∧ t = { s with regs := t.regs })
    ∧ (tabGet 0 s.pk.raEnd p ≤ s.now → ∃ t, exec (.remoteAccessTimeout p) s = .next t ∧ t.get R.PK_RA_STAT_BUSY p = 0
      ∧ t.get R.PK_RA_STAT_RESULT p = 4 ∧ t = { s with regs := t.regs }))
  ∧ (∀ (r : Requester) (c : Fin 4) (v : Word) (s : State), writes s r (R.PK_RD_CTL.addr c 0 0) = true → isAtl r = true →
    s.on R.PK_RD_STAT_BUSY c = false → ∃ t, exec (.remoteDmaGo r c v) s = .next t ∧ t.get R.PK_RD_DONE_V c = 0
      ∧ t.get R.PK_RD_CTL_DEV c = bits v.toNat 0 3 ∧ t.get R.PK_RD_CTL_DIR c = bits v.toNat 4 1
      ∧ t.get R.PK_RD_STAT_BUSY c = bit01 (pkPresent s (bits v.toNat 0 3))
      ∧ (pkPresent s (bits v.toNat 0 3) = false → t.get R.PK_RD_STAT_RESULT c = 3 ∧ t.get R.PK_EVT_RD_DONE = 1)
      ∧ t = { s with bus := {}, regs := t.regs })
  ∧ (∀ (c : Fin 4) (result : Fin 5) (done : BitVec 24) (data : List Byte) (s : State), s.on R.PK_RD_STAT_BUSY c = true →
    s.on R.PK_RD_CTL_PULSE_EN c = false → (s.on R.PK_RD_CTL_DIR c = true → s.rd R.PK_RD_LEN c = 4 ∧ inBlocks (s.rd R.PK_RD_LOCAL c) = false) →
    ∃ t, exec (.remoteDmaDone c result done data) s = .next t ∧ t.get R.PK_RD_STAT_BUSY c = 0
      ∧ t.get R.PK_RD_STAT_RESULT c = result ∧ t.get R.PK_EVT_RD_DONE = 1
      ∧ t.get R.PK_RD_DONE_V c = (if result = 0 then s.rd R.PK_RD_LEN c / 4 * 4 else min done.toNat (s.rd R.PK_RD_LEN c / 4 * 4)) % 2 ^ 24
      ∧ (s.on R.PK_RD_CTL_DIR c = false → t = { s with regs := t.regs })
      ∧ (s.on R.PK_RD_CTL_DIR c = true → result = 0 → t.mem = (busWrite s (.atl 0) (s.rd R.PK_RD_LOCAL c / 4 * 4)
          (data.take 4 ++ List.replicate (4 - data.length) 0)).mem))
  ∧ (∀ (d : Fin 8) (s : State), s.get R.EVH_SRC_CFG_STATE (316 + d) = 0 → ∃ t, exec (.remoteEvent d) s = .next t
    ∧ t.get R.EVH_SRC_CFG_STATE (316 + d) = 1 ∧ t = { s with regs := t.regs, mem := t.mem, evh := t.evh })
  ∧ (∀ (r : Requester) (v : Word) (s : State), writes s r (R.PK_RRST.addr 0 0 0) = true → isAtl r = true →
    ∃ t, exec (.remoteResetRequest r v) s = .next t ∧ t.get R.PK_RRST_DEV = bits v.toNat 0 3
      ∧ t.get R.PK_RRST_STAT_V = (if pkPresent s (bits v.toNat 0 3) then 0 else 3)
      ∧ (pkPresent s (bits v.toNat 0 3) = true → tabGet false s.pk.hold (bits v.toNat 0 3) = false →
          t.get R.PK_RRST_GO = 1 ∧ Sent s t (bits v.toNat 0 3) (.reset (v.getLsbD 4)))
      ∧ t = { s with bus := {}, regs := t.regs, pk := t.pk })
  ∧ (∀ (d : Fin 8) (sys : Bool) (s : State),
    (s.on R.RST_CTL_REMOTE_EN = false → tabGet false s.pk.hold d = false → ∃ t, exec (.remoteResetReceive d sys) s = .next t
      ∧ t.get R.PK_EVT_RRST_DENIED = 1 ∧ Sent s t d (.resetAnswer false) ∧ t = { s with regs := t.regs, pk := t.pk })
    ∧ (s.on R.RST_CTL_REMOTE_EN = true → s.boot.reach = none → ∃ t, exec (.remoteResetReceive d sys) s = .next t
      ∧ t.boot.reach = some (if sys then 1 else 2) ∧ (t.rd R.RST_CAUSE).testBit (if sys then 8 else 9) = true))
  ∧ (∀ s : State, s.on R.PK_TIME_CTL_EN = true → s.get R.PK_TIME_CTL_MASTER = pkId s → s.pk.timeAt ≤ s.now →
    ∃ t, exec .clusterTimeMessage s = .next t ∧ t.pk.timeAt = s.now + 1000000 ∧ t = { s with regs := t.regs, pk := t.pk }
      ∧ ∀ d : Nat, numsWhere 8 (fun d => d != pkId s && pkPresent s d) = [d] → tabGet false s.pk.hold d = false →
        Sent s t d (.time (BitVec.ofNat 64 (domTime s (s.get R.PK_TIME_CTL_DOM))) 0))
  ∧ (∀ (e : Word) (s : State), s.on R.PK_TIME_CTL_EN = true → s.get R.PK_TIME_CTL_MASTER ≠ pkId s →
    ∃ t, exec (.clusterTimeReceive e) s = .next t
      ∧ (s.get R.TB_D_CTL_MODE (s.get R.PK_TIME_CTL_DOM) ≠ 2 → t.get R.PK_TIME_STAT_MODE_ERR = 1 ∧ t = { s with regs := t.regs }
          ∧ OnlyRegs s t [R.PK_TIME_STAT.addr 0 0 0])
      ∧ (s.get R.TB_D_CTL_MODE (s.get R.PK_TIME_CTL_DOM) = 2 → t.get R.TB_D_LASTE_V (s.get R.PK_TIME_CTL_DOM) = e.toNat
          ∧ t.get R.PK_TIME_LASTE_V = e.toNat ∧ t = { s with regs := t.regs, time := t.time }))

/-- REQ takes a buffer that is not PENDING or in TX to PENDING with ATTEMPTS 0; ABORT of a PENDING one ends it at once, of one in TX is noted; of an owned controller only the owner's engine and Atelier may write. A controller that takes part in the bus chooses, of its PENDING buffers, the lowest number, or the one whose arbitration field wins, and a time master fills in its reference message. Success, a lost arbitration and an error lead to SENT, PENDING, FAILED at LIMIT, or ABORTED. RECOVER starts recovery in BUS_OFF, whose end clears the counts. New counts move BUS; entry to BUS_OFF ends the attempt as an error. A controller whose RUN is 0 and which sends nothing enters INIT and aborts PENDING buffers. The owning engine appends data words. (R246, R247, R248, R249, R253, R254, R256, R257) -/
def Obligations.CanTransmission : Prop :=
  (∀ (r : Requester) (n : Fin 4) (k : Fin 3) (v : Word) (s : State), writes s r (R.TXB_CTL.addr n k 0) = true →
    (canMay s r n = false → exec (.txbRequest r n k v) s = .next { s with bus := {} } ∧ exec (.txbAbort r n k v) s = .next { s with bus := {} })
    ∧ (canMay s r n = true →
      (v.getLsbD 1 = false → ∃ t, exec (.txbRequest r n k v) s = .next t ∧ t.get R.TXB_CTL_LIMIT n k = bits v.toNat 8 8
        ∧ t.get R.TXB_CTL_TRIG_EN n k = bits v.toNat 17 1 ∧ t.get R.TXB_CTL_TRIG_IG n k = bits v.toNat 18 5
        ∧ txbState t n k = (if txbFree s n k then 1 else txbState s n k)
        ∧ t.get R.TXB_STAT_ATTEMPTS n k = (if txbFree s n k then 0 else s.get R.TXB_STAT_ATTEMPTS n k)
        ∧ t = { s with bus := {}, regs := t.regs } ∧ OnlyRegs s t [R.TXB_CTL.addr n k 0, R.TXB_STAT.addr n k 0])
      ∧ (∃ t, exec (.txbAbort r n k v) s = .next t ∧ txbState t n k = (if txbState s n k = 1 then 5 else txbState s n k)
        ∧ (txbState s n k = 1 → t.get R.CAN_EVT_TX_DONE n = 1 ∧ (s.on R.CAN_CTL_OWNER_EN n = false → t = { s with bus := {}, regs := t.regs }))
        ∧ (txbState s n k = 2 → tabGet false (t.cb n).abort k = true)
        ∧ (txbState s n k ≠ 1 → t = { s with bus := {}, regs := t.regs, can := t.can } ∧ OnlyRegs s t [R.TXB_CTL.addr n k 0]))))
  ∧ (∀ (n : Fin 4) (s : State), s.on R.CAN_STAT_INIT n = false →
    (∀ k : Fin 3, s.get R.CAN_STAT_BUS n ≠ 2 → s.on R.CAN_CTL_MON n = false → s.on R.CAN_CTL_RUN n = true → (∀ j : Nat, j < 3 → txbState s n j ≠ 2) →
      txbState s n k = 1 → txbFits s n k = true → (∀ j : Nat, j < 3 → j ≠ k → txbState s n j = 1 → txbFits s n j = true →
        (if s.on R.CAN_CTL_TXORD n then k.val < j else txbKey s n k < txbKey s n j ∨ txbKey s n k = txbKey s n j ∧ k.val < j)) →
      ∃ t, exec (.txBufferChoice n) s = .next t ∧ txbState t n k = 2 ∧ (∀ j : Nat, j < 3 → j ≠ k → txbState t n j = txbState s n j)
        ∧ tabGet 0 (t.cb n).sof k = w32 (canStamp s (s.get R.CAN_CTL_TS_DOM n) 0) ∧ t = { s with regs := t.regs, can := t.can }
        ∧ (k.val = 0 → ttMaster s n = true → t.get R.TXB_ID_V n 0 = s.get R.CAN_TT_REF_ID_V n
            ∧ bits (t.rd R.CAN_TX_DATA n 0 0) 0 6 = (s.cb n).cycle % 64 ∧ (t.cb n).cycle = (s.cb n).cycle)
        ∧ (k.val ≠ 0 ∨ ttMaster s n = false → OnlyRegs s t [R.TXB_STAT.addr n k 0]))
    ∧ ((∀ k : Nat, k < 3 → txbState s n k = 1 → txbFits s n k = false) → exec (.txBufferChoice n) s = .next s)
    ∧ (∀ (k : Fin 3) (age : BitVec 32), txbSending s n = [k.val] →
      (s.on R.CAN_CTL_LOOP n = false → ∃ t, exec (.txAttemptEnd n .success age) s = .next t ∧ txbState t n k = 3
        ∧ t.get R.CAN_EVT_TX_DONE n = 1 ∧ t.rd R.TXB_TS n k = (tabGet 0 (s.cb n).sof k).toNat
        ∧ t.get R.CAN_ERRC_TEC n = s.get R.CAN_ERRC_TEC n - 1 ∧ tabGet false (t.cb n).abort k = false
        ∧ (t.cb n).cycle = (if k.val = 0 ∧ ttMaster s n = true then ((s.cb n).cycle + 1) % 64 else (s.cb n).cycle))
      ∧ (∃ t, exec (.txAttemptEnd n .lost age) s = .next t
        ∧ (s.on R.TXB_CTL_CNT_ARB n k = false → t.get R.TXB_STAT_ATTEMPTS n k = s.get R.TXB_STAT_ATTEMPTS n k)
        ∧ (tabGet false (s.cb n).abort k = true → txbState t n k = 5)
        ∧ (tabGet false (s.cb n).abort k = false → s.get R.TXB_CTL_LIMIT n k = 0 → txbState t n k = 1))
      ∧ (∃ t, exec (.txAttemptEnd n .error age) s = .next t ∧ t.get R.CAN_ERRC_TEC n = min (s.get R.CAN_ERRC_TEC n + 8) 255
        ∧ t.get R.TXB_STAT_ATTEMPTS n k = min (s.get R.TXB_STAT_ATTEMPTS n k + 1) 255
        ∧ (tabGet false (s.cb n).abort k = false → txbState t n k = (if s.get R.TXB_CTL_LIMIT n k ≠ 0
            ∧ s.get R.TXB_CTL_LIMIT n k ≤ min (s.get R.TXB_STAT_ATTEMPTS n k + 1) 255 then 4 else 1)))
      ∧ (∃ t, exec (.txAttemptEnd n .ackError age) s = .next t ∧ t.get R.TXB_STAT_ATTEMPTS n k = min (s.get R.TXB_STAT_ATTEMPTS n k + 1) 255
        ∧ t.get R.CAN_ERRC_TEC n = (if s.get R.CAN_STAT_BUS n = 1 then s.get R.CAN_ERRC_TEC n else min (s.get R.CAN_ERRC_TEC n + 8) 255))
      ∧ (∃ t, exec (.txAttemptEnd n .stuffError age) s = .next t ∧ t.get R.TXB_STAT_ATTEMPTS n k = min (s.get R.TXB_STAT_ATTEMPTS n k + 1) 255
        ∧ (s.get R.CAN_ERRC_TEC n < 256 → t.get R.CAN_ERRC_TEC n = min (s.get R.CAN_ERRC_TEC n) 255))
      ∧ (∃ t, exec (.txAttemptEnd n .dataError age) s = .next t ∧ t.get R.TXB_STAT_ATTEMPTS n k = min (s.get R.TXB_STAT_ATTEMPTS n k + 1) 255
        ∧ t.get R.CAN_ERRC_TEC n = (if s.on R.CAN_CTL_TMS n = true ∧ s.rd R.TXB_FMT n k % 4 = 2 then s.get R.CAN_ERRC_TEC n
            else min (s.get R.CAN_ERRC_TEC n + 8) 255)))
    ∧ (s.on R.CAN_CTL_RUN n = false → txbSending s n = [] → ∃ t, exec (.canInitEntry n) s = .next t ∧ t.get R.CAN_STAT_INIT n = 1
      ∧ ∀ k : Nat, k < 3 → txbState t n k = if txbState s n k = 1 then 5 else txbState s n k)
    ∧ (∀ (tec : Fin 512) (rec : Fin 256) (bus : Nat), s.get R.CAN_STAT_BUS n ≠ 2 →
      bus = (if 256 ≤ tec.val then 2 else if 128 ≤ tec.val ∨ 128 ≤ rec.val then 1 else 0) →
      ∃ t, exec (.canBusError n tec rec) s = .next t ∧ t.get R.CAN_STAT_BUS n = bus ∧ t.get R.CAN_ERRC_TEC n = min tec.val 255
        ∧ t.get R.CAN_ERRC_REC n = rec ∧ (bus ≠ s.get R.CAN_STAT_BUS n → t.get R.CAN_EVT_BUS_CHG n = 1)
        ∧ (bus = 2 → s.on R.CAN_CTL_AUTO_REC n = true → t.get R.CAN_STAT_RECOVERING n = 1)
        ∧ (∀ k : Fin 3, bus = 2 → txbSending s n = [k.val] → t.get R.TXB_STAT_ATTEMPTS n k = min (s.get R.TXB_STAT_ATTEMPTS n k + 1) 255
            ∧ txbState t n k ≠ 2)
        ∧ (bus ≠ 2 ∨ txbSending s n = [] → t = { s with regs := t.regs }
            ∧ OnlyRegs s t [R.CAN_STAT.addr n 0 0, R.CAN_ERRC.addr n 0 0, R.CAN_EVT.addr n 0 0])))
  ∧ (∀ (n : Fin 4) (s : State),
    (∀ (r : Requester) (v : Word), writes s r (R.CAN_CTL.addr n 0 0) = true → ∃ t, exec (.busOffRecover r n v) s = .next t
      ∧ t.get R.CAN_CTL_RUN n = bits v.toNat 0 1 ∧ (v.getLsbD 0 = true → t.get R.CAN_STAT_INIT n = 0)
      ∧ t.get R.CAN_STAT_RECOVERING n = (if s.get R.CAN_STAT_BUS n = 2 then 1 else s.get R.CAN_STAT_RECOVERING n)
      ∧ t = { s with bus := {}, regs := t.regs, can := t.can } ∧ OnlyRegs s t [R.CAN_CTL.addr n 0 0, R.CAN_STAT.addr n 0 0])
    ∧ (s.on R.CAN_STAT_RECOVERING n = true → ∃ t, exec (.busOffRecoveryDone n) s = .next t ∧ t.get R.CAN_STAT_RECOVERING n = 0
      ∧ t.get R.CAN_STAT_BUS n = 0 ∧ t.get R.CAN_ERRC_TEC n = 0 ∧ t.get R.CAN_ERRC_REC n = 0 ∧ t.get R.CAN_EVT_BUS_CHG n = 1
      ∧ t = { s with regs := t.regs } ∧ OnlyRegs s t [R.CAN_STAT.addr n 0 0, R.CAN_ERRC.addr n 0 0, R.CAN_EVT.addr n 0 0])
    ∧ (∀ (e : Fin 48) (k : Fin 3) (v : Word),
      (canOwned s e n = true → txbFree s n k = true → ∃ t, exec (.canTxDataAppend e n k v) s = .next t
        ∧ (tabGet 0 (s.cb n).txPos k < 512 → t.rd R.CAN_TX_DATA n k (tabGet 0 (s.cb n).txPos k) = v.toNat)
        ∧ tabGet 0 (t.cb n).txPos k = tabGet 0 (s.cb n).txPos k + 1 ∧ t = { s with regs := t.regs, can := t.can }
        ∧ OnlyRegs s t [R.CAN_TX_DATA.addr n k (tabGet 0 (s.cb n).txPos k)])
      ∧ (canOwned s e n = true → txbFree s n k = false → ∃ t, exec (.canTxDataAppend e n k v) s = .next t
        ∧ t.get R.TXB_STAT_WR_ERR n k = 1 ∧ t = { s with regs := t.regs } ∧ OnlyRegs s t [R.TXB_STAT.addr n k 0])
      ∧ (canOwned s e n = false → ∃ t, exec (.canTxDataAppend e n k v) s = .next t ∧ t.get R.CE_ERR_IO_RSVD e = 1
        ∧ t = { s with regs := t.regs } ∧ OnlyRegs s t [R.CE_ERR.addr e 0 0])))

/-- A controller in INIT or BUS_OFF takes no part. Else a frame of a format it receives goes to the first valid filter that matches: ACTION store puts it, with its length, timestamp and the filter's number, at the end of the FIFO, which the registers show, and sets RX; ACTION reject drops it; a message beyond 64 messages or 16,384 bytes is discarded, counted and reported, and those stored stay. Without a match NOMATCH_ACC decides. A format that the controller does not receive is a form error. A pop discards the head and shows the next. A missed reference counts at a time receiver, and at no other controller. (R243, R251, R252, R254, R256, R257) -/
def Obligations.CanReception : Prop :=
  ∀ (n : Fin 4) (s : State),
    (∀ (id fmt af : Word) (age : BitVec 32) (data : List Byte) (m : CanMsg),
      m = ⟨id, w32 (setBits fmt.toNat 4 12 data.length), af, w32 (canStamp s (s.get R.CAN_CTL_TS_DOM n) age.toNat), 0, data⟩ →
      (s.on R.CAN_STAT_INIT n = true ∨ s.get R.CAN_STAT_BUS n = 2 → exec (.canFrameReceive n id fmt af age data) s = .next s)
      ∧ (s.on R.CAN_STAT_INIT n = false → s.get R.CAN_STAT_BUS n ≠ 2 →
        (min (s.get R.CAN_CTL_FMT n) 2 < fmt.toNat % 4 → ∃ t, exec (.canFrameReceive n id fmt af age data) s = .next t
          ∧ t.get R.CAN_ERRC_REC n = min (s.get R.CAN_ERRC_REC n + 1) 255 ∧ t = { s with regs := t.regs })
        ∧ (fmt.toNat % 4 ≤ min (s.get R.CAN_CTL_FMT n) 2 → ∃ t, exec (.canFrameReceive n id fmt af age data) s = .next t
          ∧ t = { s with regs := t.regs, can := t.can, time := t.time }
          ∧ t.get R.CAN_ERRC_REC n = (if 127 < s.get R.CAN_ERRC_REC n then 127 else s.get R.CAN_ERRC_REC n - 1)
          ∧ (∀ f : Nat, f < 128 → fltHit s n f m = true → (∀ g : Nat, g < f → fltHit s n g m = false) →
            bits (s.rd R.CAN_FLT n f 2) 2 2 = 0 → (s.cb n).rx.length < 64 →
            (s.cb n).rx.foldl (fun a x => a + x.data.length) 0 + data.length ≤ 16384 →
            (t.cb n).rx = (s.cb n).rx ++ [{ m with info := w32 f }] ∧ t.get R.CAN_EVT_RX n = 1
            ∧ t.get R.CAN_RXF_STAT_COUNT n = (s.cb n).rx.length + 1
            ∧ ((s.cb n).rx = [] → t.rd R.CAN_RX_ID n = id.toNat ∧ t.get R.CAN_RX_INFO_V n = f ∧ t.rd R.CAN_RX_TS n = m.ts.toNat))
          ∧ (∀ f : Nat, f < 128 → fltHit s n f m = true → (∀ g : Nat, g < f → fltHit s n g m = false) →
            bits (s.rd R.CAN_FLT n f 2) 2 2 = 1 → (t.cb n).rx = (s.cb n).rx ∧ t.get R.CAN_EVT_RX n = s.get R.CAN_EVT_RX n)
          ∧ ((∀ f : Nat, f < 128 → fltHit s n f m = false) → s.on R.CAN_CTL_NOMATCH_ACC n = false → (t.cb n).rx = (s.cb n).rx)
          ∧ ((∀ f : Nat, f < 128 → fltHit s n f m = false) → s.on R.CAN_CTL_NOMATCH_ACC n = true → (s.cb n).rx.length = 64 →
            (t.cb n).rx = (s.cb n).rx ∧ t.get R.CAN_RX_OVF_V n = min (s.get R.CAN_RX_OVF_V n + 1) (2 ^ 32 - 1)
            ∧ t.get R.CAN_EVT_RX_OVF n = 1))))
    ∧ (∀ r : Requester, writes s r (R.CAN_RX_POP.addr n 0 0) = true →
      (canMay s r n = false → exec (.canRxPop r n) s = .next { s with bus := {} })
      ∧ (canMay s r n = true → (s.cb n).rx.length ≤ 64 → ∃ t, exec (.canRxPop r n) s = .next t ∧ (t.cb n).rx = (s.cb n).rx.tail
        ∧ t.get R.CAN_RXF_STAT_COUNT n = (s.cb n).rx.length - 1
        ∧ (∀ (a m : CanMsg) (l : List CanMsg), (s.cb n).rx = a :: m :: l → t.rd R.CAN_RX_ID n = m.id.toNat ∧ t.rd R.CAN_RX_FMT n = m.fmt.toNat
            ∧ t.rd R.CAN_RX_AF n = m.af.toNat ∧ t.rd R.CAN_RX_TS n = m.ts.toNat)
        ∧ t = { s with bus := {}, regs := t.regs, can := t.can } ∧ ∀ j : Nat, j ≠ n → t.cb j = s.cb j))
    ∧ (ttReceiver s n = true → 2 ≤ (s.cb n).missed → ∃ t, exec (.ttMiss n) s = .next t ∧ (t.cb n).missed = 0 ∧ t.get R.CAN_TT_MISS_V n = min (s.get R.CAN_TT_MISS_V n + 1) (2 ^ 32 - 1)
        ∧ t.get R.CAN_EVT_TT_MISS n = 1 ∧ t = { s with regs := t.regs, can := t.can } ∧ OnlyRegs s t [R.CAN_TT_MISS.addr n 0 0, R.CAN_EVT.addr n 0 0])
    ∧ (ttReceiver s n = false ∨ (s.cb n).missed < 2 → exec (.ttMiss n) s = .next s)

/-- A level from Atelier, or the level of an output's item that the running service has not yet sent, is held with APPLY_EN; else a switched channel takes it as its commanded state, unless an entry has fired on the tick, and its switch takes what lockout, trip and HOLD leave; the service sends no other level. CLR_LATCH with OVL_LATCH and a thermal restart without it end a trip; overtemperature turns a switch that is on off with OT; an overload is counted and flagged, and the switch stays on. Arming an entry takes the domain time that TIME names, LATE if it has passed, or waits for the generator, after the entry has fired if its tick has come; an entry that is due alone fires: disarmed with DONE unless it repeats, its level commanded, or dropped where it would turn on in HOLD. A channel that is not OFF takes no change of MODE, TYPE or COM but OFF, which discards its entries and its item; else CFG_ERR. (R258, R259, R264, R266, R267, R268, R269, R271, R278, R282) -/
def Obligations.FieldOutputs : Prop :=
  ∀ (n : Fin 32) (s : State),
    (∀ lvl : Bool,
      (s.field.svc = none ∨ (s.fx n).item = none ∨ fxSwitched s n = false ∨ (s.fx n).sent = some lvl
          ∨ (∃ h : Nat, (s.fx n).item = some h ∧ (readView s h).testBit 0 ≠ lvl) → exec (.levelCommand none n lvl) s = .next s)
      ∧ (∀ h : Nat, s.field.svc ≠ none → (s.fx n).item = some h → (readView s h).testBit 0 = lvl → fxSwitched s n = true → (s.fx n).sent ≠ some lvl →
        (s.on R.FX_CH_CFG_APPLY_EN n = true → ∃ t, exec (.levelCommand none n lvl) s = .next t
          ∧ (t.fx n) = { s.fx n with sent := some lvl, applied := some lvl } ∧ t = { s with field := t.field } ∧ ∀ k : Nat, k ≠ n → t.fx k = s.fx k)
        ∧ (s.on R.FX_CH_CFG_APPLY_EN n = false → (s.fx n).fired ≠ some (fxTickNo s) →
          ∃ t, exec (.levelCommand none n lvl) s = .next t ∧ t.get R.FX_CH_STAT_CMD n = bit01 lvl ∧ (t.fx n).sent = some lvl ∧ Follows s t n
          ∧ (t.fx n).tripped = ((s.fx n).tripped && (lvl || !s.on R.FX_CH_CFG_OVL_LATCH n))
          ∧ t = { s with regs := t.regs, field := t.field } ∧ OnlyRegs s t [R.FX_CH_STAT.addr n 0 0]))
      ∧ (∀ r : Requester, writes s r (R.FX_CH_CMD.addr n 0 0) = true → isAtl r = true → s.on R.FX_CH_CFG_APPLY_EN n = false → fxSwitched s n = true →
          ∃ t, exec (.levelCommand (some r) n lvl) s = .next t ∧ t.get R.FX_CH_CMD_LEVEL n = bit01 lvl
          ∧ ((s.fx n).fired ≠ some (fxTickNo s) → t.get R.FX_CH_STAT_CMD n = bit01 lvl ∧ Follows s t n)
          ∧ ((s.fx n).fired = some (fxTickNo s) → t.get R.FX_CH_STAT_CMD n = s.get R.FX_CH_STAT_CMD n)
          ∧ t = { s with bus := {}, regs := t.regs, field := t.field } ∧ OnlyRegs s t [R.FX_CH_CMD.addr n 0 0, R.FX_CH_STAT.addr n 0 0]))
    ∧ (∀ r : Requester, writes s r (R.FX_CH_CMD.addr n 0 0) = true → isAtl r = true → ∃ t, exec (.clrLatch r n) s = .next t
        ∧ (s.on R.FX_CH_CFG_OVL_LATCH n = false → t = { s with bus := {} }) ∧ (s.on R.FX_CH_CFG_OVL_LATCH n = true → (t.fx n).tripped = false ∧ Follows s t n)
        ∧ t = { s with bus := {}, regs := t.regs, field := t.field } ∧ OnlyRegs s t [R.FX_CH_STAT.addr n 0 0])
    ∧ (s.on R.FX_CH_STAT_ON n = true →
        (∃ t, exec (.thermalTrip n) s = .next t ∧ (t.fx n).tripped = true ∧ t.get R.FX_CH_STAT_ON n = 0 ∧ t.get R.FX_CH_DIAG_OT n = 1
          ∧ t = { s with regs := t.regs, field := t.field }
          ∧ OnlyRegs s t [R.FX_CH_STAT.addr n 0 0, R.FX_CH_DIAG.addr n 0 0, R.FX_EVT.addr 0 0 0])
        ∧ (∀ ma : BitVec 16, 900 ≤ ma.toNat → ma.toNat ≤ 1500 → ∃ t, exec (.overload n ma) s = .next t ∧ t.get R.FX_CH_CUR_V n = ma.toNat ∧ t.get R.FX_CH_DIAG_OVL n = 1
          ∧ t.get R.FX_CH_OVLCNT_V n = min (s.get R.FX_CH_OVLCNT_V n + 1) (2 ^ 32 - 1)
          ∧ t.get R.FX_EVT_DIAG = (if s.on R.FX_EVT_DIAG || (s.rd R.FX_CH_DIAG_EN n).testBit 0 then 1 else 0) ∧ t = { s with regs := t.regs }
          ∧ OnlyRegs s t [R.FX_CH_CUR.addr n 0 0, R.FX_CH_OVLCNT.addr n 0 0, R.FX_CH_DIAG.addr n 0 0, R.FX_EVT.addr 0 0 0]))
    ∧ ((s.fx n).tripped = true → s.on R.FX_CH_CFG_OVL_LATCH n = false → ∃ t, exec (.thermalRestart n) s = .next t
        ∧ (t.fx n).tripped = false ∧ Follows s t n ∧ t = { s with regs := t.regs, field := t.field } ∧ OnlyRegs s t [R.FX_CH_STAT.addr n 0 0])
    ∧ (s.on R.FX_CH_CFG_OVL_LATCH n = true → exec (.thermalRestart n) s = .next s)
    ∧ (∀ (r : Requester) (k : Fin 4) (v : Word) (d : Nat) (x : Int), writes s r (R.FX_CH_SCH_CTL.addr n k 0) = true → schMay s r n = true →
        d = s.get R.FX_CTL_TS_DOM → x = schAhead (s.rd R.FX_CH_SCH_TIME n k) (domView s d) → schReady s n k = none → ∃ t, exec (.scheduleArm r n k v) s = .next t
        ∧ t.get R.FX_CH_SCH_CTL_ARM n k = (if v.getLsbD 0 && fxMode s n != 0 then 1 else 0)
        ∧ (v.getLsbD 0 = true → fxMode s n ≠ 0 → v.getLsbD 2 = false → schDue t n k = [(d, ((domTime s d : Int) + x).toNat)]
            ∧ t.get R.FX_CH_SCH_CTL_LATE n k = (if x < 0 then 1 else s.get R.FX_CH_SCH_CTL_LATE n k) ∧ (x < 0 → t.get R.FX_CH_DIAG_SCH_LATE n = 1 ∧ t.get R.FX_EVT_SCH_LATE = 1))
        ∧ (v.getLsbD 0 = true → fxMode s n ≠ 0 → v.getLsbD 2 = true → tabGet 0 t.field.offs (4 * n + k) = s.rd R.FX_CH_SCH_TIME n k)
        ∧ (v.getLsbD 0 = false ∨ fxMode s n = 0 ∨ v.getLsbD 2 = true → schDue t n k = [] ∧ OnlyRegs s t [R.FX_CH_SCH_CTL.addr n k 0])
        ∧ t = { s with bus := {}, regs := t.regs, field := t.field })
    ∧ (∀ (r : Requester) (k : Fin 4) (v : Word) (u : State), writes s r (R.FX_CH_SCH_CTL.addr n k 0) = true → schMay s r n = true →
        (schReady s n k).isSome = true → (∀ j : Nat, j < 4 → j ≠ k → schReady s n j = none) → exec (.scheduleFire n k) s = .next u →
        schReady u n k = none → exec (.scheduleArm r n k v) s = exec (.scheduleArm r n k v) u)
    ∧ (∀ (k : Fin 4) (due : Nat × Nat) (rest : List (Nat × Nat)), schDue s n k = due :: rest → due.2 ≤ fxTick s due.1 →
        (∀ j : Nat, j < 4 → j ≠ k → schReady s n j = none) → fxSwitched s n = true → ∃ t, exec (.scheduleFire n k) s = .next t
        ∧ schDue t n k = rest ∧ (s.on R.FX_CH_SCH_CTL_REPEAT n k = false ∨ s.on R.FX_CH_SCH_CTL_REF n k = false →
            t.get R.FX_CH_SCH_CTL_ARM n k = 0 ∧ t.get R.FX_CH_SCH_CTL_DONE n k = 1)
        ∧ (s.on R.FX_CH_SCH_CTL_LEVEL n k = true → fxHold s = true → t.get R.FX_CH_SCH_CTL_DROPPED n k = 1 ∧ OnlyRegs s t [R.FX_CH_SCH_CTL.addr n k 0])
        ∧ (s.on R.FX_CH_SCH_CTL_LEVEL n k = false ∨ fxHold s = false → t.get R.FX_CH_STAT_CMD n = s.get R.FX_CH_SCH_CTL_LEVEL n k
            ∧ Follows s t n ∧ OnlyRegs s t [R.FX_CH_SCH_CTL.addr n k 0, R.FX_CH_STAT.addr n 0 0])
        ∧ t = { s with regs := t.regs, field := t.field })
    ∧ (∀ (r : Requester) (v : Word), writes s r (R.FX_CH_CFG.addr n 0 0) = true → isAtl r = true → ∃ t, exec (.channelConfig r n v) s = .next t
        ∧ (fxMode s n ≠ 0 → bits v.toNat 0 3 ≠ 0 → bits v.toNat 0 3 ≠ fxMode s n ∨ bits v.toNat 4 1 ≠ s.get R.FX_CH_CFG_TYPE n
            ∨ bits v.toNat 19 2 ≠ s.get R.FX_CH_CFG_COM n → t.rd R.FX_CH_CFG n = s.rd R.FX_CH_CFG n ∧ t.get R.FX_CH_DIAG_CFG_ERR n = 1
            ∧ t = { s with bus := {}, regs := t.regs } ∧ OnlyRegs s t [R.FX_CH_DIAG.addr n 0 0, R.FX_EVT.addr 0 0 0])
        ∧ (fxMode s n ≠ 0 → bits v.toNat 0 3 = 0 → fxMode t n = 0 ∧ t.get R.FX_CH_CFG_COM n = bits v.toNat 19 2 ∧ t.get R.FX_CH_STAT_ON n = 0
            ∧ t.get R.FX_CH_STAT_CMD n = 0 ∧ (t.fx n).item = none ∧ ∀ k : Nat, k < 4 → t.get R.FX_CH_SCH_CTL_ARM n k = 0 ∧ schDue t n k = [])
        ∧ (fxMode s n = 0 → fxMode t n = bits v.toNat 0 3 ∧ t.get R.FX_CH_CFG_TYPE n = bits v.toNat 4 1 ∧ t.get R.FX_CH_CFG_COM n = bits v.toNat 19 2
            ∧ t.get R.FX_CH_STAT_ON n = s.get R.FX_CH_STAT_ON n
            ∧ ∀ (e g h o : Nat), s.field.svc = some (e, g, h, o) → itValid (s.item (h + n)) = false → overlaps s 262144 (o + n) 1 = false → bits v.toNat 0 3 ≠ 0 →
              (t.fx n).item = some (h + n)))

/-- For a group with an output on: a supply below 17 V sets WARN (and RIDE below 14 V) with the group's event, above 17.5 V they clear; lockout counts, flags SAG, turns off the switches of its channels and leaves the other group's and every commanded state as they are; the average current over 100 ms is shown; above 4 A it sets GRP_OVL, and over 1 s locks the group out. Under HOLD_OFF, CLEAR ends lockout once the supply is back above 15.5 V, under automatic restoration the supply alone does; the switches then follow their commanded states. HOLD_RELEASE by Atelier clears HOLD and HOLD_EXPIRED and the switches follow; at HOLD_LIMIT every switch is off and HOLD_EXPIRED is set. (R275, R276, R282) -/
def Obligations.FieldGroups : Prop :=
  (∀ (g : Fin 2) (mv : BitVec 16) (s : State),
    (17500 < mv.toNat → ∃ t, exec (.sagWarnClear g mv) s = .next t ∧ t.get R.FX_GRP_VLP_V g = mv.toNat ∧ t.get R.FX_GRP_STAT_WARN g = 0
      ∧ t.get R.FX_GRP_STAT_RIDE g = 0 ∧ t = { s with regs := t.regs } ∧ OnlyRegs s t [R.FX_GRP_VLP.addr g 0 0, R.FX_GRP_STAT.addr g 0 0])
    ∧ (grpOn s g = true → mv.toNat < 17000 → ∃ t, exec (.sagWarn g mv) s = .next t ∧ t.get R.FX_GRP_VLP_V g = mv.toNat
      ∧ t.get R.FX_GRP_STAT_WARN g = 1 ∧ t.get R.FX_GRP_STAT_RIDE g = (if mv.toNat < 14000 then 1 else 0)
      ∧ t.get (if g.val = 0 then R.FX_EVT_SAG_WARN_A else R.FX_EVT_SAG_WARN_B) = 1 ∧ t = { s with regs := t.regs }
      ∧ OnlyRegs s t [R.FX_GRP_VLP.addr g 0 0, R.FX_GRP_STAT.addr g 0 0, R.FX_EVT.addr 0 0 0])
    ∧ (grpOn s g = true → mv.toNat < 14000 → ∃ t, exec (.lockout g mv) s = .next t ∧ t.get R.FX_GRP_STAT_LOCKOUT g = 1
      ∧ t.get R.FX_GRP_STAT_SAG g = 1 ∧ t.get R.FX_GRP_STAT_RIDE g = 0 ∧ t.get R.FX_GRP_VLP_V g = mv.toNat
      ∧ t.get R.FX_GRP_LOCKS_V g = min (s.get R.FX_GRP_LOCKS_V g + 1) (2 ^ 32 - 1)
      ∧ t.get (if g.val = 0 then R.FX_EVT_LOCK_A else R.FX_EVT_LOCK_B) = 1
      ∧ (∀ c : Nat, c < 32 → t.get R.FX_CH_STAT_CMD c = s.get R.FX_CH_STAT_CMD c
          ∧ t.get R.FX_CH_STAT_ON c = if fxGroup c = g then 0 else s.get R.FX_CH_STAT_ON c)
      ∧ t = { s with regs := t.regs, field := t.field })
    ∧ (∀ long : Bool, grpOn s g = true → 4000 < mv.toNat → ∃ t, exec (.groupOverload g mv long) s = .next t
      ∧ t.get R.FX_GRP_STAT_GRP_OVL g = 1 ∧ t.get R.FX_GRP_ILP_V g = mv.toNat ∧ t.get (if g.val = 0 then R.FX_EVT_GRP_OVL_A else R.FX_EVT_GRP_OVL_B) = 1
      ∧ (long = false → t = { s with regs := t.regs }
          ∧ OnlyRegs s t [R.FX_GRP_ILP.addr g 0 0, R.FX_GRP_STAT.addr g 0 0, R.FX_EVT.addr 0 0 0])
      ∧ (long = true → t.get R.FX_GRP_STAT_LOCKOUT g = 1 ∧ t.get R.FX_GRP_STAT_SAG g = s.get R.FX_GRP_STAT_SAG g
          ∧ ∀ c : Nat, c < 32 → fxGroup c = g → t.get R.FX_CH_STAT_ON c = 0))
    ∧ (∀ long : Bool, grpOn s g = true → mv.toNat ≤ 4000 → ∃ t, exec (.groupOverload g mv long) s = .next t ∧ t.get R.FX_GRP_ILP_V g = mv.toNat
      ∧ t = { s with regs := t.regs } ∧ OnlyRegs s t [R.FX_GRP_ILP.addr g 0 0])
    ∧ (∀ r : Requester, writes s r (R.FX_GRP_CTL.addr g 0 0) = true → isAtl r = true → ∃ t, exec (.lockoutClear r g mv) s = .next t
      ∧ t.get R.FX_GRP_CTL_RESTORE g = s.get R.FX_GRP_CTL_RESTORE g
      ∧ (s.on R.FX_GRP_STAT_LOCKOUT g = true → s.on R.FX_GRP_CTL_RESTORE g = false → 15500 ≤ mv.toNat → t.get R.FX_GRP_STAT_LOCKOUT g = 0
          ∧ ∀ c : Nat, c < 32 → fxGroup c = g → t.get R.FX_CH_STAT_CMD c = s.get R.FX_CH_STAT_CMD c ∧ Follows s t c)
      ∧ (s.on R.FX_GRP_CTL_RESTORE g = true ∨ mv.toNat < 15500 → t.rd R.FX_GRP_STAT g = s.rd R.FX_GRP_STAT g)
      ∧ t = { s with bus := {}, regs := t.regs, field := t.field })
    ∧ (15500 ≤ mv.toNat → s.on R.FX_GRP_CTL_RESTORE g = true → s.on R.FX_GRP_STAT_LOCKOUT g = true →
      ∃ t, exec (.lockoutAutoRestore g mv) s = .next t ∧ t.get R.FX_GRP_STAT_LOCKOUT g = 0
      ∧ (∀ c : Nat, c < 32 → (fxGroup c = g → Follows s t c) ∧ (fxGroup c ≠ g → t.rd R.FX_CH_STAT c = s.rd R.FX_CH_STAT c))
      ∧ t = { s with regs := t.regs, field := t.field }))
  ∧ (∀ (r : Requester) (s : State), writes s r (R.FX_HOLD_RELEASE.addr 0 0 0) = true → isAtl r = true → ∃ t, exec (.holdRelease r) s = .next t
    ∧ t.get R.FX_STAT_HOLD = 0 ∧ t.get R.FX_STAT_HOLD_EXPIRED = 0 ∧ (∀ c : Nat, c < 32 → Follows s t c)
    ∧ t = { s with bus := {}, regs := t.regs, field := t.field })
  ∧ (∀ s : State, (fxHold s = true → s.on R.FX_STAT_HOLD_EXPIRED = false → s.field.holdAt + holdLimit s ≤ s.now → ∃ t, exec .holdExpiry s = .next t
      ∧ t.get R.FX_STAT_HOLD_EXPIRED = 1 ∧ t.get R.FX_EVT_HOLD_EXP = 1 ∧ (∀ c : Nat, c < 32 → t.get R.FX_CH_STAT_ON c = 0)
      ∧ t = { s with regs := t.regs, field := t.field })
    ∧ (s.now < s.field.holdAt + holdLimit s → exec .holdExpiry s = .next s))

/-- An input whose comparator has differed from its state in every 8 ns sample of the filter time changes state, keeps the time of the first of them less the comparator delay, counts, and with EDGE_EN goes into the edge FIFO, or into OVF when that holds 256; a pop shows the next record. OPEN, MISMATCH, SHORT_LP and a cross mismatch, which names both partners, are set where their conditions hold and not elsewhere. A worn segment gets the spare in parallel for 20 us and is then off and retired. A C/Q line that is ready takes a character either way, a received one relayed to the YPSD engine of the channel, and the wake-up pulse drives the inverse level for 80 us. The service's poll commands the level of a LIVE output item that has changed. (R260, R261, R262, R263, R266, R272, R273, R274, R278, R280) -/
def Obligations.FieldDiagnostics : Prop :=
  (∀ (n : Fin 32) (s : State),
    (∀ (lvl : Bool) (age : BitVec 32) (d frc first filt ts : Nat), d = s.get R.FX_CTL_TS_DOM → frc = s.time.frc.toNat → first = (frc - age.toNat + 7) / 8 * 8 →
      filt = [0, 10000, 50000, 100000, 1000000, 3000000].getD (s.get R.FX_CH_CFG_FILT n) 0 →
      ts = u32 ((domAt s d first : Int) - Config.comparatorDelay) →
      ((s.rd R.FX_CH_STAT n).testBit 0 = lvl ∨ first < (s.fx n).runAt ∨ frc < first + filt → exec (.inputEdge n lvl age) s = .next s)
      ∧ ((fxMode s n = 1 ∨ fxMode s n = 4) → (s.rd R.FX_CH_STAT n).testBit 0 ≠ lvl → (s.fx n).runAt ≤ first → first + filt ≤ frc →
        (s.fx n).item = none → (s.fx n).timeItem = none → ∃ t, exec (.inputEdge n lvl age) s = .next t
        ∧ (t.rd R.FX_CH_STAT n).testBit 0 = lvl ∧ t.get R.FX_CH_TS_V n = ts ∧ t.get R.FX_CH_EDGES_V n = min (s.get R.FX_CH_EDGES_V n + 1) (2 ^ 32 - 1)
        ∧ (t.fx n).runAt = first + filt + 1
        ∧ (s.on R.FX_CH_CFG_EDGE_EN n = true → s.field.edges.length < 256 →
            t.field.edges = s.field.edges ++ [(w32 (n + 32 * bit01 lvl + 64 * d), w32 ts)] ∧ t.get R.FX_EDGE_STAT_COUNT = s.field.edges.length + 1)
        ∧ (s.on R.FX_CH_CFG_EDGE_EN n = true → s.field.edges.length = 256 → t.field.edges = s.field.edges
            ∧ t.get R.FX_EDGE_OVF_V = min (s.get R.FX_EDGE_OVF_V + 1) (2 ^ 32 - 1) ∧ t.get R.FX_EVT_EDGE_OVF = 1)
        ∧ (s.on R.FX_CH_CFG_EDGE_EN n = false → t.field.edges = s.field.edges
            ∧ OnlyRegs s t [R.FX_CH_STAT.addr n 0 0, R.FX_CH_TS.addr n 0 0, R.FX_CH_EDGES.addr n 0 0])
        ∧ t = { s with regs := t.regs, field := t.field }))
    ∧ (∃ t, exec (.openWire n) s = .next t ∧ t = { s with regs := t.regs } ∧ OnlyRegs s t [R.FX_CH_DIAG.addr n 0 0, R.FX_EVT.addr 0 0 0]
      ∧ t.get R.FX_CH_DIAG_OPEN n = (if fxSwitched s n ∧ (if s.on R.FX_CH_STAT_ON n then s.on R.FX_CH_CFG_OW_ON n = true
          else s.on R.FX_CH_CFG_OW_OFF n = true ∧ s.on R.FX_CH_CFG_RB n = true) then 1 else s.get R.FX_CH_DIAG_OPEN n))
    ∧ (fxSwitched s n = true → s.on R.FX_CH_CFG_RB n = true → ∃ t, exec (.readbackMismatch n) s = .next t ∧ t.get R.FX_CH_DIAG_MISMATCH n = 1
      ∧ (t.rd R.FX_CH_STAT n).testBit 1 = !s.on R.FX_CH_STAT_CMD n ∧ t = { s with regs := t.regs, field := t.field }
      ∧ OnlyRegs s t [R.FX_CH_STAT.addr n 0 0, R.FX_CH_DIAG.addr n 0 0, R.FX_EVT.addr 0 0 0])
    ∧ (∀ age : BitVec 32, (backHigh s n age.toNat = true → (∀ c : Nat, c < 32 → crossed s n c (s.now - age.toNat) = false) →
        ∃ t, exec (.shortLp ⟨n, age⟩) s = .next t
        ∧ t.get R.FX_CH_DIAG_SHORT_LP n = 1 ∧ (t.rd R.FX_CH_STAT n).testBit 1 = true ∧ t = { s with regs := t.regs, field := t.field }
        ∧ OnlyRegs s t [R.FX_CH_STAT.addr n 0 0, R.FX_CH_DIAG.addr n 0 0, R.FX_EVT.addr 0 0 0])
      ∧ (s.on R.FX_CH_CFG_RB n = false ∨ s.on R.FX_CH_STAT_ON n = true ∨ age.toNat < 20000000
          ∨ (∃ c : Nat, c < 32 ∧ crossed s n c (s.now - age.toNat) = true) → exec (.shortLp ⟨n, age⟩) s = .next s)
      ∧ (∀ (b : Fin 32) (tb : Nat), backHigh s n age.toNat = true → b ≠ n → fxGroup b = fxGroup n → lastOn s b (s.now - age.toNat) = some tb →
        s.now - age.toNat ≤ tb + 20000000 → (∀ c tc : Nat, c < 32 → c ≠ n.val → fxGroup c = fxGroup n → lastOn s c (s.now - age.toNat) = some tc → tc ≤ tb) →
        ∃ t, exec (.crossMismatch ⟨n, age⟩ b) s = .next t ∧ t.get R.FX_CH_DIAG_MISMATCH n = 1
        ∧ t.get R.FX_CH_DIAG_MISMATCH b = 1 ∧ t.get R.FX_CH_DIAG_PARTNER n = b ∧ t.get R.FX_CH_DIAG_PARTNER b = n
        ∧ t.get R.FX_CH_STAT_ON b = s.get R.FX_CH_STAT_ON b ∧ t = { s with regs := t.regs, field := t.field }))
    ∧ (s.on R.FX_CH_CFG_RB n = false → exec (.readbackMismatch n) s = .next s)
    ∧ (∀ seg : Fin 8, segSpare s n = true → (s.rd R.FX_CH_SEG n).testBit seg = true → ∃ t, exec (.segmentSwap n seg) s = .next t
      ∧ t.rd R.FX_CH_SEG n = s.rd R.FX_CH_SEG n ||| 256 ∧ t.get R.FX_CH_STAT_SEG_SWAP n = 1
      ∧ (t.fx n).worn = some (seg.val, s.now + 20000) ∧ t = { s with regs := t.regs, field := t.field }
      ∧ OnlyRegs s t [R.FX_CH_SEG.addr n 0 0, R.FX_CH_STAT.addr n 0 0])
    ∧ (∀ (seg : Fin 8) (due : Nat), (s.fx n).worn = some (seg.val, due) → (s.now < due → exec (.segmentSwapDone n) s = .next s)
      ∧ (due ≤ s.now → ∃ t, exec (.segmentSwapDone n) s = .next t ∧ (t.rd R.FX_CH_SEG n).testBit seg = false
        ∧ t.get R.FX_CH_STAT_SEG_SWAP n = 0 ∧ (t.fx n).worn = none ∧ (t.fx n).retired = some seg.val
        ∧ t.get R.PAT_SG_STATE (9 * n + seg) = 3 ∧ t.get R.PAT_SG_SPARE (9 * n + 8) = 0 ∧ t.get R.PAT_EVT_SUB_DONE = 1))
    ∧ (cqReady s n = true → (∀ (tx : Bool) (b : Byte), ∃ t, exec (.sdciCharacter n tx b) s = .next t
        ∧ t.fx n = (if tx then { s.fx n with txChar := some b } else { s.fx n with rxChar := some b })
        ∧ (tx = true ∨ sdciEngine s n = none ∨ s.field.svc = none → t = { s with field := t.field })
        ∧ (∀ e : Nat, tx = false → sdciEngine s n = some e → s.field.svc ≠ none → (t.eng e).sdci = (s.eng e).sdci ++ [(n.val, b)]
            ∧ t = { s with field := t.field, engs := t.engs } ∧ ∀ x : Nat, x ≠ e → t.eng x = s.eng x)
        ∧ ∀ k : Nat, k ≠ n → t.fx k = s.fx k)
      ∧ (∀ lvl : Bool, ∃ t, exec (.wakeUpPulse n lvl) s = .next t ∧ t.fx n = { s.fx n with wake := some (!lvl, s.now + 80000) }
        ∧ cqReady t n = false ∧ t = { s with field := t.field }))
    ∧ (s.field.svc = none → exec .fieldServicePoll s = .next s)
    ∧ (∀ (h : Nat) (v : Bool), s.field.svc ≠ none → (s.fx n).item = some h → itLive (s.item h) = true → (∀ k : Nat, k < 32 → k ≠ n → (s.fx k).item = none) →
      fxSwitched s n = true → s.on R.FX_CH_CFG_APPLY_EN n = false → (s.fx n).fired ≠ some (fxTickNo s) → v = (readView s h).testBit 0 →
      ∃ t, exec .fieldServicePoll s = .next t
      ∧ ((s.fx n).sent = some v → t = s) ∧ ((s.fx n).sent ≠ some v → t.get R.FX_CH_STAT_CMD n = bit01 v ∧ (t.fx n).sent = some v ∧ Follows s t n
          ∧ t = { s with regs := t.regs, field := t.field } ∧ OnlyRegs s t [R.FX_CH_STAT.addr n 0 0])))
  ∧ (∀ (r : Requester) (s : State), writes s r (R.FX_EDGE_POP.addr 0 0 0) = true → (isAtl r || isHost r) = true → s.field.edges.length ≤ 256 →
    ∃ t, exec (.edgePop r) s = .next t ∧ t.field.edges = s.field.edges.tail ∧ t.get R.FX_EDGE_STAT_COUNT = s.field.edges.length - 1
      ∧ (∀ (a b : Word × Word) (l : List (Word × Word)), s.field.edges = a :: b :: l → t.get R.FX_EDGE_W0_V = b.1.toNat % 2 ^ 7
          ∧ t.get R.FX_EDGE_W1_V = b.2.toNat) ∧ t = { s with bus := {}, regs := t.regs, field := t.field })

/-- A class event of the powered device, the first to the fifth, makes the grant the lower of the requested class and the class that the table gives the count of events: class 3 for one, class 4 for two or three, class 6 for four, class 8 for five. It is counted, reported with PD_CHG, and nothing but the power registers changes. While the front end presents an invalid signature nothing happens. (R284) -/
def Obligations.PdGrant : Prop :=
  ∀ s : State, (pdInvalid s = true → exec .pdClassification s = .next s) ∧ (pdInvalid s = false → s.get R.PWR_PD_STAT_EVENTS < 5 → ∃ t, exec .pdClassification s = .next t
    ∧ t.get R.PWR_PD_STAT_EVENTS = s.get R.PWR_PD_STAT_EVENTS + 1
    ∧ t.get R.PWR_PD_STAT_GRANT = min (s.get R.PWR_PD_STAT_REQ) ([3, 4, 4, 6, 8].getD (s.get R.PWR_PD_STAT_EVENTS) 0)
    ∧ t.get R.PWR_PD_STAT_REQ = s.get R.PWR_PD_STAT_REQ ∧ t.get R.FX_EVT_PD_CHG = 1 ∧ t = { s with regs := t.regs, pwr := t.pwr })

/-- FET_PD fully on sets PDGOOD and shows the input; an invalid signature keeps it off; its loss clears PDGOOD, the events and the grant; AUXSENSE shows AUX. A write of PWR_BUDGET by Atelier recomputes PWR_CAP: the grant in mW times EFF/256 less 10 times OTHER. The request moves towards its target by at most 5 mV, not before 10 us after its last move. In ECO each 10 ms it falls by 5 mV, to 720 mV at least, while every running engine's slack exceeds PWR_ECO, and rises else. In BUDGET a reading above the cap lowers it by 5 mV each 1 ms; without AVSBus it only sets OVER_BUDGET. Three failures hold it, with AVS_ERR. EFF_MODE shows the mode in effect. (R283, R285, R461, R462, R463, R464, R465) -/
def Obligations.PaceGovernor : Prop :=
  (∀ s : State,
    (∀ vin : BitVec 16, pdInvalid s = true → exec (.pdPowerGood vin) s = .next s)
    ∧ (∀ vin : BitVec 16, pdInvalid s = false → ∃ t, exec (.pdPowerGood vin) s = .next t ∧ t.get R.PWR_PD_STAT_PDGOOD = 1 ∧ t.get R.PWR_PD_VIN_V = vin.toNat
      ∧ t.get R.FX_EVT_PD_CHG = 1 ∧ t.get R.PWR_STAT_EFF_MODE = effMode t ∧ t = { s with regs := t.regs, pwr := t.pwr })
    ∧ (∃ t, exec .pdPowerLoss s = .next t ∧ t.get R.PWR_PD_STAT_PDGOOD = 0 ∧ t.get R.PWR_PD_VIN_V = 0 ∧ t.get R.PWR_PD_STAT_EVENTS = 0
      ∧ t.get R.PWR_PD_STAT_GRANT = 0 ∧ t.get R.PWR_CAP_V = 0 ∧ effMode t ≠ 3 ∧ t.get R.PWR_STAT_CAPPED = 0 ∧ t.get R.FX_EVT_PD_CHG = 1
      ∧ t = { s with regs := t.regs, pwr := t.pwr })
    ∧ (∀ on : Bool, ∃ t, exec (.auxSense on) s = .next t ∧ t.get R.PWR_PD_STAT_AUX = bit01 on ∧ t.get R.FX_EVT_PD_CHG = 1
      ∧ t.get R.PWR_STAT_EFF_MODE = effMode t ∧ t = { s with regs := t.regs, pwr := t.pwr })
    ∧ (s.get R.PWR_VREQ_VREQ ≠ s.pwr.target → s.pwr.movedAt + 10000 ≤ s.now → s.pwr.target < 2 ^ 16 → ∃ t, exec .vcoreSlew s = .next t
      ∧ t.get R.PWR_VREQ_VREQ ≤ s.get R.PWR_VREQ_VREQ + 5 ∧ s.get R.PWR_VREQ_VREQ ≤ t.get R.PWR_VREQ_VREQ + 5
      ∧ t.get R.PWR_VREQ_VREQ ≠ s.get R.PWR_VREQ_VREQ ∧ t.pwr = { s.pwr with movedAt := s.now, hold := false }
      ∧ (s.get R.PWR_VREQ_VREQ ≤ s.pwr.target + 5 → s.pwr.target ≤ s.get R.PWR_VREQ_VREQ + 5 → t.get R.PWR_VREQ_VREQ = s.pwr.target
          ∧ t.get R.PWR_STAT_SLEWING = 0) ∧ t = { s with regs := t.regs, pwr := t.pwr })
    ∧ (s.get R.PWR_VREQ_VREQ ≠ s.pwr.target → s.now < s.pwr.movedAt + 10000 → exec .vcoreSlew s = .next s)
    ∧ (s.get R.PWR_VREQ_VREQ = s.pwr.target → exec .vcoreSlew s = .next { s with pwr := { s.pwr with hold := false } })
    ∧ (s.on R.PWR_STAT_AVS = true → ∃ t, exec .avsFailure s = .next t ∧ t.get R.PWR_EVT_AVS_ERR = 1 ∧ t.pwr = { s.pwr with hold := true }
      ∧ t.get R.PWR_AVS_ERRS_V = min (s.get R.PWR_AVS_ERRS_V + 1) (2 ^ 32 - 1) ∧ t.rd R.PWR_VREQ = s.rd R.PWR_VREQ
      ∧ t = { s with regs := t.regs, pwr := t.pwr } ∧ OnlyRegs s t [R.PWR_EVT.addr 0 0 0, R.PWR_AVS_ERRS.addr 0 0 0])
    ∧ (effMode s = 2 → s.pwr.hold = false → s.pwr.stepAt + 10000000 ≤ s.now → s.pwr.movedAt + 10000 ≤ s.now →
      720 ≤ s.get R.PWR_VREQ_VREQ → s.get R.PWR_VREQ_VREQ ≤ 800 → ∃ t, exec .ecoStep s = .next t ∧ t.pwr.stepAt = s.now
      ∧ t.get R.PWR_VREQ_VREQ = (if (∃ e : Nat, e < 48 ∧ 1 ≤ s.get R.CE_STAT_STATE e ∧ s.get R.CE_STAT_STATE e ≤ 4)
          ∧ (∀ e : Nat, e < 48 → 1 ≤ s.get R.CE_STAT_STATE e → s.get R.CE_STAT_STATE e ≤ 4 → (s.get R.PWR_ECO_V : Int) < s.gets R.CE_SLACK_LAST_V e)
          then max 720 (s.get R.PWR_VREQ_VREQ - 5) else min 800 (s.get R.PWR_VREQ_VREQ + 5)) ∧ t = { s with regs := t.regs, pwr := t.pwr })
    ∧ (∀ mw : BitVec 20, ∃ t, exec (.budgetStep mw) s = .next t ∧ t.get R.PWR_POWER_V = mw.toNat ∧ t = { s with regs := t.regs, pwr := t.pwr }
      ∧ (effMode s ≠ 3 → OnlyRegs s t [R.PWR_POWER.addr 0 0 0] ∧ t.pwr = { s.pwr with hold := false })
      ∧ (effMode s = 3 → s.on R.PWR_STAT_AVS = false → t.rd R.PWR_VREQ = s.rd R.PWR_VREQ
          ∧ t.get R.PWR_EVT_OVER_BUDGET = (if s.get R.PWR_CAP_V < mw.toNat then 1 else s.get R.PWR_EVT_OVER_BUDGET))
      ∧ (effMode s = 3 → s.on R.PWR_STAT_AVS = true → s.get R.PWR_CAP_V < mw.toNat → 720 < s.get R.PWR_VREQ_VREQ →
          s.pwr.stepAt + 1000000 ≤ s.now → s.pwr.movedAt + 10000 ≤ s.now → t.get R.PWR_VREQ_VREQ = max 720 (s.get R.PWR_VREQ_VREQ - 5)
          ∧ t.pwr.stepAt = s.now ∧ (s.get R.PWR_VREQ_VREQ ≤ 800 → t.get R.PWR_STAT_CAPPED = 1))))
  ∧ (∀ (r : Requester) (v : Word) (s : State), writes s r (R.PWR_BUDGET.addr 0 0 0) = true → isAtl r = true →
    ∃ t, exec (.budgetWrite r v) s = .next t ∧ t.get R.PWR_BUDGET_EFF = bits v.toNat 0 8 ∧ t.get R.PWR_BUDGET_OTHER = bits v.toNat 16 16
      ∧ t.get R.PWR_CAP_V = classMw (s.get R.PWR_PD_STAT_GRANT) * bits v.toNat 0 8 / 256 - bits v.toNat 16 16 * 10
      ∧ t = { s with bus := {}, regs := t.regs } ∧ OnlyRegs s t [R.PWR_BUDGET.addr 0 0 0, R.PWR_CAP.addr 0 0 0])

/-- A step that is due, with no WAIT and no stall, takes the injected entry or looks one up, in the other bank after a pending flip. An entry whose FIFO is not ready is latched and the unit stalls with its pins and state as they were; else it executes: its action (shift out, shift in, pull, push, load, count, wait), then the four lanes and OE, where code 2 drives the new SOB, then STATE = NEXT, IRQ and the step count. A stalled entry executes once its FIFO is ready. A WAIT ends with its last tick. A disabled unit stops at its next tick, with FIFOs, flip and injection empty and its pins held for one period. No other unit changes. (R288, R289, R290, R291, R292, R294, R295, R296, R297) -/
def Obligations.RaspSteps : Prop :=
  (∀ (u : Fin 16) (pins : BitVec 64) (s s1 s2 : State) (x : RaspSt) (e : Nat), s1 = { s with rasp := { s.rasp with balls := pins } } → x = s.unit u →
    (raspDue s u = false ∨ x.wait ≠ 0 ∨ x.stalled ≠ none → exec (.raspStep u pins) s = .next s1)
    ∧ (raspDue s u = true → x.wait = 0 → x.stalled = none → x.stop = none →
      s2 = (if x.flip then s1.put R.RASP_U_CTL_BANK (1 - s.get R.RASP_U_CTL_BANK u) u else s1) → e = (x.inj.getD (raspLookup s2 u).2).toNat →
      ((∀ p ∈ s.rasp.late, p.1 ≠ raspAt s2 u) → (raspLookup s2 u).2 = tabGet 0 s.rasp.tab (raspAt s2 u)) ∧
      ∃ t, exec (.raspStep u pins) s = .next t ∧ t = { s with regs := t.regs, rasp := t.rasp, freeCtr := t.freeCtr } ∧ (∀ v : Nat, v ≠ u → t.unit v = s.unit v)
        ∧ t.get R.RASP_U_CTL_BANK u = (if x.flip then 1 - s.get R.RASP_U_CTL_BANK u else s.get R.RASP_U_CTL_BANK u)
        ∧ (raspBlocked x e = true → t.unit u = { x with flip := false, inj := none, k := x.k + 1, stalled := some (w32 e) })
        ∧ (raspBlocked x e = false → (t.unit u).state = bits e 0 5 ∧ (t.unit u).oe.toNat = bits e 16 4 ∧ (t.unit u).k = x.k + 1
          ∧ (t.unit u).flip = false ∧ (t.unit u).inj = none ∧ t.get R.RASP_U_STEPS_V u = (s.get R.RASP_U_STEPS_V u + 1) % 2 ^ 32
          ∧ t.get R.RASP_U_EVT_IRQ u = (if e.testBit 31 then 1 else s.get R.RASP_U_EVT_IRQ u)
          ∧ (∀ l : Nat, l < 4 → (t.unit u).lanes.getLsbD l = (if bits e (8 + 2 * l) 2 = 0 then false else if bits e (8 + 2 * l) 2 = 1 then true
              else if bits e (8 + 2 * l) 2 = 2 then (t.unit u).sob else x.lanes.getLsbD l))
          ∧ (t.unit u).sob = (if bits e 5 3 = 1 then x.sr.getLsbD 0 else x.sob)
          ∧ (bits e 5 3 = 1 → (t.unit u).sr = x.sr >>> 1 ∧ (t.unit u).sc = min 32 (x.sc + 1))
          ∧ (bits e 5 3 = 2 → (t.unit u).sr.toNat = x.sr.toNat / 2 + 2 ^ 31 * bit01 (raspI s1 u (bits e 20 10 % 4)) ∧ (t.unit u).sc = min 32 (x.sc + 1))
          ∧ (bits e 5 3 = 3 → x.pull = (t.unit u).sr :: (t.unit u).pull ∧ (t.unit u).sc = 0)
          ∧ (bits e 5 3 = 4 → (t.unit u).push = x.push ++ [if bits e 20 10 % 2 = 1 then w32 x.cnt.toNat else if x.sc = 0 then 0 else x.sr >>> (32 - x.sc)]
              ∧ (bits e 20 10 % 2 = 0 → (t.unit u).sr = 0 ∧ (t.unit u).sc = 0))
          ∧ (bits e 5 3 = 5 → (t.unit u).cnt.toNat = bits e 20 10)
          ∧ (bits e 5 3 = 6 → (t.unit u).cnt = if bits e 20 10 % 2 = 0 then x.cnt + 1 else x.cnt - 1)
          ∧ (t.unit u).wait = (if bits e 5 3 = 7 then bits e 20 10 else 0)
          ∧ (bits e 5 3 ≠ 3 → (t.unit u).pull = x.pull) ∧ (bits e 5 3 ≠ 4 → (t.unit u).push = x.push)
          ∧ (bits e 5 3 = 0 ∨ 5 ≤ bits e 5 3 → (t.unit u).sr = x.sr ∧ (t.unit u).sc = x.sc))))
  ∧ (∀ (u : Fin 16) (s : State) (x : RaspSt), x = s.unit u →
    (x.run = true → x.wait ≠ 0 → x.t0 ≤ s.time.frc.toNat → x.k + x.wait ≤ raspTicks s u + 1 → ∃ t, exec (.raspWaitEnd u) s = .next t
      ∧ t.unit u = { x with wait := 0, k := x.k + x.wait } ∧ t = { s with rasp := t.rasp } ∧ ∀ v : Nat, v ≠ u → t.unit v = s.unit v)
    ∧ (raspTicks s u + 1 < x.k + x.wait → exec (.raspWaitEnd u) s = .next s)
    ∧ (∀ e : Word, x.stalled = some e → raspDue s u = true → raspAtTick s u = true → x.stop = none →
      (raspBlocked x e.toNat = true → exec (.raspStallRelease u) s = .next s)
      ∧ (raspBlocked x e.toNat = false → ∃ t, exec (.raspStallRelease u) s = .next t ∧ (t.unit u).stalled = none
        ∧ (t.unit u).state = bits e.toNat 0 5 ∧ (t.unit u).k = raspTicks s u + 1 ∧ t.get R.RASP_U_STEPS_V u = (s.get R.RASP_U_STEPS_V u + 1) % 2 ^ 32
        ∧ (bits e.toNat 5 3 = 3 → x.pull = (t.unit u).sr :: (t.unit u).pull) ∧ t = { s with regs := t.regs, rasp := t.rasp }))
    ∧ (∀ n a : Nat, x.stop = some n → x.run = true → a = x.t0 + n * raspDiv s u / 256 →
      (s.time.frc.toNat < a → exec (.raspDisableTick u) s = .next s) ∧ (a ≤ s.time.frc.toNat → ∃ t, exec (.raspDisableTick u) s = .next t
      ∧ t.unit u = { x with run := false, hold := true, t0 := a, stop := none, pull := [], push := [], stalled := none, inj := none, flip := false, wait := 0 }
      ∧ t = { s with rasp := t.rasp } ∧ ∀ p : Nat, p < 64 → pinDrive t p = pinDrive s p))
    ∧ (x.hold = true → x.run = false → 256 * x.t0 + raspDiv s u < 256 * (s.time.frc.toNat + 1) → ∃ t, exec (.raspPinRelease u) s = .next t
      ∧ t.unit u = { x with hold := false } ∧ t = { s with rasp := t.rasp }
      ∧ ∀ p : Nat, p < 64 → s.get R.GPIO_PIN_OWN p = u + 1 → pinDrive t p = (s.on R.GPIO_PIN_OUT p, s.on R.GPIO_PIN_OE p)))

/-- FLIP by Atelier marks a flip as pending; EN = 0 leaves a running unit's stop to its next tick. RASP_TW_DATA writes the entry that RASP_TW_SEL names and moves on by one. An injection for a running unit without one waits, else INJ_ERR; of an owned unit only the owner and Atelier may inject, write the pull FIFO or read the push FIFO, an engine elsewhere sets IO_RSVD. GO makes a start pending, and while one is pending only MISS is set; at its instant each enabled unit of MASK starts in START_STATE with everything clear, or restarts its ticks if it runs. A pull word joins the FIFO while EN = 1, else WR_ERR; a push read takes the oldest word, 0 where there is none. (R293, R295, R296, R297, R298) -/
def Obligations.RaspCommands : Prop :=
  (∀ (r : Requester) (u : Fin 16) (v : Word) (s : State), writes s r (R.RASP_U_CTL.addr u 0 0) = true → isAtl r = true →
    (∃ t, exec (.raspFlip r u v) s = .next t ∧ ((s.on R.RASP_U_CTL_EN u = false ∨ v.getLsbD 0 = true ∨ (s.unit u).run = true) → (t.unit u).flip = true)
      ∧ t.get R.RASP_U_CTL_EN u = bits v.toNat 0 1 ∧ t.get R.RASP_U_CTL_BANK u = s.get R.RASP_U_CTL_BANK u
      ∧ t.get R.RASP_U_CTL_OWNER_LE u = bits v.toNat 8 6 ∧ t = { s with bus := {}, regs := t.regs, rasp := t.rasp }
      ∧ OnlyRegs s t [R.RASP_U_CTL.addr u 0 0])
    ∧ (∃ t, exec (.raspDisable r u v) s = .next t ∧ t.get R.RASP_U_CTL_EN u = 0
      ∧ ((s.unit u).run = true → v.getLsbD 2 = false → s.on R.RASP_U_CTL_EN u = true → (s.unit u).stop = none →
          ∃ n, t.unit u = { s.unit u with stop := some n } ∧ (s.unit u).k ≤ n
            ∧ ((s.unit u).t0 ≤ s.time.frc.toNat → s.time.frc.toNat ≤ (s.unit u).t0 + n * raspDiv s u / 256)) ∧ t = { s with bus := {}, regs := t.regs, rasp := t.rasp }))
  ∧ (∀ (r : Requester) (v : Word) (k : Nat) (s : State), writes s r (R.RASP_TW_DATA.addr 0 0 0) = true → isAtl r = true →
    k = raspKey (s.get R.RASP_TW_SEL_UNIT) (s.get R.RASP_TW_SEL_BANK) (s.get R.RASP_TW_SEL_INDEX) → ∃ t, exec (.raspTableWrite r v) s = .next t
    ∧ tabGet 0 t.rasp.tab k = v ∧ (∀ j : Nat, j ≠ k → tabGet 0 t.rasp.tab j = tabGet 0 s.rasp.tab j)
    ∧ t.get R.RASP_TW_SEL_INDEX = (s.get R.RASP_TW_SEL_INDEX + 1) % 512
    ∧ ((s.unit (s.get R.RASP_TW_SEL_UNIT)).run = false ∨ s.get R.RASP_U_CTL_BANK (s.get R.RASP_TW_SEL_UNIT) ≠ s.get R.RASP_TW_SEL_BANK →
        ∀ p ∈ t.rasp.late, p.1 ≠ k)
    ∧ t = { s with bus := {}, regs := t.regs, rasp := { s.rasp with tab := t.rasp.tab, late := t.rasp.late } } ∧ OnlyRegs s t [R.RASP_TW_SEL.addr 0 0 0])
  ∧ (∀ (w : DoneWriter) (u : Fin 16) (v : Word) (s u1 : State), (∃ e : Fin 48, w = .engine e ∧ raspOwned s e u = true ∧ u1 = s)
      ∨ (∃ r : Requester, w = .bus r ∧ writes s r (R.RASP_U_INJ.addr u 0 0) = true ∧ raspMay s r u = true ∧ u1 = { s with bus := {} }) →
    ((s.unit u).run = true → (s.unit u).inj = none → ∃ t, exec (.raspInject w u v) s = .next t ∧ t.unit u = { s.unit u with inj := some v }
      ∧ t = { u1 with rasp := t.rasp })
    ∧ ((s.unit u).run = false ∨ (s.unit u).inj ≠ none → ∃ t, exec (.raspInject w u v) s = .next t ∧ t.get R.RASP_U_EVT_INJ_ERR u = 1
      ∧ t = { u1 with regs := t.regs } ∧ OnlyRegs s t [R.RASP_U_EVT.addr u 0 0]))
  ∧ (∀ (w : DoneWriter) (u : Fin 16) (v : Word) (s u1 : State), (∃ e : Fin 48, w = .engine e ∧ raspOwned s e u = true ∧ u1 = s)
      ∨ (∃ r : Requester, w = .bus r ∧ writes s r (R.RASP_U_PULL.addr u 0 0) = true ∧ raspMay s r u = true ∧ u1 = { s with bus := {} }) →
    (s.on R.RASP_U_CTL_EN u = true → ∃ t, exec (.raspPullWrite w u v) s = .next t ∧ t.unit u = { s.unit u with pull := (s.unit u).pull ++ [v] }
      ∧ t = { u1 with rasp := t.rasp })
    ∧ (s.on R.RASP_U_CTL_EN u = false → ∃ t, exec (.raspPullWrite w u v) s = .next t ∧ t.get R.RASP_U_EVT_WR_ERR u = 1 ∧ t = { u1 with regs := t.regs }
      ∧ OnlyRegs s t [R.RASP_U_EVT.addr u 0 0]))
  ∧ (∀ (w : DoneWriter) (u : Fin 16) (s : State), (∃ e : Fin 48, w = .engine e ∧ raspOwned s e u = true)
      ∨ (∃ r : Requester, w = .bus r ∧ reads s r (R.RASP_U_PUSH.addr u 0 0) = true ∧ raspMay s r u = true) →
    ∃ t, exec (.raspPushRead w u) s = .next t
      ∧ t.bus = { rdata := if s.on R.RASP_U_CTL_EN u then (s.unit u).push.headD 0 else 0, err := false }
      ∧ (t.unit u).push = (if s.on R.RASP_U_CTL_EN u then (s.unit u).push.tail else (s.unit u).push) ∧ t = { s with bus := t.bus, rasp := t.rasp })
  ∧ (∀ (e : Fin 48) (u : Fin 16) (v : Word) (s : State), raspOwned s e u = false →
    (∃ t, exec (.raspPullWrite (.engine e) u v) s = .next t ∧ exec (.raspInject (.engine e) u v) s = .next t ∧ t.get R.CE_ERR_IO_RSVD e = 1
      ∧ t = { s with regs := t.regs } ∧ OnlyRegs s t [R.CE_ERR.addr e 0 0])
    ∧ (∃ t, exec (.raspPushRead (.engine e) u) s = .next t ∧ t.bus = { rdata := 0, err := false } ∧ t.rasp = s.rasp ∧ t.get R.CE_ERR_IO_RSVD e = 1))
  ∧ (∀ (r : Requester) (v : Word) (s : State), writes s r (R.RASP_START.addr 0 0 0) = true → isAtl r = true → ∃ t, exec (.raspGo r v) s = .next t
    ∧ t.get R.RASP_START_STAT_PEND = 1
    ∧ (s.on R.RASP_START_STAT_PEND = true → t.get R.RASP_START_STAT_MISS = 1 ∧ t.rd R.RASP_START = s.rd R.RASP_START
        ∧ t = { s with bus := {}, regs := t.regs })
    ∧ (s.on R.RASP_START_STAT_PEND = false → t.get R.RASP_START_MASK = bits v.toNat 0 16 ∧ t.get R.RASP_START_IG = bits v.toNat 16 5
        ∧ t.get R.RASP_START_IG_EN = bits v.toNat 21 1 ∧ t.rasp.due = none ∧ t = { s with bus := {}, regs := t.regs, rasp := t.rasp }))
  ∧ (∀ (s : State) (a : Nat), s.on R.RASP_START_STAT_PEND = true → (s.on R.RASP_START_IG_EN = false ∧ a = s.time.frc.toNat
      ∨ s.on R.RASP_START_IG_EN = true ∧ s.rasp.due = some a) → ∃ t, exec .raspSyncStart s = .next t
    ∧ t.get R.RASP_START_STAT_PEND = 0 ∧ t.rasp.due = none ∧ t = { s with regs := t.regs, rasp := t.rasp } ∧ OnlyRegs s t [R.RASP_START_STAT.addr 0 0 0]
    ∧ ∀ u : Nat, u < 16 → t.unit u = (if (s.get R.RASP_START_MASK).testBit u && s.on R.RASP_U_CTL_EN u then
        if (s.unit u).run then { s.unit u with t0 := a, k := 0, wait := (s.unit u).wait - (raspPast s u a - (s.unit u).k), stop := (s.unit u).stop.map fun _ => 0 }
        else { s.unit u with run := true, state := s.get R.RASP_U_CTL_START_STATE u, sr := 0, sc := 0, cnt := 0, sob := false, wait := 0, stalled := none, inj := none, t0 := a, k := 0, hold := false, stop := none }
      else s.unit u))

/-- A start by doorbell, of the owning engine or of a requester that may, makes an idle queue read its descriptor, or wait for a free PCIe tag to do so, marks a start as pending at a busy one, and is counted as missed at a disabled or HALTED one or with a start pending; an engine that does not own it sets IO_RSVD. The read of a host ring takes 32 bytes at HEAD: OWN = 0 makes the queue idle, else the descriptor executes, or is BAD_DESC; with host memory unreachable the queue halts with FETCH_ERR. EN = 0 ends a read under way at once, and a descriptor with no burst granted or in flight as ABORTED. RESUME makes a HALTED queue read again. A tail that leaves room ends RQ_WAIT. (R346, R349, R350, R351, R357, R358, R360, R361) -/
def Obligations.DmaQueues : Prop :=
  (∀ (w : DoneWriter) (q : Fin 64) (s u : State), (∃ e : Fin 48, w = .engine e ∧ (dqOwned s e).contains q.val = true ∧ u = s)
      ∨ (∃ r : Requester, w = .bus r ∧ writes s r (R.DQ_DB.addr q 0 0) = true ∧ mayRing s r q = true ∧ u = { s with bus := {} }) →
    ∃ t, exec (.queueDoorbell w q) s = .next t ∧ t = { u with regs := t.regs, dma := t.dma }
      ∧ (s.on R.DQ_CTL_EN q = true → s.get R.DQ_STAT_STATE q ≠ 3 → (s.dq q).phase = 0 → t.get R.DQ_STAT_STATE q = 2 ∧ t.get R.DQ_STAT_IDLE q = 0
          ∧ t.dq q = { s.dq q with phase := 1, asked := s.now, wait := !tagFor s q } ∧ OnlyRegs s t [R.DQ_STAT.addr q 0 0])
      ∧ (s.on R.DQ_CTL_EN q = true → s.get R.DQ_STAT_STATE q ≠ 3 → (s.dq q).phase ≠ 0 → s.on R.DQ_STAT_TRIG_PEND q = false →
          t.get R.DQ_STAT_TRIG_PEND q = 1 ∧ t.dma = s.dma ∧ OnlyRegs s t [R.DQ_STAT.addr q 0 0])
      ∧ (s.on R.DQ_CTL_EN q = false ∨ s.get R.DQ_STAT_STATE q = 3 ∨ (s.dq q).phase ≠ 0 ∧ s.on R.DQ_STAT_TRIG_PEND q = true →
          t.get R.DQ_TRIG_MISS_V q = min (s.get R.DQ_TRIG_MISS_V q + 1) (2 ^ 32 - 1) ∧ t.get R.DQ_EVT_TRIG_MISS q = 1 ∧ t.dma = s.dma
          ∧ OnlyRegs s t [R.DQ_TRIG_MISS.addr q 0 0, R.DQ_EVT.addr q 0 0]))
  ∧ (∀ (e : Fin 48) (q : Fin 64) (s : State), (dqOwned s e).contains q.val = false → ∃ t, exec (.queueDoorbell (.engine e) q) s = .next t
    ∧ t.get R.CE_ERR_IO_RSVD e = 1 ∧ t = { s with regs := t.regs } ∧ OnlyRegs s t [R.CE_ERR.addr e 0 0])
  ∧ (∀ (q : Fin 64) (b : List Byte) (s : State) (x : DqSt), (s.dq q).phase = 1 → (s.dq q).wait = false → s.on R.DQ_CTL_EN q = true → s.on R.DMA_CTL_EN = true →
    (∀ k : Nat, k < 64 → (s.dq k).held = false ∧ (s.dq k).wait = false) →
    s.on R.DQ_CTL_RING_SP q = true → b = s.bytes .host (ringAt s q % 2 ^ 64) 32 →
    x = { s.dq q with phase := 2, ctl := hdr b 0 4, len := hdr b 4 3, src := hdr b 8 8, dst := hdr b 16 8, issued := 0, done := 0, result := none, bursts := [], held := false, record := s.on R.DQ_CTL_MODE q } →
    (hostMemUp s = false → ∃ t, exec (.descriptorFetch q) s = .next t ∧ t.get R.DQ_STAT_STATE q = 3 ∧ t.get R.DQ_STAT_FETCH_ERR q = 1
      ∧ t.get R.DQ_STAT_IDLE q = 1 ∧ (t.dq q).phase = 0 ∧ t = { s with regs := t.regs, dma := t.dma } ∧ OnlyRegs s t [R.DQ_STAT.addr q 0 0])
    ∧ (hostMemUp s = true → (hdr b 0 4).testBit 31 = false → s.on R.DQ_STAT_TRIG_PEND q = false → ∃ t, exec (.descriptorFetch q) s = .next t
      ∧ t.get R.DQ_STAT_STATE q = 1 ∧ t.get R.DQ_STAT_IDLE q = 1 ∧ (t.dq q).phase = 0 ∧ t = { s with regs := t.regs, dma := t.dma }
      ∧ OnlyRegs s t [R.DQ_STAT.addr q 0 0])
    ∧ (hostMemUp s = true → (hdr b 0 4).testBit 31 = true → ∃ t, exec (.descriptorFetch q) s = .next t
      ∧ t.dq q = (if descOk s x then x else { x with phase := 3, result := some 7 }) ∧ t = { s with dma := t.dma }
      ∧ ∀ k : Nat, k ≠ q → t.dq k = s.dq k))
  ∧ (∀ (r : Requester) (q : Fin 64) (s : State) (x : DqSt), x = s.dq q →
    (∀ v : BitVec 12, writes s r (R.DQ_RQ_TAIL.addr q 0 0) = true → (isAtl r || (isHost r && s.on R.DQ_CTL_HOST q)) = true →
      ∃ t, exec (.rqTailWrite r q v) s = .next t ∧ t.get R.DQ_RQ_TAIL_V q = v.toNat
      ∧ t.get R.DQ_STAT_STATE q = (if s.get R.DQ_STAT_STATE q = 4 ∧ (s.rd R.DQ_RQ_HEAD q + 1) % clamp4096 (s.rd R.DQ_RQ_SIZE q) ≠ t.rd R.DQ_RQ_TAIL q
          then 2 else s.get R.DQ_STAT_STATE q)
      ∧ t = { s with bus := {}, regs := t.regs } ∧ OnlyRegs s t [R.DQ_RQ_TAIL.addr q 0 0, R.DQ_STAT.addr q 0 0])
    ∧ (∀ v : Word, writes s r (R.DQ_CTL.addr q 0 0) = true → isAtl r = true →
      (∃ t, exec (.queueDisable r q v) s = .next t ∧ t.get R.DQ_CTL_EN q = 0 ∧ t.get R.DQ_CTL_MODE q = bits v.toNat 1 1 ∧ t.get R.DQ_STAT_STATE q = 0
        ∧ t.get R.DQ_STAT_TRIG_PEND q = 0 ∧ t = { s with bus := {}, regs := t.regs, dma := t.dma }
        ∧ OnlyRegs s t [R.DQ_CTL.addr q 0 0, R.DQ_STAT.addr q 0 0, R.DMA_STAT.addr 0 0 0]
        ∧ (x.phase ≠ 1 → OnlyRegs s t [R.DQ_CTL.addr q 0 0, R.DQ_STAT.addr q 0 0])
        ∧ (s.on R.DQ_CTL_EN q = true → x.phase = 1 → t.dq q = { x with phase := 0, held := false, wait := false } ∧ t.get R.DQ_STAT_IDLE q = 1)
        ∧ (s.on R.DQ_CTL_EN q = true → x.phase = 2 → x.bursts = [] → x.held = false → t.dq q = { x with phase := 3, result := some 3 } ∧ tabGet [] t.dma.htx q = [])
        ∧ (s.on R.DQ_CTL_EN q = true → x.phase = 2 → x.bursts ≠ [] ∨ x.held = true → t.dq q = { x with result := some 3 }))
      ∧ (s.on R.DQ_CTL_EN q = true → s.get R.DQ_STAT_STATE q = 3 → ∃ t, exec (.queueResume r q v) s = .next t ∧ t.get R.DQ_CTL_EN q = 1
        ∧ t.get R.DQ_STAT_STATE q = 2 ∧ t.get R.DQ_STAT_IDLE q = 0 ∧ t.dq q = { x with phase := 1, asked := s.now, wait := !tagFor s q }
        ∧ t = { s with bus := {}, regs := t.regs, dma := t.dma } ∧ OnlyRegs s t [R.DQ_CTL.addr q 0 0, R.DQ_STAT.addr q 0 0])))

/-- A descriptor in host memory that one burst carries: COPY moves the bytes, FILL writes the pattern's byte (a mod 4) at each address a, COMPARE writes nothing and ends at the first difference with MISMATCH or with DONE = LEN; then it is to be returned. Where no queue starves, a grant goes to the ready queue of the highest level that has one, or, in a round reserved for level 0, to that level; with 256 bursts in flight, or no PCIe tag free, the queue holds it. A burst that completes moves its own bytes and leaves flight. A return writes STATUS and DONE, clears OWN, advances HEAD and the count, and the queue halts on an error, idles under STEP, and else reads on; with the record queue full it waits instead, and nothing is returned. (R347, R349, R350, R352, R353, R354, R356, R357, R360) -/
def Obligations.DmaTransfers : Prop :=
  (∀ (q : Fin 64) (s : State) (x : DqSt), x = s.dq q → s.on R.DMA_CTL_EN = true → s.on R.DQ_CTL_EN q = true → x.phase = 2 → x.result = none →
    x.bursts = [] → x.held = false → x.issued = 0 → x.done = 0 → 0 < x.len → x.len ≤ burstSize s q - x.dst % burstSize s q → dstSp x = 1 → hostMemUp s = true →
    x.dst + x.len ≤ 2 ^ 64 → x.src + x.len ≤ 2 ^ 64 → s.get R.DMA_STAT_INFLIGHT < 256 → tagsUsed s + 2 ≤ 256 → (∀ k : Nat, k < 64 → (s.dq k).held = false ∧ (s.dq k).wait = false) → tabGet [] s.dma.htx q = [] →
    (bits x.ctl 0 2 = 0 → srcSp x = 1 → ∃ t, exec (.dmaCopy q) s = .next t ∧ t.bytes .host x.dst x.len = s.bytes .host x.src x.len
      ∧ OnlyBytes s t .host x.dst x.len ∧ (t.dq q).phase = 3 ∧ (t.dq q).result = none ∧ (t.dq q).done = x.len ∧ (t.dq q).bursts = []
      ∧ t = { s with regs := t.regs, mem := t.mem, dma := t.dma } ∧ OnlyRegs s t [])
    ∧ (bits x.ctl 0 2 = 1 → ∃ t, exec (.dmaFill q) s = .next t
      ∧ (∀ a : Nat, x.dst ≤ a → a < x.dst + x.len → (t.mrd .host a).toNat = x.src / 256 ^ (a % 4) % 256)
      ∧ OnlyBytes s t .host x.dst x.len ∧ (t.dq q).phase = 3 ∧ (t.dq q).result = none ∧ (t.dq q).done = x.len
      ∧ t = { s with regs := t.regs, mem := t.mem, dma := t.dma } ∧ OnlyRegs s t [])
    ∧ (bits x.ctl 0 2 = 2 → srcSp x = 1 → ∃ t, exec (.dmaCompare q) s = .next t ∧ (t.dq q).phase = 3
      ∧ (s.bytes .host x.src x.len = s.bytes .host x.dst x.len → (t.dq q).done = x.len ∧ (t.dq q).result = none)
      ∧ (∀ i : Nat, i < x.len → s.mrd .host (x.src + i) ≠ s.mrd .host (x.dst + i) →
          (∀ j : Nat, j < i → s.mrd .host (x.src + j) = s.mrd .host (x.dst + j)) → (t.dq q).done = i ∧ (t.dq q).result = some 1)
      ∧ t = { s with regs := t.regs, dma := t.dma } ∧ OnlyRegs s t []))
  ∧ (∀ (q : Fin 64) (lvl : Fin 4) (s : State), readyAt s lvl = [q.val] →
    ((agingRound s = false → starved s 1 (dmaAsking s) = none → (∀ l : Nat, l < 4 → lvl < l → readyAt s l = []) → ∃ t, exec .burstGrant s = .next t
      ∧ (s.get R.DMA_STAT_INFLIGHT ≠ 256 → tagsUsed s + burstTags (s.dq q) ≤ 256 → t.dq q = { s.dq q with issued := (s.dq q).issued + (nextBurst s q).len, bursts := (s.dq q).bursts ++ [nextBurst s q], held := false }
          ∧ (s.get R.DMA_STAT_INFLIGHT < 256 → t.get R.DMA_STAT_INFLIGHT = s.get R.DMA_STAT_INFLIGHT + 1))
      ∧ (s.get R.DMA_STAT_INFLIGHT = 256 ∨ 256 < tagsUsed s + burstTags (s.dq q) → t.dq q = { s.dq q with held := true } ∧ OnlyRegs s t [])
      ∧ t.dma.since0 = (if lvl.val = 0 then 0 else s.dma.since0 + 1) ∧ tabGet 0 t.dma.last lvl = q + 1 ∧ (∀ k : Nat, k ≠ q → t.dq k = s.dq k)
      ∧ t = { s with regs := t.regs, dma := t.dma, starve := t.starve, arbs := t.arbs } ∧ OnlyRegs s t [R.DMA_STAT.addr 0 0 0])
    ∧ (agingRound s = true → exec .burstGrant s = .next s)
    ∧ (agingRound s = false → exec .dmaAgingGrant s = .next s)
    ∧ (lvl.val = 0 → agingRound s = true → s.get R.DMA_STAT_INFLIGHT < 256 → tagsUsed s + burstTags (s.dq q) ≤ 256 → ∃ t, exec .dmaAgingGrant s = .next t ∧ t.dma.since0 = 0
      ∧ t.dq q = { s.dq q with issued := (s.dq q).issued + (nextBurst s q).len, bursts := (s.dq q).bursts ++ [nextBurst s q], held := false }
      ∧ t.get R.DMA_STAT_INFLIGHT = s.get R.DMA_STAT_INFLIGHT + 1 ∧ (∀ k : Nat, k ≠ q → t.dq k = s.dq k)
      ∧ t = { s with regs := t.regs, dma := t.dma, starve := t.starve, arbs := t.arbs })))
  ∧ (∀ (q : Fin 64) (i : Fin 16) (b : Burst) (s : State) (x : DqSt), x = s.dq q → x.phase = 2 → x.bursts[i.val]? = some b → bits x.ctl 0 2 = 0 → srcSp x = 1 →
    dstSp x = 1 → hostMemUp s = true → x.dst + b.off + b.len ≤ 2 ^ 64 → x.src + b.off + b.len ≤ 2 ^ 64 → x.result = none →
    (∀ k : Nat, k < 64 → (s.dq k).held = false ∧ (s.dq k).wait = false) → 2 ≤ x.bursts.length → ∃ t, exec (.burstComplete q i) s = .next t
      ∧ t.bytes .host (x.dst + b.off) b.len = s.bytes .host (x.src + b.off) b.len ∧ OnlyBytes s t .host (x.dst + b.off) b.len
      ∧ t.dq q = { x with done := x.done + b.len, bursts := x.bursts.eraseIdx i } ∧ t.get R.DMA_STAT_INFLIGHT = s.get R.DMA_STAT_INFLIGHT - 1
      ∧ (∀ k : Nat, k ≠ q → t.dq k = s.dq k) ∧ t = { s with regs := t.regs, mem := t.mem, dma := t.dma } ∧ OnlyRegs s t [R.DMA_STAT.addr 0 0 0])
  ∧ (∀ (q : Fin 64) (a r : Nat) (s : State) (x : DqSt), x = s.dq q → x.phase = 3 → r = x.result.getD 0 → r < 16 → a = ringAt s q →
    (x.record = true → rqFull s q = true → r ≠ 3 → ∃ t, exec (.descriptorReturn q) s = .next t ∧ t.get R.DQ_STAT_STATE q = 4
      ∧ t.get R.DQ_EVT_RQ_FULL q = 1 ∧ t = { s with regs := t.regs } ∧ OnlyRegs s t [R.DQ_STAT.addr q 0 0, R.DQ_EVT.addr q 0 0])
    ∧ (x.record = false → s.on R.DQ_CTL_RING_SP q = true → hostMemUp s = true → a + 32 ≤ 2 ^ 64 → s.get R.DQ_PULSE_KIND q = 0 →
      s.on R.DQ_CTL_EN q = true → s.on R.DQ_STAT_TRIG_PEND q = false → ∃ t, exec (.descriptorReturn q) s = .next t
      ∧ t.mword .host (a + 0x18) = r ∧ t.mword .host (a + 0x1C) = x.done % 2 ^ 24 ∧ t.mword .host a = x.ctl % 2 ^ 31
      ∧ (∀ k : Nat, (k < 4 ∨ 0x18 ≤ k ∧ k < 0x20) ∨ t.mrd .host (a + k) = s.mrd .host (a + k)) ∧ OnlyBytes s t .host a 32
      ∧ t.get R.DQ_HEAD_V q = (s.rd R.DQ_HEAD q + 1) % clamp4096 (s.rd R.DQ_SIZE q) ∧ t.get R.DQ_STAT_LAST q = r
      ∧ t.get R.DQ_DONE_CNT_V q = min (s.get R.DQ_DONE_CNT_V q + 1) (2 ^ 32 - 1)
      ∧ (4 ≤ r → r ≤ 7 → t.get R.DQ_STAT_STATE q = 3 ∧ t.get R.DQ_EVT_ERR q = 1 ∧ (t.dq q).phase = 0)
      ∧ (r < 4 ∨ 7 < r → s.on R.DQ_CTL_STEP q = true → t.get R.DQ_STAT_STATE q = 1 ∧ t.get R.DQ_STAT_IDLE q = 1 ∧ (t.dq q).phase = 0)
      ∧ (r < 4 ∨ 7 < r → s.on R.DQ_CTL_STEP q = false → t.get R.DQ_STAT_STATE q = 2 ∧ (t.dq q).phase = 1)
      ∧ (r = 1 → t.get R.DQ_EVT_MISMATCH q = 1) ∧ (r = 2 → t.get R.DQ_EVT_UNDERRUN q = 1) ∧ (t.dq q).lastDone = x.done % 2 ^ 24
      ∧ t = { s with regs := t.regs, mem := t.mem, dma := t.dma }))

/-- With PCIe selected: a hot reset takes the link down with Bus Master Enable and MSI-X off and sets HOT_RST; training, once the reset is released, brings the link up at its rate and width with Bus Master Enable, MSI-X and the BARs as the host sets them. A read of host memory that fails sets CPL_TO or CPL_ERR and ends the command that makes it with TIMEOUT, and only such a one, or halts a queue that fetches with FETCH_ERR. With quad-SPI selected: a one-word WRITE to an open memory stores the word and answers OK, its READ answers it most significant byte first; a word at an unaligned address ends the frame with status 2; the second word of a WRITE that the firewall refuses ends it with 3 at index 1; a full mailbox with 1; another opcode with 4; STATUS answers the last status and index; an abandoned frame sets SPI_ABORT and keeps the complete words of a WRITE. HMBn_DATA takes a word unless FULL, when the host's write is counted and refused and another's ends with a bus error; HMBn_ACK, AMBn_DATA and AMBn_ACK set and clear FULL and ACKV. Doorbell bits are set by one side and cleared by the other, each side's write of the other's register being ignored. (R300, R301, R304, R305, R306, R307, R308, R309, R311, R312, R314, R316) -/
def Obligations.HostInterface : Prop :=
  (∀ s : State, s.on R.HIF_STAT_IF = false → ∃ t, exec .hotReset s = .next t ∧ t.on R.HIF_STAT_LINK_UP = false ∧ t.on R.HIF_STAT_BME = false
      ∧ t.get R.HIF_EVT_HOT_RST = 1 ∧ t.hif = { s.hif with d3hot := false, msixEn := false, msixFMask := false, bar0 := 0, bar2 := 0 }
      ∧ t = { s with regs := t.regs, hif := t.hif }
      ∧ OnlyRegs s t ([R.HIF_STAT.addr 0 0 0, R.HIF_EVT.addr 0 0 0, R.MSIX_PBA.addr 0 0 0, R.MSIX_PBA.addr 1 0 0] ++ (List.range 64).flatMap fun n =>
          [R.MSIX_ADDR_LO.addr n 0 0, R.MSIX_ADDR_HI.addr n 0 0, R.MSIX_DATA.addr n 0 0, R.MSIX_CTL.addr n 0 0]))
  ∧ (∀ (sp w : Fin 3) (bme : Bool) (c : PciConfig) (s : State), s.on R.HIF_STAT_IF = false → (s.boot.phase ≠ 0 ∨ s.boot.reach = some 2) →
    (asleep s 6 = true → ∀ n : Nat, n < 512 → s.get R.EVH_SRC_CFG_STATE n ≠ 1) → (∀ k : Nat, k < 2 → s.rd R.MSIX_PBA k = 0) →
      ∃ t, exec (.pcieLinkTrained sp w bme c) s = .next t
      ∧ t.get R.HIF_STAT_LINK_UP = 1 ∧ t.get R.HIF_STAT_SPEED = sp.val + 1 ∧ t.get R.HIF_STAT_WIDTH = 2 ^ w.val
      ∧ t.on R.HIF_STAT_BME = bme ∧ t.hif.msixEn = c.msix ∧ t.hif.msixFMask = c.fmask ∧ t.hif.d3hot = c.d3hot
      ∧ (∀ o : Nat, o < 2 ^ 26 → c.bar0.toNat % 2 ^ 26 = 0 → barFabric t (c.bar0.toNat + o) = some (0x40000000 + o))
      ∧ t = { s with regs := t.regs, hif := { t.hif with spiOut := s.hif.spiOut } } ∧ OnlyRegs s t [R.HIF_STAT.addr 0 0 0])
  ∧ (∀ (sp w : Fin 3) (bme : Bool) (c : PciConfig) (s : State), s.boot.phase = 0 → s.boot.reach = some 0 ∨ s.boot.reach = some 1 →
    exec (.pcieLinkTrained sp w bme c) s = .next s)
  ∧ (∀ (ur : Bool) (s : State) (lim : Nat), hostMemUp s = true → lim = 1000000 * max 1 (min 1000 (s.get R.HIF_CPL_TO_V)) →
    (∀ n : Fin 16, (ur = true ∨ tabGet 0 s.cmd.since n + lim ≤ s.now) → canTake s n = true → chanOps.contains (hmbOp s n) = true → s.on R.HIF_CHT_CTL_EN = true →
      s.on R.HIF_CHT_CTL_LOC = false → hmbCh s n < s.get R.HIF_CHT_N_V → tabGet 0 s.cmd.ring n = 0 →
      (cached s (hmbCh s n) = none → ∃ t, exec (.completionTimeout ur (.command n)) s = .next t
        ∧ Acked s t n 7 0 ∧ t.on (if ur then R.HIF_ERR_CPL_ERR else R.HIF_ERR_CPL_TO) = true
        ∧ t = { s with regs := t.regs, cmd := t.cmd } ∧ OnlyRegs s t [R.HIF_ERR.addr 0 0 0, R.HMB_ACK.addr n 0 0, R.HMB_STAT.addr n 0 0])
      ∧ (∀ b : List Byte, cached s (hmbCh s n) = some b → (chanReq s n).1.contains (chType b) = true → s.on R.HIF_CHT_CTL_CHECK_GEN = true →
        chHeld s (hmbCh s n) = false → ∃ t, exec (.completionTimeout ur (.command n)) s = .next t
        ∧ Acked s t n 7 0 ∧ t.on (if ur then R.HIF_ERR_CPL_ERR else R.HIF_ERR_CPL_TO) = true
        ∧ (chFlag b 2 = true → (t.rd R.ADB_SET).testBit (chDb b) = true))
      ∧ (∀ b : List Byte, cached s (hmbCh s n) = some b → s.on R.HIF_CHT_CTL_CHECK_GEN = false → hmbOp s n = 0x13 →
        exec (.completionTimeout ur (.command n)) s = .next s))
    ∧ (∀ q : Fin 64, s.cmd.streams = [] → (ur = true ∨ (s.dq q).asked + lim ≤ s.now) → (s.dq q).phase = 1 →
        (∀ k : Nat, k < 64 → (s.dq k).held = false ∧ (s.dq k).wait = false) → s.on R.DQ_CTL_RING_SP q = true → ∃ t, exec (.completionTimeout ur (.queue q)) s = .next t
        ∧ t.get R.DQ_STAT_STATE q = 3 ∧ t.get R.DQ_STAT_IDLE q = 1 ∧ t.get R.DQ_STAT_FETCH_ERR q = 1 ∧ t.dq q = { s.dq q with phase := 0 }
        ∧ t.on (if ur then R.HIF_ERR_CPL_ERR else R.HIF_ERR_CPL_TO) = true
        ∧ t = { s with regs := t.regs, dma := t.dma } ∧ OnlyRegs s t [R.HIF_ERR.addr 0 0 0, R.DQ_STAT.addr q 0 0]))
  ∧ (∀ s : State, s.on R.HIF_STAT_IF = true →
    (∀ (a w : Word) (u : State), a.toNat % 4 = 0 → a.toNat + 4 < 2 ^ 32 → fwSpan s .host true a.toNat 4 = true → inBlocks a.toNat = false → inImages a.toNat = false →
      assigned s a.toNat = true → memSpan { s with bus := {} } a.toNat 4 = some u →
      (∃ t, exec (.qspiWrite a [w]) s = .next t ∧ t.mword .fabric a.toNat = w.toNat ∧ OnlyBytes s t .fabric a.toNat 4
        ∧ t.hif.spiOut = [0] ∧ t.get R.HIF_SPI_LAST_STATUS = 0 ∧ t.get R.HIF_SPI_LAST_INDEX = 0
        ∧ t = { u with regs := t.regs, mem := t.mem, hif := { s.hif with spiOut := [0] } } ∧ OnlyRegs u t [R.HIF_SPI_LAST.addr 0 0 0])
      ∧ (∃ t, exec (.qspiAbort (.write a [w])) s = .next t ∧ t.mword .fabric a.toNat = w.toNat ∧ OnlyBytes s t .fabric a.toNat 4
        ∧ t.get R.HIF_ERR_SPI_ABORT = 1 ∧ t.hif.spiOut = [])
      ∧ (fwPass s .host true (a.toNat + 4) = false → (∀ c : Nat, fwPass s .host true c = fwPass u .host true c) → ∀ w2 : Word,
        ∃ t, exec (.qspiWrite a [w, w2]) s = .next t ∧ t.mword .fabric a.toNat = w.toNat ∧ OnlyBytes s t .fabric a.toNat 4 ∧ t.hif.spiOut = [3]
        ∧ t.get R.HIF_SPI_LAST_STATUS = 3 ∧ t.get R.HIF_SPI_LAST_INDEX = 1 ∧ t.on R.SEC_FW_STAT_DENY = true))
    ∧ (∀ (a : Word) (u : State), a.toNat % 4 = 0 → fwSpan s .host false a.toNat 4 = true → inBlocks a.toNat = false → assigned s a.toNat = true →
      memSpan s a.toNat 4 = some u → ∃ t, exec (.qspiRead a 0) s = .next t
        ∧ t.hif.spiOut = [0, s.mrd .fabric (a.toNat + 3), s.mrd .fabric (a.toNat + 2), s.mrd .fabric (a.toNat + 1), s.mrd .fabric a.toNat]
        ∧ t.get R.HIF_SPI_LAST_STATUS = 0 ∧ t.mem = s.mem)
    ∧ (∀ (a : Word) (c : Instr), a.toNat % 4 ≠ 0 → (∃ w ws, c = .qspiWrite a (w :: ws)) ∨ (∃ k, c = .qspiRead a k) → ∃ t, exec c s = .next t
        ∧ t.hif.spiOut = [2] ∧ t.get R.HIF_SPI_LAST_STATUS = 2 ∧ t.get R.HIF_SPI_LAST_INDEX = 0 ∧ t.get R.HIF_ERR_ADDR_ERR = 1
        ∧ t = { s with regs := t.regs, hif := t.hif } ∧ OnlyRegs s t [R.HIF_SPI_LAST.addr 0 0 0, R.HIF_ERR.addr 0 0 0])
    ∧ (∀ (n : Fin 16) (a w : Word), a.toNat = R.HMB_DATA.addr n 0 0 → fwSpan s .host true a.toNat 4 = true → s.on R.HMB_STAT_FULL n = true →
      ∃ t, exec (.qspiWrite a [w]) s = .next t ∧ t.hif.spiOut = [1] ∧ t.get R.HIF_SPI_LAST_STATUS = 1 ∧ t.get R.HMB_STAT_REJECTED n = 1
        ∧ t.rd R.HMB_DATA n = s.rd R.HMB_DATA n)
    ∧ (∃ t, exec .qspiStatus s = .next t ∧ t.hif.spiOut = [BitVec.ofNat 8 (s.get R.HIF_SPI_LAST_STATUS), BitVec.ofNat 8 (s.get R.HIF_SPI_LAST_INDEX)]
        ∧ t = { s with hif := t.hif })
    ∧ (∀ op : BitVec 8, op ≠ 2 → op ≠ 11 → op ≠ 5 → ∃ t, exec (.badFrame op) s = .next t ∧ t.hif.spiOut = [4] ∧ t.get R.HIF_SPI_LAST_STATUS = 4
        ∧ t.get R.HIF_SPI_LAST_INDEX = 0 ∧ t = { s with regs := t.regs, hif := t.hif } ∧ OnlyRegs s t [R.HIF_SPI_LAST.addr 0 0 0])
    ∧ (∀ p : SpiPart, p = .short ∨ p = .read → ∃ t, exec (.qspiAbort p) s = .next t ∧ t.get R.HIF_ERR_SPI_ABORT = 1 ∧ t.hif.spiOut = []
        ∧ t = { s with regs := t.regs, hif := t.hif } ∧ OnlyRegs s t [R.HIF_ERR.addr 0 0 0]))
  ∧ (∀ (r : Requester) (n : Fin 16) (v : Word) (s : State),
    (writes s r (R.HMB_DATA.addr n 0 0) = true → hostSide r = true →
      (s.on R.HMB_STAT_FULL n = false → ∃ t, exec (.hostMailboxWrite r n v) s = .next t ∧ t.rd R.HMB_DATA n = v.toNat ∧ t.get R.HMB_STAT_FULL n = 1
        ∧ t.get R.HMB_STAT_ACKV n = 0 ∧ t.get R.HMB_STAT_SEQ n = (s.get R.HMB_STAT_SEQ n + 1) % 256
        ∧ t = { s with bus := {}, regs := t.regs, cmd := { s.cmd with order := s.cmd.order ++ [n.val], since := tabSet 0 s.cmd.since n s.now } }
        ∧ OnlyRegs s t [R.HMB_DATA.addr n 0 0, R.HMB_STAT.addr n 0 0])
      ∧ (s.on R.HMB_STAT_FULL n = true → r = .host → ∃ t, exec (.hostMailboxWrite r n v) s = .next t ∧ t.get R.HMB_STAT_REJECTED n = 1
        ∧ t.rd R.HMB_REJ n = min (s.rd R.HMB_REJ n + 1) (2 ^ 32 - 1) ∧ t = { s with bus := {}, regs := t.regs }
        ∧ OnlyRegs s t [R.HMB_STAT.addr n 0 0, R.HMB_REJ.addr n 0 0])
      ∧ (s.on R.HMB_STAT_FULL n = true → r ≠ .host → ∃ t, exec (.hostMailboxWrite r n v) s = .next t ∧ t.bus.err = true ∧ t = { s with bus := t.bus }))
    ∧ (writes s r (R.HMB_ACK.addr n 0 0) = true → isAtl r = true → ∃ t, exec (.hostMailboxAck r n v) s = .next t ∧ t.rd R.HMB_ACK n = v.toNat
        ∧ t.get R.HMB_STAT_FULL n = 0 ∧ t.get R.HMB_STAT_ACKV n = 1 ∧ t.job n = .none ∧ n.val ∉ t.cmd.order
        ∧ t = { s with bus := {}, regs := t.regs, cmd := t.cmd } ∧ OnlyRegs s t [R.HMB_ACK.addr n 0 0, R.HMB_STAT.addr n 0 0])
    ∧ (writes s r (R.AMB_DATA.addr n 0 0) = true → isAtl r = true →
      (s.on R.AMB_STAT_FULL n = false → ∃ t, exec (.atelierMailboxWrite r n v) s = .next t ∧ t.rd R.AMB_DATA n = v.toNat ∧ t.get R.AMB_STAT_FULL n = 1
        ∧ t.get R.AMB_STAT_ACKV n = 0 ∧ t.get R.AMB_STAT_SEQ n = (s.get R.AMB_STAT_SEQ n + 1) % 256
        ∧ t = { s with bus := {}, regs := t.regs } ∧ OnlyRegs s t [R.AMB_DATA.addr n 0 0, R.AMB_STAT.addr n 0 0])
      ∧ (s.on R.AMB_STAT_FULL n = true → ∃ t, exec (.atelierMailboxWrite r n v) s = .next t ∧ t.bus.err = true ∧ t = { s with bus := t.bus }))
    ∧ (writes s r (R.AMB_ACK.addr n 0 0) = true → isHost r = true → ∃ t, exec (.atelierMailboxAck r n v) s = .next t ∧ t.rd R.AMB_ACK n = v.toNat
        ∧ t.get R.AMB_STAT_FULL n = 0 ∧ t.get R.AMB_STAT_ACKV n = 1 ∧ t = { s with bus := {}, regs := t.regs }
        ∧ OnlyRegs s t [R.AMB_ACK.addr n 0 0, R.AMB_STAT.addr n 0 0]))
  ∧ (∀ (r : Requester) (v : Word) (s : State) (c : Instr) (set clr : Reg) (cl may : Bool),
    (c = .hdbSet r v ∧ set = R.HDB_SET ∧ clr = R.HDB_CLR ∧ cl = false ∧ may = isHost r)
      ∨ (c = .hdbClr r v ∧ set = R.HDB_SET ∧ clr = R.HDB_CLR ∧ cl = true ∧ may = isAtl r)
      ∨ (c = .adbSet r v ∧ set = R.ADB_SET ∧ clr = R.ADB_CLR ∧ cl = false ∧ may = isAtl r)
      ∨ (c = .adbClr r v ∧ set = R.ADB_SET ∧ clr = R.ADB_CLR ∧ cl = true ∧ may = isHost r) →
    writes s r ((if cl then clr else set).addr 0 0 0) = true →
    (may = false → exec c s = .next { s with bus := {} })
    ∧ (may = true → ∃ t, exec c s = .next t ∧ t.rd clr = t.rd set
        ∧ (∀ b : Nat, b < 32 → (t.rd set).testBit b = (if cl then (s.rd set).testBit b && !v.getLsbD b else (s.rd set).testBit b || v.getLsbD b))
        ∧ t = { s with bus := {}, regs := t.regs } ∧ OnlyRegs s t [set.addr 0 0 0, clr.addr 0 0 0]))

/-- An event of an Idle source makes it Pending. Masked, it is not presented; unmasked, its bit is presented to its target: at once where the target is awake, waking a sleeping target that has WAKE_EN, and else not, the linger time running; a presentation to the host over PCIe with MSI-X on sends the vector's message, or sets its pending bit while it is masked. An event of an Active edge source makes it Active and Pending; of a Pending one it changes nothing; a level source whose level is not asserted signals nothing. EVH_SWSET signals source 448 + value. A claim of a source Pending on the target makes it Active with OK; any other answers NOT_PENDING and changes nothing. The claimant's end of service makes an Active source Idle, and Pending again if it was Active and Pending or its level stands; another's sets EOI_ERR. Unmasking presents the Pending sources of the word at once, and Active level sources to their claimants. A read of the fence answers 0. A Pending source moves to a new TARGET, without a message while it is masked. After the linger time a source left with a sleeping target moves to the fallback, once, which is counted. The requesters of a register are its block's; others' writes are ignored. (R304, R363, R364, R365, R367, R368, R369, R370, R371) -/
def Obligations.EventHub : Prop :=
  (∀ (n : Fin 512) (s : State) (g : Nat), g = s.get R.EVH_SRC_CFG_TARGET n →
    (isLevelSource n = true → levelNow s n = false → exec (.eventSignal n) s = .next s)
    ∧ (sourceExists n = true → (isLevelSource n = true → levelNow s n = true) → s.get R.EVH_SRC_CFG_STATE n = 0 →
      (evMasked s n = true → ∃ t, exec (.eventSignal n) s = .next t ∧ t.get R.EVH_SRC_CFG_STATE n = 1 ∧ t.on R.EVH_SRC_CFG_FB n = false
        ∧ t = { s with regs := t.regs } ∧ OnlyRegs s t [R.EVH_SRC_CFG.addr n 0 0])
      ∧ (evMasked s n = false → asleep s g = false ∨ s.on R.EVH_T_CTL_WAKE_EN g = true → g ≠ 6 ∨ s.on R.HIF_STAT_IF = true ∨ s.hif.msixEn = false →
        ∃ t, exec (.eventSignal n) s = .next t ∧ t.get R.EVH_SRC_CFG_STATE n = 1
        ∧ tabGet 0 t.evh.presented n = g + 1 ∧ tabGet 0 t.evh.linger n = 0 ∧ (asleep s g = true → t.on R.EVH_T_STAT_SLEEP g = false)
        ∧ t = { s with regs := t.regs, evh := t.evh } ∧ t.evh.claimant = s.evh.claimant
        ∧ OnlyRegs s t [R.EVH_SRC_CFG.addr n 0 0, R.EVH_T_STAT.addr g 0 0])
      ∧ (evMasked s n = false → asleep s g = false → g = 6 → s.on R.HIF_STAT_IF = false → s.hif.msixEn = true → s.hif.msixFMask = false →
        ∃ (t : State) (vec : Nat), exec (.eventSignal n) s = .next t ∧ vec = s.get R.EVH_SRC_CFG_VEC n ∧ tabGet 0 t.evh.presented n = 7
        ∧ (s.on R.MSIX_CTL_MASK vec = true → (t.rd R.MSIX_PBA (vec / 32)).testBit (vec % 32) = true ∧ t.mem = s.mem)
        ∧ (s.on R.MSIX_CTL_MASK vec = false → t.mword .host (s.get64 R.MSIX_ADDR_LO R.MSIX_ADDR_HI vec) = s.rd R.MSIX_DATA vec
            ∧ OnlyBytes s t .host (s.get64 R.MSIX_ADDR_LO R.MSIX_ADDR_HI vec) 4))
      ∧ (evMasked s n = false → asleep s g = true → s.on R.EVH_T_CTL_WAKE_EN g = false → ∃ t, exec (.eventSignal n) s = .next t
        ∧ t.get R.EVH_SRC_CFG_STATE n = 1 ∧ tabGet 0 t.evh.linger n = s.now + s.get R.EVH_T_CTL_LINGER g * 1000 + 1
        ∧ t.evh.presented = s.evh.presented ∧ t = { s with regs := t.regs, evh := t.evh } ∧ OnlyRegs s t [R.EVH_SRC_CFG.addr n 0 0]))
    ∧ (sourceExists n = true → isLevelSource n = false → s.get R.EVH_SRC_CFG_STATE n = 2 → ∃ t, exec (.eventSignal n) s = .next t
      ∧ t.get R.EVH_SRC_CFG_STATE n = 3 ∧ t = { s with regs := t.regs } ∧ OnlyRegs s t [R.EVH_SRC_CFG.addr n 0 0])
    ∧ (s.get R.EVH_SRC_CFG_STATE n = 1 ∨ s.get R.EVH_SRC_CFG_STATE n = 3 → exec (.eventSignal n) s = .next s))
  ∧ (∀ (r : Requester) (v : BitVec 6) (s : State), writes s r (R.EVH_SWSET.addr 0 0 0) = true →
    ∃ t, exec (.softwareEvent r v) s = .next t ∧ exec (.eventSignal (Fin.ofNat 512 (448 + v.toNat))) { s with bus := {} } = .next t)
  ∧ (∀ (r : Requester) (g : Fin 8) (n : Fin 512) (s : State), writes s r (R.EVH_T_CLAIM.addr g 0 0) = true →
    (mayTarget r g = false → exec (.eventClaim r g n) s = .next { s with bus := {} })
    ∧ (mayTarget r g = true → ∃ t, exec (.eventClaim r g n) s = .next t ∧ t.get R.EVH_T_CLAIM_SRC g = n
      ∧ (sourceExists n = true → s.get R.EVH_SRC_CFG_STATE n = 1 → pendingOn s n = g.val → t.get R.EVH_T_CLAIM_OK g = 1 ∧ t.get R.EVH_T_CLAIM_NOT_PENDING g = 0
          ∧ t.get R.EVH_SRC_CFG_STATE n = 2 ∧ tabGet 0 t.evh.claimant n = g + 1
          ∧ tabGet 0 t.evh.presented n = (if isLevelSource n then tabGet 0 s.evh.presented n else 0)
          ∧ t = { s with bus := {}, regs := t.regs, evh := t.evh })
      ∧ (s.get R.EVH_SRC_CFG_STATE n ≠ 1 ∨ pendingOn s n ≠ g.val → t.get R.EVH_T_CLAIM_OK g = 0 ∧ t.get R.EVH_T_CLAIM_NOT_PENDING g = 1
          ∧ t = { s with bus := {}, regs := t.regs } ∧ OnlyRegs s t [R.EVH_T_CLAIM.addr g 0 0])
      ∧ OnlyRegs s t [R.EVH_T_CLAIM.addr g 0 0, R.EVH_SRC_CFG.addr n 0 0]))
  ∧ (∀ (r : Requester) (g : Fin 8) (n : Fin 512) (s : State), writes s r (R.EVH_T_EOI.addr g 0 0) = true →
    (mayTarget r g = false → exec (.eventEoi r g n) s = .next { s with bus := {} })
    ∧ (mayTarget r g = true → tabGet 0 s.evh.claimant n = g + 1 → 2 ≤ s.get R.EVH_SRC_CFG_STATE n → evMasked s n = true →
      ∃ t, exec (.eventEoi r g n) s = .next t ∧ tabGet 0 t.evh.claimant n = 0 ∧ tabGet 0 t.evh.presented n = 0
        ∧ t.get R.EVH_SRC_CFG_STATE n = (if s.get R.EVH_SRC_CFG_STATE n = 3 ∨ (isLevelSource n = true ∧ levelNow s n = true) then 1 else 0)
        ∧ t = { s with bus := {}, regs := t.regs, evh := t.evh } ∧ OnlyRegs s t [R.EVH_SRC_CFG.addr n 0 0])
    ∧ (mayTarget r g = true → tabGet 0 s.evh.claimant n = g + 1 → s.get R.EVH_SRC_CFG_STATE n = 2 → isLevelSource n = false →
      ∃ t, exec (.eventEoi r g n) s = .next t ∧ tabGet 0 t.evh.claimant n = 0 ∧ tabGet 0 t.evh.presented n = 0 ∧ t.get R.EVH_SRC_CFG_STATE n = 0)
    ∧ (mayTarget r g = true → tabGet 0 s.evh.claimant n ≠ g + 1 ∨ s.get R.EVH_SRC_CFG_STATE n < 2 → ∃ t, exec (.eventEoi r g n) s = .next t
        ∧ t.get R.EVH_T_STAT_EOI_ERR g = 1 ∧ t = { s with bus := {}, regs := t.regs } ∧ OnlyRegs s t [R.EVH_T_STAT.addr g 0 0]))
  ∧ (∀ (r : Requester) (w : Fin 16) (v : Word) (s : State), writes s r (R.EVH_MASK.addr w 0 0) = true →
    (isAtl r = false → isArm r = false → exec (.eventMask r w v) s = .next { s with bus := {} })
    ∧ (isAtl r = true ∨ isArm r = true → ∃ t, exec (.eventMask r w v) s = .next t ∧ t.rd R.EVH_MASK w = v.toNat
      ∧ (∀ b : Nat, b < 32 → evMasked s (32 * w + b) = true → v.getLsbD b = false → s.get R.EVH_SRC_CFG_STATE (32 * w + b) = 1 →
          tabGet 0 s.evh.presented (32 * w + b) = 0 → asleep s (pendingOn s (32 * w + b)) = false →
          tabGet 0 t.evh.presented (32 * w + b) = pendingOn s (32 * w + b) + 1)
      ∧ (∀ b : Nat, b < 32 → evMasked s (32 * w + b) = true → v.getLsbD b = false → s.get R.EVH_SRC_CFG_STATE (32 * w + b) = 2 → isLevelSource (32 * w + b) = true →
          tabGet 0 s.evh.presented (32 * w + b) = 0 → tabGet 0 t.evh.presented (32 * w + b) = tabGet 0 s.evh.claimant (32 * w + b))
      ∧ (∀ m : Nat, (m < 32 * w ∨ 32 * w + 32 ≤ m ∨ (s.get R.EVH_SRC_CFG_STATE m ≠ 1 ∧ (s.get R.EVH_SRC_CFG_STATE m ≠ 2 ∨ isLevelSource m = false)) ∨ evMasked s m = false
          ∨ v.getLsbD (m - 32 * w) = true) →
          tabGet 0 t.evh.presented m = tabGet 0 s.evh.presented m)
      ∧ t = { s with bus := {}, regs := t.regs, mem := t.mem, evh := t.evh } ∧ t.evh.claimant = s.evh.claimant
      ∧ ∀ m : Nat, m < 512 → t.rd R.EVH_SRC_CFG m = s.rd R.EVH_SRC_CFG m))
  ∧ (∀ (r : Requester) (s : State), reads s r (R.EVH_MASK_FENCE.addr 0 0 0) = true → ∃ t, exec (.maskFence r) s = .next t ∧ t.bus.rdata = 0
      ∧ t.bus.err = false ∧ t = { s with bus := t.bus })
  ∧ (∀ (r : Requester) (n : Fin 512) (v : Word) (s : State) (g : Nat), writes s r (R.EVH_SRC_CFG.addr n 0 0) = true → g = v.toNat % 8 →
    (isAtl r = false → isArm r = false → exec (.eventRetarget r n v) s = .next { s with bus := {} })
    ∧ (isAtl r = true ∨ isArm r = true →
      (s.get R.EVH_SRC_CFG_STATE n ≠ 1 ∨ s.get R.EVH_SRC_CFG_TARGET n = g → ∃ t, exec (.eventRetarget r n v) s = .next t
        ∧ t.get R.EVH_SRC_CFG_TARGET n = g ∧ t.get R.EVH_SRC_CFG_VEC n = v.toNat / 16 % 64 ∧ t.get R.EVH_SRC_CFG_STATE n = s.get R.EVH_SRC_CFG_STATE n
        ∧ t = { s with bus := {}, regs := t.regs } ∧ OnlyRegs s t [R.EVH_SRC_CFG.addr n 0 0])
      ∧ (s.get R.EVH_SRC_CFG_STATE n = 1 → s.get R.EVH_SRC_CFG_TARGET n ≠ g → asleep s g = false → g ≠ 6 → evMasked s n = false →
        ∃ t, exec (.eventRetarget r n v) s = .next t ∧ t.get R.EVH_SRC_CFG_TARGET n = g ∧ t.get R.EVH_SRC_CFG_STATE n = 1 ∧ pendingOn t n = g
        ∧ tabGet 0 t.evh.presented n = g + 1 ∧ (∀ m : Nat, m ≠ n → tabGet 0 t.evh.presented m = tabGet 0 s.evh.presented m)
        ∧ t = { s with bus := {}, regs := t.regs, evh := t.evh } ∧ OnlyRegs s t [R.EVH_SRC_CFG.addr n 0 0])
      ∧ (s.get R.EVH_SRC_CFG_STATE n = 1 → s.get R.EVH_SRC_CFG_TARGET n ≠ g → tabGet 0 s.evh.presented n ≠ 0 → evMasked s n = true →
        ∃ t, exec (.eventRetarget r n v) s = .next t ∧ tabGet 0 t.evh.presented n = g + 1 ∧ pendingOn t n = g ∧ t.mem = s.mem)))
  ∧ (∀ (n : Fin 512) (s : State) (g f : Nat), g = s.get R.EVH_SRC_CFG_TARGET n → f = s.get R.EVH_T_CTL_FALLBACK g →
    (tabGet 0 s.evh.linger n = 0 ∨ s.now + 1 < tabGet 0 s.evh.linger n ∨ asleep s g = false ∨ s.on R.EVH_T_CTL_FB_EN g = false
        ∨ s.on R.EVH_SRC_CFG_FB n = true →
      exec (.fallbackMove n) s = .next s)
    ∧ (tabGet 0 s.evh.linger n ≠ 0 → tabGet 0 s.evh.linger n ≤ s.now + 1 → s.get R.EVH_SRC_CFG_STATE n = 1 → s.on R.EVH_SRC_CFG_FB n = false → asleep s g = true →
      s.on R.EVH_T_CTL_FB_EN g = true → f ≠ g → ∃ t, exec (.fallbackMove n) s = .next t ∧ t.on R.EVH_SRC_CFG_FB n = true
        ∧ t.rd R.EVH_T_FBCNT g = min (s.rd R.EVH_T_FBCNT g + 1) (2 ^ 32 - 1) ∧ tabGet 0 t.evh.linger n = 0 ∧ pendingOn t n = f
        ∧ (evMasked s n = false → asleep s f = false → tabGet 0 t.evh.presented n = f + 1)
        ∧ (evMasked s n = true → t.evh.presented = s.evh.presented) ∧ t.evh.claimant = s.evh.claimant))

/-- An ECC error in a bank's word counts under CE or UE with its event; a two-bit one leaves bank and word in MEM_UE_ADDR. The scrubber takes the next word of its ON bank, skips a window under test, and from the last word goes to the next ON bank, counting a pass as it comes round. A test window opens with UNDER_TEST on a bank that is ON or in RETENTION, and closes with the next WINDOW, the bank as it was; a failed one sets LAST_FAIL and TEST_FAIL, counts, and makes the bank WORN. A request for a power state by Atelier or Patina of a bank that may leave ON takes effect: RETENTION, OFF with the contents lost, or the way to ON; of another bank or a reserved state it sets PWR_ERR only; of the bank that a substitution fills, to leave ON, it is ignored; during a test window it waits for the restore (the model's reading of R381). MEM_REMAP_CTL.GO brings the best spare ON for the slot, and the end of the copy maps it, with the old bank OFF and RETIRED and SUB_DONE set, both after the restore where a window of the bank is under test; in slot 87 a wipe counts. At MEMORY_READY the mapping is the life record's, or REC_NEW is set, the spares are in RETENTION, and the boot goes on to its image. (R68, R374, R376, R377, R378, R379, R380, R381, R382, R397, R427, R429) -/
def Obligations.OnChipMemory : Prop :=
  (∀ (b : Fin 96) (w : BitVec 15) (s : State),
    exec (.bankEccError b w .clean) s = .next s
    ∧ (∃ t, exec (.bankEccError b w .single) s = .next t ∧ t.rd R.MEM_BK_CE b = min (s.rd R.MEM_BK_CE b + 1) (2 ^ 32 - 1)
      ∧ t.get R.MEM_EVT_CE = 1 ∧ t = { s with regs := t.regs } ∧ OnlyRegs s t [R.MEM_BK_CE.addr b 0 0, R.MEM_EVT.addr 0 0 0])
    ∧ (∃ t, exec (.bankEccError b w .double) s = .next t ∧ t.rd R.MEM_BK_UE b = min (s.rd R.MEM_BK_UE b + 1) (2 ^ 32 - 1)
      ∧ t.get R.MEM_UE_ADDR_V % 128 = b ∧ t.get R.MEM_UE_ADDR_V / 256 = w.toNat ∧ t.get R.MEM_EVT_UE = 1
      ∧ t = { s with regs := t.regs } ∧ OnlyRegs s t [R.MEM_BK_UE.addr b 0 0, R.MEM_UE_ADDR.addr 0 0 0, R.MEM_EVT.addr 0 0 0]))
  ∧ (∀ (err : EccErr) (s : State) (b w : Nat), b = s.ocm.scrub → w = s.get R.MEM_BK_SCRUB_V b →
    (s.on R.MEM_CTL_SCRUB_EN = false → exec (.scrubWord err) s = .next s)
    ∧ (s.on R.MEM_CTL_SCRUB_EN = true → b < 96 → s.get R.MEM_BK_STAT_STATE b = 0 →
      (s.ocm.test = none → w < 32767 → ∃ t, exec (.scrubWord err) s = .next t ∧ t.get R.MEM_BK_SCRUB_V b = w + 1
        ∧ (err = .single → t.rd R.MEM_BK_CE b = min (s.rd R.MEM_BK_CE b + 1) (2 ^ 32 - 1))
        ∧ (err = .double → t.get R.MEM_UE_ADDR_V = b + 256 * w) ∧ (err = .clean → OnlyRegs s t [R.MEM_BK_SCRUB.addr b 0 0])
        ∧ t = { s with regs := t.regs })
      ∧ (∀ st : Nat, s.ocm.test = some (b, w / 64, st) → w / 64 < 511 → ∃ t, exec (.scrubWord err) s = .next t
        ∧ t.get R.MEM_BK_SCRUB_V b = (w / 64 + 1) * 64 ∧ t = { s with regs := t.regs } ∧ OnlyRegs s t [R.MEM_BK_SCRUB.addr b 0 0])
      ∧ (∀ c : Nat, s.ocm.test = none → w = 32767 → err = .clean → c < 96 → s.get R.MEM_BK_STAT_STATE c = 0 →
        (∀ k : Nat, k < 96 → (b < k ∧ k < c) ∨ (c ≤ b ∧ (b < k ∨ k < c)) → s.get R.MEM_BK_STAT_STATE k ≠ 0) →
        ∃ t, exec (.scrubWord err) s = .next t ∧ t.get R.MEM_BK_SCRUB_V b = 0 ∧ t.ocm.scrub = c
        ∧ t.rd R.MEM_SCRUB_PASS = (if c ≤ b then (s.rd R.MEM_SCRUB_PASS + 1) % 2 ^ 32 else s.rd R.MEM_SCRUB_PASS)
        ∧ t = { s with regs := t.regs, ocm := { s.ocm with scrub := c } })))
  ∧ (∀ (b : Fin 96) (s : State) (st : Nat), st = s.get R.MEM_BK_STAT_STATE b →
    (s.on R.MEM_CTL_TEST_EN = true → s.ocm.test = none → st ≤ 1 → s.on R.MEM_BK_STAT_TRANS b = false → ∃ t, exec (.testWindow b) s = .next t
      ∧ t.get R.MEM_BK_STAT_UNDER_TEST b = 1 ∧ t.get R.MEM_BK_STAT_STATE b = 0
      ∧ t = { s with regs := t.regs, ocm := { s.ocm with test := some (b.val, s.get R.MEM_BK_TEST_WINDOW b, st) } } ∧ OnlyRegs s t [R.MEM_BK_STAT.addr b 0 0])
    ∧ (s.on R.MEM_CTL_TEST_EN = false ∨ s.ocm.test ≠ none ∨ st = 2 → exec (.testWindow b) s = .next s))
  ∧ (∀ (fail : Bool) (s : State), (s.ocm.test = none → exec (.testWindowRestore fail) s = .next s)
    ∧ (∀ b w st : Nat, s.ocm.test = some (b, w, st) → b < 96 → st ≤ 1 → ∃ t, exec (.testWindowRestore fail) s = .next t
      ∧ t.get R.MEM_BK_STAT_UNDER_TEST b = 0 ∧ t.get R.MEM_BK_TEST_WINDOW b = (w + 1) % 512 ∧ t.ocm.test = none
      ∧ (fail = false → tabGet 0 s.ocm.req b = 0 → t.get R.MEM_BK_STAT_STATE b = st ∧ t.ocm.windows = s.ocm.windows + 1
          ∧ t = { s with regs := t.regs, ocm := t.ocm } ∧ OnlyRegs s t [R.MEM_BK_STAT.addr b 0 0, R.MEM_BK_TEST.addr b 0 0])
      ∧ (fail = false → tabGet 0 s.ocm.req b = 2 → s.on R.MEM_BK_STAT_REMAP_SRC b = false → s.get R.MEM_REMAP_STAT_STATE ≠ 1 →
          t.get R.MEM_BK_STAT_STATE b = 1 ∧ t.get R.MEM_BK_PWR_STATE b = 1 ∧ tabGet 0 t.ocm.req b = 0)
      ∧ (fail = true → tabGet 0 s.ocm.req b = 0 → s.on R.PAT_CTL_EN = false → s.on R.PAT_BK_SPARE b = false → s.get R.PAT_BK_STATE b < 2 →
          t.get R.MEM_BK_TEST_LAST_FAIL b = 1 ∧ t.get R.MEM_BK_TEST_FAILS b = min (s.get R.MEM_BK_TEST_FAILS b + 1) 255 ∧ t.get R.MEM_EVT_TEST_FAIL = 1
          ∧ t.get R.PAT_BK_STATE b = 2 ∧ t.get R.PAT_EVT_WORN = 1 ∧ t = { s with regs := t.regs, ocm := t.ocm })))
  ∧ (∀ (r : Requester) (b : Fin 96) (v : Word) (s : State) (st : Nat), writes s r (R.MEM_BK_PWR.addr b 0 0) = true → st = v.toNat % 4 →
    (isAtl r = false → isPat r = false → exec (.bankPowerRequest r b v) s = .next { s with bus := {} })
    ∧ (isAtl r = true ∨ isPat r = true →
      (0 < st → st < 3 → s.get R.MEM_REMAP_STAT_STATE = 1 → s.ocm.spare = b.val → exec (.bankPowerRequest r b v) s = .next { s with bus := {} })
      ∧ (st = 3 ∨ bankMay s r b = false → (st < 3 → s.get R.MEM_REMAP_STAT_STATE ≠ 1 ∨ s.ocm.spare ≠ b.val) → ∃ t, exec (.bankPowerRequest r b v) s = .next t ∧ t.get R.MEM_EVT_PWR_ERR = 1
        ∧ t = { s with bus := {}, regs := t.regs } ∧ OnlyRegs s t [R.MEM_EVT.addr 0 0 0])
      ∧ (st < 3 → bankMay s r b = true → s.on R.MEM_BK_STAT_UNDER_TEST b = true → s.get R.MEM_REMAP_STAT_STATE ≠ 1 → ∃ t, exec (.bankPowerRequest r b v) s = .next t
        ∧ t.get R.MEM_EVT_PWR_ERR = 1 ∧ t = { s with bus := {}, regs := t.regs, ocm := { s.ocm with req := tabSet 0 s.ocm.req b (st + 1) } }
        ∧ OnlyRegs s t [R.MEM_EVT.addr 0 0 0])
      ∧ (st < 3 → bankMay s r b = true → s.on R.MEM_BK_STAT_UNDER_TEST b = false → s.on R.MEM_BK_STAT_REMAP_SRC b = false →
        s.get R.MEM_REMAP_STAT_STATE ≠ 1 → ∃ t, exec (.bankPowerRequest r b v) s = .next t ∧ t.get R.MEM_BK_PWR_STATE b = st
        ∧ (0 < st → t.get R.MEM_BK_STAT_STATE b = st ∧ t.on R.MEM_BK_STAT_TRANS b = false)
        ∧ (st = 0 → t.get R.MEM_BK_STAT_STATE b = s.get R.MEM_BK_STAT_STATE b ∧ (s.get R.MEM_BK_STAT_STATE b ≠ 0 → t.on R.MEM_BK_STAT_TRANS b = true))
        ∧ (st < 2 → t.mem = s.mem)
        ∧ (∀ k x : Nat, st = 2 → s.get R.MEM_BK_STAT_STATE b ≠ 2 → bankSlot s b = some k → slotBase k = some x →
            (∀ a : Nat, x ≤ a → a < x + 0x40000 → t.mrd .fabric a = 0) ∧ OnlyBytes s t .fabric x 0x40000)
        ∧ t = { s with bus := {}, regs := t.regs, mem := t.mem } ∧ OnlyRegs s t [R.MEM_BK_PWR.addr b 0 0, R.MEM_BK_STAT.addr b 0 0])))
  ∧ (∀ (b : Fin 96) (s : State), (s.on R.MEM_BK_STAT_TRANS b = false → exec (.bankPowerOn b) s = .next s)
    ∧ (s.on R.MEM_BK_STAT_TRANS b = true → ∃ t, exec (.bankPowerOn b) s = .next t ∧ t.get R.MEM_BK_STAT_STATE b = 0
      ∧ t.on R.MEM_BK_STAT_TRANS b = false ∧ t = { s with regs := t.regs } ∧ OnlyRegs s t [R.MEM_BK_STAT.addr b 0 0]))
  ∧ (∀ (r : Requester) (v : Word) (s : State) (k m o : Nat), writes s r (R.MEM_REMAP_CTL.addr 0 0 0) = true → k = v.toNat % 128 → o = s.get R.MEM_MAP_PHYS k →
    (isPat r = false → isArm r = false → exec (.bankRemapGo r v) s = .next { s with bus := {} })
    ∧ (isPat r = true ∨ isArm r = true →
      (s.get R.MEM_REMAP_STAT_STATE = 1 → exec (.bankRemapGo r v) s = .next { s with bus := {} })
      ∧ (s.get R.MEM_REMAP_STAT_STATE ≠ 1 → v.getLsbD 8 = false ∨ 88 ≤ k ∨ spareBank s = none → ∃ t, exec (.bankRemapGo r v) s = .next t
        ∧ t.get R.MEM_REMAP_CTL_SLOT = k ∧ t = { s with bus := {}, regs := t.regs } ∧ OnlyRegs s t [R.MEM_REMAP_CTL.addr 0 0 0])
      ∧ (s.get R.MEM_REMAP_STAT_STATE ≠ 1 → v.getLsbD 8 = true → k < 88 → spareBank s = some m → o < 96 → o ≠ m → ∃ t, exec (.bankRemapGo r v) s = .next t
        ∧ t.get R.MEM_REMAP_CTL_SLOT = k ∧ t.get R.MEM_REMAP_STAT_STATE = 1 ∧ t.get R.MEM_REMAP_STAT_PROGRESS = 0
        ∧ (s.on R.MEM_BK_STAT_UNDER_TEST m = false → t.get R.MEM_BK_STAT_STATE m = 0) ∧ t.get R.PAT_BK_SPARE m = 0 ∧ t.get R.MEM_BK_STAT_REMAP_SRC o = 1
        ∧ (0 < s.get R.MEM_SPARES_FREE → t.get R.MEM_SPARES_FREE = s.get R.MEM_SPARES_FREE - 1) ∧ (∀ j : Nat, j < 96 → t.rd R.MEM_MAP j = s.rd R.MEM_MAP j)
        ∧ (∀ w st : Nat, s.ocm.test = some (m, w, st) → t.ocm.test = some (m, w, 0)) ∧ (s.ocm.test = none → t.ocm.test = none)
        ∧ (∀ j : Nat, tabGet 0 t.ocm.req j = if j = m then 0 else tabGet 0 s.ocm.req j)
        ∧ t = { s with bus := {}, regs := t.regs, ocm := { s.ocm with spare := m, patina := false, req := t.ocm.req, test := t.ocm.test } })))
  ∧ (∀ (s : State) (k o : Nat), k = s.get R.MEM_REMAP_CTL_SLOT → o = s.get R.MEM_MAP_PHYS k →
    (s.get R.MEM_REMAP_STAT_STATE ≠ 1 → exec .bankRemapDone s = .next s)
    ∧ (s.get R.MEM_REMAP_STAT_STATE = 1 → k < 96 → o < 96 → s.ocm.spare < 96 → s.ocm.patina = false → ∃ t, exec .bankRemapDone s = .next t
      ∧ t.get R.MEM_MAP_PHYS k = s.ocm.spare ∧ t.get R.MEM_REMAP_STAT_STATE = 2 ∧ t.get R.MEM_EVT_REMAP_DONE = 1
      ∧ (s.on R.MEM_BK_STAT_UNDER_TEST o = false → t.get R.MEM_BK_STAT_STATE o = 2) ∧ t.get R.MEM_BK_PWR_STATE o = 2 ∧ t.get R.MEM_BK_STAT_RETIRED o = 1 ∧ t.get R.MEM_BK_STAT_REMAP_SRC o = 0
      ∧ t.get R.PAT_BK_STATE o = 3 ∧ t.get R.PAT_EVT_SUB_DONE = 1 ∧ t.pat.recDue = true
      ∧ (∀ n : Fin 16, jobBoxes s (.bank o) = [n.val] → s.on R.HIF_STAT_ATL_RESTART = false → Acked s t n 0 0)
      ∧ (∀ j : Nat, j < 96 → j ≠ k → t.rd R.MEM_MAP j = s.rd R.MEM_MAP j)
      ∧ (k = 87 → t.get R.MEM_EVT_WIPE_DONE = 1 ∧ t.get R.MEM_SEC_STAT_WIPES = (s.get R.MEM_SEC_STAT_WIPES + 1) % 2 ^ 16)
      ∧ (∀ w st : Nat, s.ocm.test = some (o, w, st) → t.ocm.test = some (o, w, 2))
      ∧ t = { s with regs := t.regs, pat := { s.pat with recDue := true, look := true }, ocm := t.ocm, cmd := t.cmd }))
  ∧ (∀ s : State, (s.boot.phase ≠ 1 ∨ s.on R.MEM_STAT_READY = true → exec .memoryReady s = .next s)
    ∧ (s.boot.phase = 1 → s.on R.MEM_STAT_READY = false → s.sec.lc = none → s.on R.MEM_SEC_STAT_WIPING = false → lcState s ≠ 4 →
      s.on R.SEC_STAT_TAMPER_HOLD = false → hostBooted s = false → ∃ t, exec .memoryReady s = .next t
      ∧ t.get R.MEM_STAT_READY = 1 ∧ t.get R.FX_STAT_READY = 1 ∧ t.get R.CE_GSTAT_READY = 1 ∧ t.boot = { s.boot with phase := 2, slot := bootSlot s, second := false, fromHost := false }
      ∧ (∀ b : Nat, b < 96 → t.on R.PAT_BK_SPARE b = true → t.get R.MEM_BK_STAT_STATE b = 1 ∧ t.get R.MEM_BK_PWR_STATE b = 1)
      ∧ (lifeRec s = none → t.get R.PAT_STAT_REC_NEW = 1 ∧ ∀ k : Nat, k < 96 → t.rd R.MEM_MAP k = s.rd R.MEM_MAP k)
      ∧ (∀ x : LifeRec, lifeRec s = some x → t.pat.base = x.base ∧ (∀ k : Nat, k < 96 → t.get R.MEM_MAP_PHYS k = tabGet 0 x.bkMap k % 128)
          ∧ ∀ e : Nat, e < 48 → t.rd R.CE_MAP e = tabGet 0 x.ceMap e % 2 ^ 32)))

/-- A supply that stays outside its window, an accepted pulse on PORST_N or SYSRST_N, and the watchdogs, each asserts its reset: a POR leaves every register at POR but those that keep the powered-device front end, RST_CAUSE the source alone, and the volatile memories 0; a SYSTEM reset empties the device's blocks, keeps OTP, flash and the secure bank, and counts; a CORE reset restarts Atelier, clears the channel cache and counts; while a wider sequence runs only RST_CAUSE takes the source. Pulses shorter than the filter rejects do nothing. Once all sources are released the option block and SEC registers are read from OTP, or for a CORE reset the boot turns to the image. The boot slot's image is read to SRAM, verified and measured, with the firewall's regions installed; a bad one is followed by the other slot and then by the wait for a host image, which RST_HBOOT_LEN ends. Atelier's readiness ends the boot: ATL_RESTART clears, the watchdog runs with 100 ms, and the host is told. (R385, R387, R388, R389, R391, R392, R394, R397, R399, R400, R407, R472) -/
def Obligations.ResetAndBoot : Prop :=
  (∀ (c : Instr) (bit reach d rails : Nat) (s : State),
    (∃ r mv, c = .supplyMonitorTrip r mv ∧ bit = 0 ∧ reach = 0 ∧ d = 0 ∧ rails = s.boot.rails ||| 2 ^ r.val
        ∧ (mv.toNat < [660, 780, 820, 1080, 2950, 2950, 1600, 1600].getD r 0 ∨ [950, 930, 980, 1320, 3650, 3650, 3650, 3650].getD r 0 < mv.toNat))
      ∨ (∃ len, c = .porstNLow len ∧ bit = 1 ∧ reach = 0 ∧ 5000 ≤ len.toNat ∧ d = len.toNat - 5000 ∧ rails = s.boot.rails)
      ∨ (∃ (len : BitVec 32) (a : Nat), c = .sysrstNLow len ∧ bit = 2 ∧ reach = 1
        ∧ a = (if bits (s.rd R.RST_OPT 0) 24 8 = 1 then 50000 else if bits (s.rd R.RST_OPT 0) 24 8 = 2 then 500000 else 5000)
        ∧ a ≤ len.toNat ∧ d = len.toNat - a ∧ rails = s.boot.rails)
      ∨ (c = .armatureWatchdogExpiry ∧ bit = 3 ∧ reach = 1 ∧ d = 10000 ∧ rails = s.boot.rails ∧ inReset s = false ∧ s.boot.armAt + 1000000000 ≤ s.now)
      ∨ (c = .atelierWatchdogExpiry ∧ bit = 4 ∧ reach = 2 ∧ d = 10000 ∧ rails = s.boot.rails ∧ s.on R.RST_AWD_CTL_EN = true ∧ s.boot.awdEnd ≠ 0
        ∧ s.boot.awdEnd ≤ s.now + 1) →
    (∀ x : Nat, s.boot.reach = some x → x < reach → ∃ t, exec c s = .next t ∧ t.rd R.RST_CAUSE = s.rd R.RST_CAUSE ||| 2 ^ bit
      ∧ t = { s with regs := t.regs, boot := { s.boot with ends := tabSet 0 s.boot.ends bit (s.now + d + 1) } } ∧ OnlyRegs s t [R.RST_CAUSE.addr 0 0 0])
    ∧ ((∀ x : Nat, s.boot.reach = some x → reach ≤ x) → ∃ t, exec c s = .next t ∧ t.boot.reach = some reach ∧ t.boot.phase = 0
      ∧ tabGet 0 t.boot.ends bit = s.now + d + 1 ∧ t.boot.rails = rails ∧ (t.rd R.RST_CAUSE).testBit bit = true ∧ t.now = s.now ∧ t.pending = s.pending
      ∧ (∀ k : Nat, 0x200000000 ≤ k → k < 0x310000000 ∨ 0x310040000 ≤ k ∨ reach ≠ 0 → tabGet 0 t.mem k = tabGet 0 s.mem k)
      ∧ (reach < 2 → (∀ k : Nat, k < 0x200000000 → tabGet 0 t.mem k = 0) ∧ t.store = {} ∧ t.evh = {} ∧ t.engs = [] ∧ t.cmd = {} ∧ t.dma = {} ∧ t.packs = {})
      ∧ (reach = 0 → t.rd R.RST_CAUSE = 2 ^ bit ∧ t.rd R.PWR_PD_STAT = setBits (setBits (s.rd R.PWR_PD_STAT) 8 3 0) 12 1 0 ∧ t.field = {}
          ∧ (∀ a : Nat, a ∉ [R.RST_CAUSE.addr 0 0 0, R.RST_STAT.addr 0 0 0, R.PWR_PD_STAT.addr 0 0 0, R.MEM_SEC_STAT.addr 0 0 0] → tabGet 0 t.regs a = 0)
          ∧ (s.sec.lc = none → tabGet 0 t.regs (R.MEM_SEC_STAT.addr 0 0 0) = 0))
      ∧ (reach = 2 → t.mem = s.mem ∧ t.get R.HIF_STAT_ATL_RESTART = 1 ∧ t.cmd = { s.cmd with cache := [], fwOpen := none } ∧ t.engs = s.engs
          ∧ t.store = s.store ∧ t.time = s.time)))
  ∧ (∀ (c : Instr) (s : State),
    (∃ len, c = .porstNLow len ∧ len.toNat < 1000) ∨ (∃ len, c = .sysrstNLow len ∧ len.toNat < 1000)
      ∨ (∃ mv, c = .supplyMonitorTrip 0 mv ∧ 660 ≤ mv.toNat ∧ mv.toNat ≤ 950)
      ∨ (c = .atelierWatchdogExpiry ∧ (s.on R.RST_AWD_CTL_EN = false ∨ s.now + 1 < s.boot.awdEnd))
      ∨ (c = .armatureWatchdogExpiry ∧ (inReset s = true ∨ s.now < s.boot.armAt + 1000000000))
      ∨ (∃ mvs, c = .supplyGood mvs ∧ s.boot.rails ≠ 0 ∧ s.now < s.boot.railAt + 2000000)
      ∨ (c = .resetRelease ∧ (s.boot.reach = none ∨ s.boot.rails ≠ 0 ∨ s.now + 1 < tabGet 0 s.boot.ends 1))
      ∨ (c = .bootImageReadDone ∧ (s.boot.phase ≠ 2 ∨ s.on R.SEC_STAT_TAMPER_HOLD = true)) ∨ (c = .bootVerifyDone ∧ s.boot.phase ≠ 3)
      ∨ (c = .atlReady ∧ s.boot.phase ≠ 4) → exec c s = .next s)
  ∧ (∀ (mvs : List (BitVec 16)) (s : State), (∀ r : Nat, r < 8 → railBack r (mvs.getD r 0).toNat = true) → (∀ r : Nat, r < 8 → railOut r (mvs.getD r 0).toNat = false) →
    s.boot.railAt + 2000000 ≤ s.now →
    ∃ t, exec (.supplyGood mvs) s = .next t ∧ t.boot.rails = 0 ∧ t = { s with boot := { s.boot with rails := 0 } })
  ∧ (∀ (r : Requester) (s : State), writes s r (R.RST_AWD_KICK.addr 0 0 0) = true →
    (isAtl r = false → isArm r = false → exec (.awdKick r) s = .next { s with bus := {} })
    ∧ (isAtl r = true ∨ isArm r = true → s.on R.RST_AWD_CTL_EN = true → ∃ t, exec (.awdKick r) s = .next t
      ∧ t.boot.awdEnd = s.now + max 1 (s.get R.RST_AWD_CTL_TIMEOUT) * 1000000 + 1 ∧ t = { s with bus := {}, boot := { s.boot with awdEnd := t.boot.awdEnd } }))
  ∧ (∀ s : State, s.boot.phase = 0 → anySource s = false →
    (s.boot.reach = some 0 ∨ s.boot.reach = some 1 → ∃ t, exec .resetRelease s = .next t ∧ t.boot = { s.boot with phase := 1, releasedAt := s.now, armAt := s.now }
      ∧ (optGood (s.bytes .otp 0 64) = true → (∀ i : Nat, i < 16 → t.rd R.RST_OPT i = s.mword .otp (4 * i))
          ∧ t.on R.HIF_STAT_IF = (s.mrd .otp 1 == 1) ∧ t.on R.RST_STAT_OPT_COPY = false ∧ t.on R.RST_STAT_OPT_ERR = false)
      ∧ (optGood (s.bytes .otp 0 64) = false → optGood (s.bytes .otp 0x40 64) = true → (∀ i : Nat, i < 16 → t.rd R.RST_OPT i = s.mword .otp (0x40 + 4 * i))
          ∧ t.on R.RST_STAT_OPT_COPY = true)
      ∧ (∀ i : Nat, i < 256 → lcDone s i = true → (∀ j : Nat, i < j → j < 256 → lcDone s j = false) → t.get R.SEC_STAT_LC = lcEntry s i % 8)
      ∧ t = { s with regs := t.regs, boot := t.boot })
    ∧ (s.boot.reach = some 2 → lcState s ≠ 4 → s.on R.SEC_STAT_TAMPER_HOLD = false → hostBooted s = false → ∃ t, exec .resetRelease s = .next t ∧ t.boot.phase = 2 ∧ t.boot.slot = bootSlot s
      ∧ (s.pat.coreArm = none → t = { s with boot := { s.boot with phase := 2, releasedAt := s.now, slot := bootSlot s, second := false, fromHost := false } })
      ∧ (∀ k : Nat, k < 4 → s.pat.coreArm = some k → t.get R.PAT_AC_STATE k = 3 ∧ tabGet 0 t.pat.coreMap k = 4 ∧ t.pat.coreArm = none
          ∧ t.get R.PAT_STAT_CORE_SWAP_ARMED = 0 ∧ t.get R.PAT_EVT_SUB_DONE = 1 ∧ t.pat.recDue = true ∧ t = { s with regs := t.regs, pat := t.pat, boot := t.boot })))
  ∧ (∀ (s : State) (a n : Nat), s.boot.phase = 2 → s.on R.SEC_STAT_TAMPER_HOLD = false → a = (if s.boot.slot = 0 then 0x100000 else 0x900000) →
    n = s.mword .flash (a + 0x20) + 29792 → memReady s .arm 0 (min n 0x400000) = true → ∃ t, exec .bootImageReadDone s = .next t ∧ t.boot = { s.boot with phase := 3, len := n }
      ∧ (∀ k : Nat, k < min n 0x400000 → t.mrd .fabric k = s.mrd .flash (a + k)) ∧ OnlyBytes s t .fabric 0 (min n 0x400000)
      ∧ t = { s with mem := t.mem, boot := t.boot })
  ∧ (∀ s : State, s.boot.phase = 3 → ∃ t, exec .bootVerifyDone s = .next t
    ∧ (bootOk s = true → s.boot.reach ≠ some 2 → t.boot = { s.boot with phase := 4, armAt := s.now } ∧ t.rd R.SEC_FW_DEFAULT = 0
      ∧ t.rd R.SEC_FW_R_BASE 5 = 0x40000000 ∧ t.rd R.SEC_FW_R_LIMIT 5 = 0x4017FFFF ∧ t.rd R.SEC_FW_R_PERM 5 = 0x800000AA ∧ t.rd R.SEC_FW_R_PERM 0 = 0x80000015
      ∧ (s.boot.fromHost = false → t.get R.RST_STAT_BOOT_SLOT = s.boot.slot % 2 ∧ t.on R.RST_STAT_FALLBACK = s.boot.second)
      ∧ (s.get R.SEC_LOG_N_V < 192 → s.on R.MEM_SEC_STAT_LOCKED = false → t.get R.SEC_LOG_N_V = s.get R.SEC_LOG_N_V + 1)
      ∧ t = { s with regs := t.regs, mem := t.mem, sec := { s.sec with late := t.sec.late }, boot := t.boot }
      ∧ (s.on R.MEM_SEC_STAT_LOCKED = false → t.sec = s.sec))
    ∧ (bootOk s = false → s.boot.fromHost = false → s.boot.second = false →
      t = { s with boot := { s.boot with phase := 2, slot := 1 - s.boot.slot, second := true } })
    ∧ (bootOk s = false → s.boot.fromHost = true ∨ s.boot.second = true → lcState s ≠ 4 → s.on R.SEC_STAT_TAMPER_HOLD = false → t.get R.RST_STAT_HBOOT_WAIT = 1
      ∧ (s.boot.fromHost = false → t.get R.RST_STAT_BOOT_FAIL = 1) ∧ t.rd R.SEC_FW_R_PERM 0 = 0x80000008 ∧ t.rd R.SEC_FW_R_LIMIT 0 = 0x3FFFFF
      ∧ t = { s with regs := t.regs, boot := { s.boot with phase := 6 } })
    ∧ (bootOk s = false → s.boot.fromHost = true → lcState s = 4 ∨ s.on R.SEC_STAT_TAMPER_HOLD = true → t.get R.RST_STAT_HBOOT_WAIT = s.get R.RST_STAT_HBOOT_WAIT
      ∧ t = { s with regs := t.regs, boot := { s.boot with phase := 7 } } ∧ OnlyRegs s t [R.RST_STAT.addr 0 0 0]))
  ∧ (∀ (r : Requester) (v : Word) (s : State), writes s r (R.RST_HBOOT_LEN.addr 0 0 0) = true →
    (isHost r = true → s.on R.RST_STAT_HBOOT_WAIT = false → exec (.hbootLengthWrite r v) s = .next { s with bus := {} })
    ∧ (isAtl r = true ∨ isArm r = true ∨ isHost r = true → s.on R.RST_STAT_HBOOT_WAIT = true → ∃ t, exec (.hbootLengthWrite r v) s = .next t
      ∧ t.get R.RST_HBOOT_LEN_V = v.toNat % 2 ^ 24 ∧ t.get R.RST_STAT_HBOOT_WAIT = 0 ∧ t.on R.SEC_FW_R_PERM_VALID 0 = false
      ∧ t = { s with bus := {}, regs := t.regs, boot := { s.boot with phase := 3, fromHost := true, len := v.toNat % 2 ^ 24 } }
      ∧ OnlyRegs s t [R.RST_HBOOT_LEN.addr 0 0 0, R.RST_STAT.addr 0 0 0, R.SEC_FW_R_PERM.addr 0 0 0]))
  ∧ (∀ (s : State) (x : Nat), s.boot.phase = 4 → x = s.boot.reach.getD 0 → x ≤ 2 → s.on R.RST_AWD_CTL_EN = false → (∀ n : Nat, n < 32 → fxMode s n = 0) →
    s.cmd.order = [] → s.cmd.streams = [] → s.packs.insts = [] → s.cmd.notes.length < 256 → s.on R.FX_STAT_HOLD = false → s.on R.FX_STAT_HOLD_EXPIRED = false →
    ∃ t, exec .atlReady s = .next t ∧ t.on R.HIF_STAT_ATL_RESTART = false ∧ t.get R.RST_STAT_REACH_LAST = x ∧ t.on R.RST_AWD_CTL_EN = true
      ∧ t.get R.RST_AWD_CTL_TIMEOUT = 100 ∧ t.boot = { s.boot with reach := none, phase := 5, awdEnd := s.now + 100000001 }
      ∧ t.cmd = { s.cmd with notes := s.cmd.notes ++ [BitVec.ofNat 32 (4 * 2 ^ 24 + if x = 2 then 1 else 0)] }
      ∧ t.rd R.RST_BOOT_TIME = (s.now - s.boot.releasedAt) / 1000 % 2 ^ 32 ∧ t = { s with regs := t.regs, cmd := t.cmd, boot := t.boot })

/-- Tamper sets its source bit, but DEBUG not while debug is open; in FIELD and SERVICE it also clears the debug unlock, starts the wipe of the secure bank and a SYSTEM reset with its cause, and counts. CHALLENGE answers the challenge; UNLOCK renews it, unlocks on an accepted token, and counts the others, the third being tamper. A wear round keeps the pace of every sampled unit, or its ratio once there are baselines; the baselines are the means, taken once and written to the life record, after 10 minutes that a substitution starts anew. At an epoch's end a unit is judged by the mean of its ratios: warned, and WORN at the third epoch beyond the floor. The life record's older copy takes the next SEQ. A proposal is repeated while its unit is not retired. An abandoned engine substitution is retried. A telemetry snapshot is written at HEAD with the next SEQ. A calibration whose result is out of range sets CAL_FAIL and keeps its setting; sensors 5 degrees apart from the others' mean are left out. (R420, R421, R422, R424, R425, R426, R427, R428, R430, R432, R435, R436) -/
def Obligations.TrustAndWear : Prop :=
  (∀ (k : Fin 4) (s : State),
    (lcState s = 4 → exec (.tamper k) s = .next s)
    ∧ (k = 3 → debugOpen s = true → exec (.tamper k) s = .next s)
    ∧ (lcState s < 2 → (k = 3 → debugOpen s = false) → ∃ t, exec (.tamper k) s = .next t ∧ t.rd R.SEC_TAMPER = s.rd R.SEC_TAMPER ||| 2 ^ k.val
      ∧ t = { s with regs := t.regs } ∧ OnlyRegs s t [R.SEC_TAMPER.addr 0 0 0])
    ∧ (lcState s = 2 ∨ lcState s = 3 → (k = 3 → debugOpen s = false) → s.boot.reach = none → ∃ t, exec (.tamper k) s = .next t ∧ t.boot.reach = some 1 ∧ t.boot.phase = 0
      ∧ (t.rd R.SEC_TAMPER).testBit k = true ∧ (t.rd R.RST_CAUSE).testBit 5 = true ∧ t.get R.SEC_TAMPER_CNT_V = min (s.get R.SEC_TAMPER_CNT_V + 1) 255
      ∧ t.get R.MEM_SEC_STAT_WIPING = 1 ∧ t.get R.MEM_SEC_STAT_LOCKED = 1 ∧ t.get R.SEC_STAT_DBG_UNLOCKED = 0 ∧ t.boot.tampers.getLast? = some s.now))
  ∧ (∀ s : State, ∃ t, exec .debugChallenge s = .next t ∧ t = { s with sec := { s.sec with tdo := leBytes 32 (Config.challenge s.sec.chal).toNat } }
      ∧ t.sec.tdo.length = 32)
  ∧ (∀ (tok : List Byte) (s : State), ∃ t, exec (.debugUnlock tok) s = .next t ∧ t.now = s.now
      ∧ (unlockOk s tok = true → t.get R.SEC_STAT_DBG_UNLOCKED = 1 ∧ t.sec = { s.sec with chal := s.sec.chal + 1, late := t.sec.late }
        ∧ (s.on R.MEM_SEC_STAT_LOCKED = false → t.sec.late = s.sec.late) ∧ t = { s with regs := t.regs, mem := t.mem, sec := t.sec })
      ∧ (unlockOk s tok = false → s.sec.fails ≠ 2 → t = { s with sec := { s.sec with chal := s.sec.chal + 1, fails := s.sec.fails + 1 } })
      ∧ (unlockOk s tok = false → s.sec.fails = 2 → lcState s ≠ 4 → (t.rd R.SEC_TAMPER).testBit 3 = true ∧ t.sec.chal = s.sec.chal + 1 ∧ t.sec.fails = 3))
  ∧ (∀ (k : WearKind) (paces : List Word) (s : State), k ≠ .segment → ∃ t, exec (.wearRound k paces) s = .next t
      ∧ (s.on R.PAT_STAT_BASELINE = false → subRuns s = true → t.pat = { s.pat with paces := [], epochAt := s.now })
      ∧ (s.on R.PAT_STAT_BASELINE = true ∨ subRuns s = false → (∀ n : Nat, n < wearUnits k → n < paces.length → s.get (wearState k) n ≠ 3 →
        (s.on R.PAT_STAT_BASELINE = false → tabGet [] t.pat.paces (wearKey k n) = tabGet [] s.pat.paces (wearKey k n) ++ [(paces.getD n 0).toNat])
        ∧ (s.on R.PAT_STAT_BASELINE = true → tabGet 0 s.pat.base (wearKey k n) ≠ 0 → k = .lane ∨ median ((peers s k n).map fun m => (paces.getD m 0).toNat) ≠ 0 →
            tabGet [] t.pat.ratios (wearKey k n) = tabGet [] s.pat.ratios (wearKey k n) ++ [wearOf s k (fun m => (paces.getD m 0).toNat) n]))
      ∧ (∀ n : Nat, n < 1024 → wearUnits k ≤ n ∨ paces.length ≤ n ∨ s.get (wearState k) n = 3 → tabGet [] t.pat.paces (wearKey k n) = tabGet [] s.pat.paces (wearKey k n)
          ∧ tabGet [] t.pat.ratios (wearKey k n) = tabGet [] s.pat.ratios (wearKey k n))
        ∧ t.pat = { s.pat with paces := t.pat.paces, ratios := t.pat.ratios })
      ∧ (k ≠ .engine → t = { s with pat := t.pat })
      ∧ (k = .engine → t = { s with regs := t.regs, pat := t.pat } ∧ (∀ e : Nat, e < 48 → t.get R.CE_PACE_V e = (paces.getD (s.rd R.CE_MAP e) 0).toNat % 65536)
        ∧ OnlyRegs s t ((List.range 48).flatMap fun e => [R.CE_PACE.addr e 0 0, R.CE_DIRTY_HW.addr e 0 0, R.CE_FREEZE_EST.addr e 0 0])))
  ∧ (∀ s : State, s.on R.PAT_STAT_BASELINE = false → s.on R.MEM_STAT_READY = true → s.pat.epochAt + 600000000000 ≤ s.now → subRuns s = false →
    (s.pat.paces.map (·.1)).Nodup → (∀ p ∈ s.pat.paces, p.2 ≠ []) → ∃ t, exec .baselineCapture s = .next t
      ∧ t.get R.PAT_STAT_BASELINE = 1 ∧ (∀ p ∈ s.pat.paces, (p.1, p.2.sum / p.2.length) ∈ t.pat.base) ∧ t.pat.base.length = s.pat.paces.length
      ∧ t.pat.paces = [] ∧ t.pat.recDue = false
      ∧ (∃ x : LifeRec, (t.pat.recA = some x ∨ t.pat.recB = some x) ∧ x.base = t.pat.base ∧ x.seq = (lifeRec s).elim 1 (fun y => y.seq + 1)) ∧ t = { s with regs := t.regs, pat := t.pat } ∧ OnlyRegs s t [R.PAT_STAT.addr 0 0 0])
  ∧ (∀ (k : WearKind) (n : Nat) (l : List Nat) (s : State) (m lo warn : Nat), k ≠ .segment → n < wearUnits k → s.pat.ratios = [(wearKey k n, l)] → l ≠ [] →
    m = l.sum / l.length → m < 65536 → warn = (wearLimits s k).1 → lo = (wearLimits s k).2 → s.on R.PAT_STAT_BASELINE = true → s.on R.PAT_CTL_EN = true → s.on R.PAT_CTL_POLICY = true →
    s.pat.epochAt + max 1 (min 1440 (s.get R.PAT_EPOCH_V)) * 60000000000 ≤ s.now → (∀ b : Nat, b < 96 → s.rd R.MEM_BK_CE b ≤ tabGet 0 s.pat.ceAt b + 16) →
    (∀ (j : WearKind) (x : Nat), x < wearUnits j → s.get (wearState j) x ≠ 2) → s.get (wearState k) n < 2 → ∃ t, exec .epochEnd s = .next t ∧ t.pat.epochAt = s.now ∧ t.pat.ratios = []
      ∧ t.get (wearRatio k) n = m ∧ t.get (wearBelow k) n = (if m < lo then min 3 (s.get (wearBelow k) n + 1) else 0)
      ∧ (lo ≤ m ∨ s.get (wearBelow k) n < 2 → t.get (wearState k) n = (if m < warn then 1 else 0) ∧ (m < warn → s.get (wearState k) n = 0 → t.get R.PAT_EVT_WARN = 1))
      ∧ (m < lo → 2 ≤ s.get (wearBelow k) n → t.get R.PAT_EVT_WORN = 1 ∧ t.get (wearState k) n = (if s.on (wearSpare k) n then 3 else 2))
      ∧ (∀ (j : WearKind) (x : Nat), x < wearUnits j → (j, x) ≠ (k, n) → t.rd (wearReg j) x = s.rd (wearReg j) x))
  ∧ (∀ s : State, (s.pat.recDue = false → exec .lifeRecordWrite s = .next s)
    ∧ (s.pat.recDue = true → (∀ a b : LifeRec, s.pat.recA = some a → s.pat.recB = some b → a.seq ≠ b.seq) → ∃ (t : State) (x : LifeRec), exec .lifeRecordWrite s = .next t ∧ lifeRec t = some x
      ∧ x.seq = (lifeRec s).elim 1 (fun y => y.seq + 1) ∧ x.base = s.pat.base ∧ (∀ e : Nat, e < 48 → tabGet 0 x.ceMap e = s.rd R.CE_MAP e)
      ∧ (∀ b : Nat, b < 96 → tabGet 0 x.bkMap b = s.get R.MEM_MAP_PHYS b)
      ∧ (∀ y : LifeRec, lifeRec s = some y → t.pat.recA = some y ∨ t.pat.recB = some y) ∧ t.pat.recDue = false
      ∧ t = { s with pat := { s.pat with recA := t.pat.recA, recB := t.pat.recB, recDue := false } }))
  ∧ (∀ (k : WearKind) (n : Fin 288) (s : State) (d : Nat), d = tabGet 0 s.pat.reqAt (wearKey k n) →
    (s.on R.PAT_CTL_POLICY = false ∨ d = 0 ∨ s.now < d → exec (.spareRequestRepeat k n) s = .next s)
    ∧ (s.on R.PAT_CTL_POLICY = true → d ≠ 0 → d ≤ s.now → s.get (wearState k) n = 3 → ∃ t, exec (.spareRequestRepeat k n) s = .next t
      ∧ tabGet 0 t.pat.reqAt (wearKey k n) = 0 ∧ t.cmd = s.cmd)
    ∧ (∀ a : Nat, s.on R.PAT_CTL_POLICY = true → d ≠ 0 → d ≤ s.now → s.get (wearState k) n ≠ 3 → unitArg s k n = some a → s.cmd.notes.length < 256 →
      ∃ t, exec (.spareRequestRepeat k n) s = .next t ∧ t.cmd = { s.cmd with notes := s.cmd.notes ++ [BitVec.ofNat 32 (2 * 2 ^ 24 + a % 4096)] }
        ∧ tabGet 0 t.pat.reqAt (wearKey k n) = s.now + max 1 (s.get R.PAT_REQ_INT_V) * 60000000000 ∧ t = { s with pat := { s.pat with reqAt := t.pat.reqAt }, cmd := t.cmd }))
  ∧ (∀ s : State, (s.pat.retry = none → exec .substitutionRetry s = .next s)
    ∧ (∀ e at_ x : Nat, s.pat.retry = some (e, at_) → (s.now < at_ → exec .substitutionRetry s = .next s)
      ∧ (at_ ≤ s.now → e < 48 → migBusy s = false → spareEngine s = some x → engState s e = 0 → s.rd R.CE_MAP e < 52 → ∃ t, exec .substitutionRetry s = .next t
        ∧ t.pat.retry = none ∧ t.rd R.CE_MAP e = x ∧ t.get R.CE_MIG_STAT_STATE = 4)))
  ∧ (∀ (hi lo : BitVec 16) (rows : BitVec 8) (ce : Word) (s : State) (a f : Nat), f = s.time.frc.toNat → a = s.rd R.PAT_TEL_BASE / 256 * 256 + 256 * s.get R.PAT_TEL_HEAD_V →
    (s.on R.PAT_TEL_CTL_EN = false ∨ f < s.pat.telAt + 10000000 → exec (.telemetrySnapshot hi lo rows ce) s = .next s)
    ∧ (s.on R.PAT_TEL_CTL_EN = true → s.pat.telAt + 10000000 ≤ f → memReady s .pat a 256 = true → ∃ t, exec (.telemetrySnapshot hi lo rows ce) s = .next t
      ∧ t.rd R.PAT_TEL_SEQ = (if s.rd R.PAT_TEL_SEQ = 2 ^ 32 - 1 then 1 else s.rd R.PAT_TEL_SEQ + 1)
      ∧ t.get R.PAT_TEL_HEAD_V = (s.get R.PAT_TEL_HEAD_V + 1) % max 1 (min 1024 (s.get R.PAT_TEL_N_V)) ∧ t.pat = { s.pat with telAt := f }
      ∧ t.mword .fabric a = t.rd R.PAT_TEL_SEQ ∧ t.mword .fabric (a + 4) = f % 2 ^ 32 ∧ t.mword .fabric (a + 8) = f / 2 ^ 32
      ∧ t.mword .fabric (a + 16) = hi.toNat + 65536 * lo.toNat ∧ t.mword .fabric (a + 52) = ce.toNat
      ∧ (∀ e : Nat, e < 48 → t.mword .fabric (a + 64 + 4 * e) = s.rd R.CE_PACE e % 65536 + 65536 * s.get R.PAT_CE_RATIO (s.rd R.CE_MAP e)) ∧ OnlyBytes s t .fabric a 256
      ∧ t.get R.PWR_VREQ_VREQ = s.get R.PWR_VREQ_VREQ ∧ (s.on R.PWR_STAT_AVS = false → t.rd R.PWR_VREQ = s.rd R.PWR_VREQ)
      ∧ t = { s with regs := t.regs, mem := t.mem, pat := t.pat, freeCtr := t.freeCtr } ∧ OnlyRegs s t [R.PAT_TEL_SEQ.addr 0 0 0, R.PAT_TEL_HEAD.addr 0 0 0, R.PWR_VREQ.addr 0 0 0]))
  ∧ (∀ (c : Instr) (s u : State) (ok : Bool),
    (∃ p v, c = .phyTrim p v ok ∧ u = { s with pat := { s.pat with trim := tabSet 0 s.pat.trim p v.toNat } })
      ∨ (∃ v, c = .adcOffsetCalibration v ok ∧ u = { s with pat := { s.pat with adcOff := v.toNat } })
      ∨ (∃ v, c = .oscillatorDrift (some v) ok ∧ s.on R.TB_STAT_ALTREF_OK = true ∧ s.on R.TB_STAT_HOLDOVER = false ∧ s.on R.TB_STAT_REF_ACTIVE = false ∧ u = s.wr R.TB_ALT_DRIFT v.toNat) →
    ∃ t, exec c s = .next t ∧ (ok = true → t = u) ∧ (ok = false → t.get R.PAT_EVT_CAL_FAIL = 1 ∧ t = { s with regs := t.regs } ∧ OnlyRegs s t [R.PAT_EVT.addr 0 0 0]))
  ∧ (∀ (v : Word) (ok : Bool) (s : State),
    (s.on R.TB_STAT_ALTREF_OK = false → s.on R.TB_STAT_HOLDOVER = false → s.on R.TB_STAT_REF_ACTIVE = false → exec (.oscillatorDrift none ok) s = .next s)
    ∧ (s.on R.TB_STAT_XREF_OK = false ∨ s.on R.TB_CTL_REVERT = false →
      (s.on R.TB_STAT_HOLDOVER = true → s.on R.TB_CTL_ALTREF_EN = true → ∃ t, exec (.oscillatorDrift (some v) true) s = .next t ∧ t.get R.TB_STAT_REF_ACTIVE = 1
        ∧ t.get R.TB_STAT_HOLDOVER = 0 ∧ t.get R.TB_STAT_ALTREF_OK = 1 ∧ t = { s with regs := t.regs })
      ∧ (s.on R.TB_STAT_HOLDOVER = false → s.on R.TB_STAT_REF_ACTIVE = true → ∃ t, exec (.oscillatorDrift none ok) s = .next t
        ∧ t.get R.TB_STAT_HOLDOVER = 1 ∧ t.get R.TB_STAT_ALTREF_OK = 0 ∧ t = { s with regs := t.regs })))
  ∧ (∀ (x y : BitVec 16) (s : State), ∃ t, exec (.temperatureSensorCheck [x, y, y]) s = .next t ∧ t = { s with pat := { s.pat with excluded := t.pat.excluded } }
      ∧ (0 ∈ t.pat.excluded ↔ 20 ≤ (x.toInt - y.toInt).natAbs) ∧ (1 ∈ t.pat.excluded ↔ 40 ≤ (x.toInt - y.toInt).natAbs))
end

