-- ==== Sys2Proof/Laws/Tab.lean ====
section
/-! SUPPORT. What reading a sparse table gives after a write or a clear, and that both keep the canonical form. -/
namespace Sys2Proof.Machine

theorem tabGet_filter_ne {α : Type} (d : α) (t : Tab α) (k n : Nat) :
    tabGet d (t.filter fun p => p.1 != k) n = if n = k then d else tabGet d t n := by
  induction t with
  | nil => simp [tabGet]
  | cons p t ih =>
    by_cases h : p.1 = k
    · simp only [List.filter_cons, h, bne_self_eq_false, Bool.false_eq_true, if_false, ih, tabGet]
      by_cases hn : n = k
      · simp [hn]
      · simp [hn, Ne.symm hn]
    · have : (p.1 != k) = true := by simpa using h
      simp only [List.filter_cons, this, if_true, tabGet, ih]
      by_cases hn : n = k
      · subst hn; simp [h]
      · simp [hn]

theorem tabGet_tabPut {α : Type} (d : α) (t : Tab α) (k n : Nat) (v : α) :
    tabGet d (tabPut t k v) n = if n = k then v else tabGet d t n := by
  induction t with
  | nil => simp [tabPut, tabGet, eq_comm]
  | cons p t ih =>
    unfold tabPut
    split
    · by_cases hn : n = k
      · simp [tabGet, hn]
      · simp [tabGet, hn, Ne.symm hn]
    · split
      · rename_i h; by_cases hn : n = k
        · simp [tabGet, hn]
        · have : p.1 ≠ n := by omega
          simp [tabGet, hn, Ne.symm hn, this]
      · rename_i h; by_cases hn : n = k
        · subst hn; simp [tabGet, h, ih]
        · simp [tabGet, ih, hn]

/-- A read after a write: the value written at its key, every other key as before. -/
theorem tabGet_tabSet {α : Type} [DecidableEq α] (d : α) (t : Tab α) (k n : Nat) (v : α) :
    tabGet d (tabSet d t k v) n = if n = k then v else tabGet d t n := by
  unfold tabSet
  split
  · rename_i h; rw [tabGet_filter_ne, h]
  · exact tabGet_tabPut d t k n v

@[simp] theorem tabGet_tabSet_same {α : Type} [DecidableEq α] (d : α) (t : Tab α) (k : Nat) (v : α) :
    tabGet d (tabSet d t k v) k = v := by simp [tabGet_tabSet]

theorem tabGet_tabSet_ne {α : Type} [DecidableEq α] (d : α) (t : Tab α) {k n : Nat} (v : α) (h : n ≠ k) :
    tabGet d (tabSet d t k v) n = tabGet d t n := by simp [tabGet_tabSet, h]

/-- A read after a clear. -/
theorem tabGet_tabClear {α : Type} (d : α) (t : Tab α) (lo hi n : Nat) :
    tabGet d (tabClear t lo hi) n = if lo ≤ n ∧ n < hi then d else tabGet d t n := by
  unfold tabClear
  induction t with
  | nil => simp [tabGet]
  | cons p t ih =>
    by_cases h : p.1 < lo ∨ hi ≤ p.1
    · have h' : (decide (p.1 < lo) || decide (hi ≤ p.1)) = true := by simpa using h
      simp only [List.filter_cons, h', if_true, tabGet, ih]
      by_cases hn : p.1 = n
      · have : ¬(lo ≤ n ∧ n < hi) := by omega
        simp [hn, this]
      · simp [hn]
    · have h' : (decide (p.1 < lo) || decide (hi ≤ p.1)) = false := by simpa using h
      simp only [List.filter_cons, h', Bool.false_eq_true, if_false, tabGet, ih]
      by_cases hn : p.1 = n
      · have : lo ≤ n ∧ n < hi := by omega
        simp [this]
      · simp [hn]

theorem tabPut_mem {α : Type} (t : Tab α) (k : Nat) (v : α) (q : Nat × α) (h : q ∈ tabPut t k v) :
    q = (k, v) ∨ q ∈ t := by
  induction t with
  | nil => simp [tabPut] at h; exact .inl h
  | cons p t ih =>
    unfold tabPut at h
    split at h
    · simpa using h
    · split at h
      · simp at h; rcases h with h | h <;> simp [h]
      · simp at h; rcases h with h | h
        · simp [h]
        · rcases ih h with h | h <;> simp [h]

/-- Placing a value other than the default keeps the canonical form. -/
theorem tabWf_tabPut {α : Type} [DecidableEq α] (d : α) (t : Tab α) (k : Nat) (v : α) (hv : v ≠ d)
    (h : tabWf d t = true) : tabWf d (tabPut t k v) = true := by
  simp only [tabWf, Bool.and_eq_true, decide_eq_true_eq, List.all_eq_true] at h ⊢
  refine ⟨?_, fun q hq => ?_⟩
  · induction t with
    | nil => simp [tabPut]
    | cons p t ih =>
      have hp := List.pairwise_cons.mp h.1
      have ht := ih ⟨hp.2, fun q hq => h.2 q (by simp [hq])⟩
      unfold tabPut
      split
      · rename_i hk
        refine List.pairwise_cons.mpr ⟨fun q hq => ?_, h.1⟩
        rcases List.mem_cons.mp hq with rfl | hq
        · exact hk
        · exact Nat.lt_trans hk (hp.1 q hq)
      · split
        · rename_i hk
          exact List.pairwise_cons.mpr ⟨fun q hq => hk ▸ hp.1 q hq, hp.2⟩
        · rename_i h1 h2
          refine List.pairwise_cons.mpr ⟨fun q hq => ?_, ht⟩
          rcases tabPut_mem t k v q hq with rfl | hq
          · simp only; omega
          · exact hp.1 q hq
  · rcases tabPut_mem t k v q hq with rfl | hq
    · simpa using hv
    · exact h.2 q hq

/-- Dropping entries keeps the canonical form. -/
theorem tabWf_filter {α : Type} [DecidableEq α] (d : α) (t : Tab α) (p : Nat × α → Bool) (h : tabWf d t = true) :
    tabWf d (t.filter p) = true := by
  simp only [tabWf, Bool.and_eq_true, decide_eq_true_eq, List.all_eq_true] at h ⊢
  exact ⟨h.1.filter p, fun q hq => h.2 q (List.mem_filter.mp hq).1⟩

/-- A write keeps the canonical form. -/
theorem tabWf_tabSet {α : Type} [DecidableEq α] (d : α) (t : Tab α) (k : Nat) (v : α) (h : tabWf d t = true) :
    tabWf d (tabSet d t k v) = true := by
  unfold tabSet
  split
  · exact tabWf_filter d t _ h
  · rename_i hv; exact tabWf_tabPut d t k v hv h

/-- A clear keeps the canonical form. -/
theorem tabWf_tabClear {α : Type} [DecidableEq α] (d : α) (t : Tab α) (lo hi : Nat) (h : tabWf d t = true) :
    tabWf d (tabClear t lo hi) = true := tabWf_filter d t _ h

end Sys2Proof.Machine
end

