-- ==== Sys2Proof/Laws/Regs.lean ====
section
/-! SUPPORT. What a register and a field read after a write of a register, a field or a count: the same one takes the value, every
other keeps its own. -/
namespace Sys2Proof.Machine

/-! ### Bits of numbers -/

theorem testBit_bits (n lo w i : Nat) : (bits n lo w).testBit i = (decide (i < w) && n.testBit (lo + i)) := by
  unfold bits
  rw [Nat.testBit_mod_two_pow, Nat.testBit_div_two_pow, Nat.add_comm]

theorem setBits_testBit (n lo w v : Nat) :
    ∀ i, (setBits n lo w v).testBit i
      = if lo ≤ i ∧ i < lo + w then v.testBit (i - lo) else n.testBit i := by
  intro i
  have hlt : n % 2 ^ lo < 2 ^ lo := Nat.mod_lt _ (Nat.two_pow_pos lo)
  have hvlt : v % 2 ^ w < 2 ^ w := Nat.mod_lt _ (Nat.two_pow_pos w)
  have key : setBits n lo w v = 2 ^ lo * (2 ^ w * (n / 2 ^ lo / 2 ^ w) + v % 2 ^ w) + n % 2 ^ lo := by
    unfold setBits bits
    have h := Nat.mod_add_div (n / 2 ^ lo) (2 ^ w)
    have hn := Nat.mod_add_div n (2 ^ lo)
    have hb : n / 2 ^ lo % 2 ^ w * 2 ^ lo ≤ n :=
      Nat.le_trans (Nat.mul_le_mul_right _ (Nat.mod_le _ _)) (Nat.div_mul_le_self _ _)
    generalize n / 2 ^ lo = q at *
    generalize 2 ^ lo = a at *
    generalize 2 ^ w = b at *
    have : q % b * a + b * (q / b) * a = q * a := by rw [← Nat.add_mul, h]
    have e1 : a * (b * (q / b) + v % b) = b * (q / b) * a + v % b * a := by
      rw [Nat.mul_add, Nat.mul_comm a (b * (q / b)), Nat.mul_comm a (v % b)]
    have e2 : a * q = q * a := Nat.mul_comm _ _
    omega
  rw [key]
  by_cases h1 : i < lo
  · rw [Nat.testBit_two_pow_mul_add _ hlt, if_pos h1, if_neg (by omega), Nat.testBit_mod_two_pow]
    simp [h1]
  · rw [Nat.testBit_two_pow_mul_add _ hlt, if_neg h1]
    by_cases h2 : i - lo < w
    · rw [Nat.testBit_two_pow_mul_add _ hvlt, if_pos h2, if_pos (by omega), Nat.testBit_mod_two_pow]
      simp [h2]
    · rw [Nat.testBit_two_pow_mul_add _ hvlt, if_neg h2, if_neg (by omega), Nat.testBit_div_two_pow, Nat.testBit_div_two_pow]
      congr 1; omega

/-- The field replaced takes the number. -/
theorem bits_setBits_same (n lo w v : Nat) : bits (setBits n lo w v) lo w = v % 2 ^ w := by
  apply Nat.eq_of_testBit_eq
  intro i
  rw [testBit_bits, setBits_testBit, Nat.testBit_mod_two_pow]
  by_cases hi : i < w
  · rw [if_pos (by omega)]; simp [hi]
  · simp [hi]

/-- A field beside the one replaced keeps its number. -/
theorem bits_setBits_ne (n lo w v lo' w' : Nat) (h : lo + w ≤ lo' ∨ lo' + w' ≤ lo) :
    bits (setBits n lo w v) lo' w' = bits n lo' w' := by
  apply Nat.eq_of_testBit_eq
  intro i
  rw [testBit_bits, testBit_bits, setBits_testBit]
  by_cases hi : i < w'
  · rw [if_neg (by omega)]
  · simp [hi]

theorem bits_mod (n lo w m : Nat) (h : lo + w ≤ m) : bits (n % 2 ^ m) lo w = bits n lo w := by
  apply Nat.eq_of_testBit_eq
  intro i
  rw [testBit_bits, testBit_bits, Nat.testBit_mod_two_pow]
  by_cases hi : i < w
  · have : lo + i < m := by omega
    simp [hi, this]
  · simp [hi]

theorem bits_lt (n lo w : Nat) : bits n lo w < 2 ^ w := Nat.mod_lt _ (Nat.two_pow_pos w)

/-! ### Registers -/

/-- The word of a register that has just been written. -/
@[simp] theorem State.rd_wr (s : State) (r : Reg) (v i j k : Nat) : (s.wr r v i j k).rd r i j k = v % 2 ^ 32 := by
  simp only [State.rd, State.wr, tabGet_tabSet_same, BitVec.xor_assoc, BitVec.xor_self, BitVec.xor_zero, w32,
    BitVec.toNat_ofNat]

/-- A register at another address keeps its word. -/
theorem State.rd_wr_ne (s : State) (r q : Reg) (v i j k a b c : Nat) (h : q.addr a b c ≠ r.addr i j k) :
    (s.wr r v i j k).rd q a b c = s.rd q a b c := by
  simp only [State.rd, State.wr, tabGet_tabSet_ne _ _ _ h]

/-- The number in a field that has just been written. -/
theorem State.get_put (s : State) (f : Fld) (v i j k : Nat) (h : f.lo + f.width ≤ 32) :
    (s.put f v i j k).get f i j k = v % 2 ^ f.width := by
  simp only [State.get, State.put, State.rd_wr]
  rw [bits_mod _ _ _ _ h, bits_setBits_same]

/-- A field beside it in its register keeps its number. -/
theorem State.get_put_beside (s : State) (f g : Fld) (v i j k : Nat) (hr : f.reg = g.reg) (hg : g.lo + g.width ≤ 32)
    (h : f.lo + f.width ≤ g.lo ∨ g.lo + g.width ≤ f.lo) : (s.put f v i j k).get g i j k = s.get g i j k := by
  simp only [State.get, State.put, hr, State.rd_wr]
  rw [bits_mod _ _ _ _ hg, bits_setBits_ne _ _ _ _ _ _ h]

/-- A field of a register at another address keeps its number. -/
theorem State.get_put_ne (s : State) (f g : Fld) (v i j k a b c : Nat) (h : g.reg.addr a b c ≠ f.reg.addr i j k) :
    (s.put f v i j k).get g a b c = s.get g a b c := by
  simp only [State.get, State.put, State.rd_wr_ne _ _ _ _ _ _ _ _ _ _ h]

/-- A field of a register that has just been written whole. -/
theorem State.get_wr (s : State) (f : Fld) (r : Reg) (v i j k : Nat) (hr : f.reg = r) (h : f.lo + f.width ≤ 32) :
    (s.wr r v i j k).get f i j k = bits v f.lo f.width := by
  subst hr
  simp only [State.get, State.rd_wr, bits_mod _ _ _ _ h]

/-- A field elsewhere keeps its number when a register is written. -/
theorem State.get_wr_ne (s : State) (g : Fld) (r : Reg) (v i j k a b c : Nat) (h : g.reg.addr a b c ≠ r.addr i j k) :
    (s.wr r v i j k).get g a b c = s.get g a b c := by
  simp only [State.get, State.rd_wr_ne _ _ _ _ _ _ _ _ _ _ h]

/-- A register elsewhere keeps its word when a field is written. -/
theorem State.rd_put_ne (s : State) (f : Fld) (q : Reg) (v i j k a b c : Nat) (h : q.addr a b c ≠ f.reg.addr i j k) :
    (s.put f v i j k).rd q a b c = s.rd q a b c := State.rd_wr_ne _ _ _ _ _ _ _ _ _ _ h

/-- Registers read from the register table alone. -/
theorem State.rd_congr {s t : State} (h : t.regs = s.regs) (r : Reg) (i j k : Nat) : t.rd r i j k = s.rd r i j k := by
  simp only [State.rd, h]

theorem State.get_congr {s t : State} (h : t.regs = s.regs) (f : Fld) (i j k : Nat) : t.get f i j k = s.get f i j k := by
  simp only [State.get, State.rd_congr h]

end Sys2Proof.Machine
end

