-- ==== Sys2Proof/Laws/State.lean ====
section
/-! SUPPORT. The state's fields after each named update: one lemma for every field that an update leaves, and for every table
what its reader gives after a write of one element. -/
namespace Sys2Proof.Machine

/-! ### wr -/

@[simp] theorem State.wr_mem (s : State) (r : Reg) (v i j k : Nat) : (s.wr r v i j k).mem = s.mem := rfl
@[simp] theorem State.wr_now (s : State) (r : Reg) (v i j k : Nat) : (s.wr r v i j k).now = s.now := rfl
@[simp] theorem State.wr_freeCtr (s : State) (r : Reg) (v i j k : Nat) : (s.wr r v i j k).freeCtr = s.freeCtr := rfl
@[simp] theorem State.wr_bus (s : State) (r : Reg) (v i j k : Nat) : (s.wr r v i j k).bus = s.bus := rfl
@[simp] theorem State.wr_evh (s : State) (r : Reg) (v i j k : Nat) : (s.wr r v i j k).evh = s.evh := rfl
@[simp] theorem State.wr_store (s : State) (r : Reg) (v i j k : Nat) : (s.wr r v i j k).store = s.store := rfl
@[simp] theorem State.wr_time (s : State) (r : Reg) (v i j k : Nat) : (s.wr r v i j k).time = s.time := rfl
@[simp] theorem State.wr_engs (s : State) (r : Reg) (v i j k : Nat) : (s.wr r v i j k).engs = s.engs := rfl
@[simp] theorem State.wr_engArr (s : State) (r : Reg) (v i j k : Nat) : (s.wr r v i j k).engArr = s.engArr := rfl
@[simp] theorem State.wr_hif (s : State) (r : Reg) (v i j k : Nat) : (s.wr r v i j k).hif = s.hif := rfl
@[simp] theorem State.wr_sw (s : State) (r : Reg) (v i j k : Nat) : (s.wr r v i j k).sw = s.sw := rfl
@[simp] theorem State.wr_cmd (s : State) (r : Reg) (v i j k : Nat) : (s.wr r v i j k).cmd = s.cmd := rfl
@[simp] theorem State.wr_pat (s : State) (r : Reg) (v i j k : Nat) : (s.wr r v i j k).pat = s.pat := rfl
@[simp] theorem State.wr_can (s : State) (r : Reg) (v i j k : Nat) : (s.wr r v i j k).can = s.can := rfl
@[simp] theorem State.wr_rasp (s : State) (r : Reg) (v i j k : Nat) : (s.wr r v i j k).rasp = s.rasp := rfl
@[simp] theorem State.wr_dma (s : State) (r : Reg) (v i j k : Nat) : (s.wr r v i j k).dma = s.dma := rfl
@[simp] theorem State.wr_packs (s : State) (r : Reg) (v i j k : Nat) : (s.wr r v i j k).packs = s.packs := rfl
@[simp] theorem State.wr_field (s : State) (r : Reg) (v i j k : Nat) : (s.wr r v i j k).field = s.field := rfl
@[simp] theorem State.wr_pwr (s : State) (r : Reg) (v i j k : Nat) : (s.wr r v i j k).pwr = s.pwr := rfl
@[simp] theorem State.wr_ocm (s : State) (r : Reg) (v i j k : Nat) : (s.wr r v i j k).ocm = s.ocm := rfl
@[simp] theorem State.wr_pk (s : State) (r : Reg) (v i j k : Nat) : (s.wr r v i j k).pk = s.pk := rfl
@[simp] theorem State.wr_boot (s : State) (r : Reg) (v i j k : Nat) : (s.wr r v i j k).boot = s.boot := rfl
@[simp] theorem State.wr_sec (s : State) (r : Reg) (v i j k : Nat) : (s.wr r v i j k).sec = s.sec := rfl
@[simp] theorem State.wr_fz (s : State) (r : Reg) (v i j k : Nat) : (s.wr r v i j k).fz = s.fz := rfl
@[simp] theorem State.wr_starve (s : State) (r : Reg) (v i j k : Nat) : (s.wr r v i j k).starve = s.starve := rfl
@[simp] theorem State.wr_arbs (s : State) (r : Reg) (v i j k : Nat) : (s.wr r v i j k).arbs = s.arbs := rfl
@[simp] theorem State.wr_pending (s : State) (r : Reg) (v i j k : Nat) : (s.wr r v i j k).pending = s.pending := rfl

/-! ### put -/

@[simp] theorem State.put_mem (s : State) (f : Fld) (v i j k : Nat) : (s.put f v i j k).mem = s.mem := rfl
@[simp] theorem State.put_now (s : State) (f : Fld) (v i j k : Nat) : (s.put f v i j k).now = s.now := rfl
@[simp] theorem State.put_freeCtr (s : State) (f : Fld) (v i j k : Nat) : (s.put f v i j k).freeCtr = s.freeCtr := rfl
@[simp] theorem State.put_bus (s : State) (f : Fld) (v i j k : Nat) : (s.put f v i j k).bus = s.bus := rfl
@[simp] theorem State.put_evh (s : State) (f : Fld) (v i j k : Nat) : (s.put f v i j k).evh = s.evh := rfl
@[simp] theorem State.put_store (s : State) (f : Fld) (v i j k : Nat) : (s.put f v i j k).store = s.store := rfl
@[simp] theorem State.put_time (s : State) (f : Fld) (v i j k : Nat) : (s.put f v i j k).time = s.time := rfl
@[simp] theorem State.put_engs (s : State) (f : Fld) (v i j k : Nat) : (s.put f v i j k).engs = s.engs := rfl
@[simp] theorem State.put_engArr (s : State) (f : Fld) (v i j k : Nat) : (s.put f v i j k).engArr = s.engArr := rfl
@[simp] theorem State.put_hif (s : State) (f : Fld) (v i j k : Nat) : (s.put f v i j k).hif = s.hif := rfl
@[simp] theorem State.put_sw (s : State) (f : Fld) (v i j k : Nat) : (s.put f v i j k).sw = s.sw := rfl
@[simp] theorem State.put_cmd (s : State) (f : Fld) (v i j k : Nat) : (s.put f v i j k).cmd = s.cmd := rfl
@[simp] theorem State.put_pat (s : State) (f : Fld) (v i j k : Nat) : (s.put f v i j k).pat = s.pat := rfl
@[simp] theorem State.put_can (s : State) (f : Fld) (v i j k : Nat) : (s.put f v i j k).can = s.can := rfl
@[simp] theorem State.put_rasp (s : State) (f : Fld) (v i j k : Nat) : (s.put f v i j k).rasp = s.rasp := rfl
@[simp] theorem State.put_dma (s : State) (f : Fld) (v i j k : Nat) : (s.put f v i j k).dma = s.dma := rfl
@[simp] theorem State.put_packs (s : State) (f : Fld) (v i j k : Nat) : (s.put f v i j k).packs = s.packs := rfl
@[simp] theorem State.put_field (s : State) (f : Fld) (v i j k : Nat) : (s.put f v i j k).field = s.field := rfl
@[simp] theorem State.put_pwr (s : State) (f : Fld) (v i j k : Nat) : (s.put f v i j k).pwr = s.pwr := rfl
@[simp] theorem State.put_ocm (s : State) (f : Fld) (v i j k : Nat) : (s.put f v i j k).ocm = s.ocm := rfl
@[simp] theorem State.put_pk (s : State) (f : Fld) (v i j k : Nat) : (s.put f v i j k).pk = s.pk := rfl
@[simp] theorem State.put_boot (s : State) (f : Fld) (v i j k : Nat) : (s.put f v i j k).boot = s.boot := rfl
@[simp] theorem State.put_sec (s : State) (f : Fld) (v i j k : Nat) : (s.put f v i j k).sec = s.sec := rfl
@[simp] theorem State.put_fz (s : State) (f : Fld) (v i j k : Nat) : (s.put f v i j k).fz = s.fz := rfl
@[simp] theorem State.put_starve (s : State) (f : Fld) (v i j k : Nat) : (s.put f v i j k).starve = s.starve := rfl
@[simp] theorem State.put_arbs (s : State) (f : Fld) (v i j k : Nat) : (s.put f v i j k).arbs = s.arbs := rfl
@[simp] theorem State.put_pending (s : State) (f : Fld) (v i j k : Nat) : (s.put f v i j k).pending = s.pending := rfl

/-! ### raise -/

@[simp] theorem State.raise_mem (s : State) (f : Fld) (i j k : Nat) : (s.raise f i j k).mem = s.mem := rfl
@[simp] theorem State.raise_now (s : State) (f : Fld) (i j k : Nat) : (s.raise f i j k).now = s.now := rfl
@[simp] theorem State.raise_freeCtr (s : State) (f : Fld) (i j k : Nat) : (s.raise f i j k).freeCtr = s.freeCtr := rfl
@[simp] theorem State.raise_bus (s : State) (f : Fld) (i j k : Nat) : (s.raise f i j k).bus = s.bus := rfl
@[simp] theorem State.raise_evh (s : State) (f : Fld) (i j k : Nat) : (s.raise f i j k).evh = s.evh := rfl
@[simp] theorem State.raise_store (s : State) (f : Fld) (i j k : Nat) : (s.raise f i j k).store = s.store := rfl
@[simp] theorem State.raise_time (s : State) (f : Fld) (i j k : Nat) : (s.raise f i j k).time = s.time := rfl
@[simp] theorem State.raise_engs (s : State) (f : Fld) (i j k : Nat) : (s.raise f i j k).engs = s.engs := rfl
@[simp] theorem State.raise_engArr (s : State) (f : Fld) (i j k : Nat) : (s.raise f i j k).engArr = s.engArr := rfl
@[simp] theorem State.raise_hif (s : State) (f : Fld) (i j k : Nat) : (s.raise f i j k).hif = s.hif := rfl
@[simp] theorem State.raise_sw (s : State) (f : Fld) (i j k : Nat) : (s.raise f i j k).sw = s.sw := rfl
@[simp] theorem State.raise_cmd (s : State) (f : Fld) (i j k : Nat) : (s.raise f i j k).cmd = s.cmd := rfl
@[simp] theorem State.raise_pat (s : State) (f : Fld) (i j k : Nat) : (s.raise f i j k).pat = s.pat := rfl
@[simp] theorem State.raise_can (s : State) (f : Fld) (i j k : Nat) : (s.raise f i j k).can = s.can := rfl
@[simp] theorem State.raise_rasp (s : State) (f : Fld) (i j k : Nat) : (s.raise f i j k).rasp = s.rasp := rfl
@[simp] theorem State.raise_dma (s : State) (f : Fld) (i j k : Nat) : (s.raise f i j k).dma = s.dma := rfl
@[simp] theorem State.raise_packs (s : State) (f : Fld) (i j k : Nat) : (s.raise f i j k).packs = s.packs := rfl
@[simp] theorem State.raise_field (s : State) (f : Fld) (i j k : Nat) : (s.raise f i j k).field = s.field := rfl
@[simp] theorem State.raise_pwr (s : State) (f : Fld) (i j k : Nat) : (s.raise f i j k).pwr = s.pwr := rfl
@[simp] theorem State.raise_ocm (s : State) (f : Fld) (i j k : Nat) : (s.raise f i j k).ocm = s.ocm := rfl
@[simp] theorem State.raise_pk (s : State) (f : Fld) (i j k : Nat) : (s.raise f i j k).pk = s.pk := rfl
@[simp] theorem State.raise_boot (s : State) (f : Fld) (i j k : Nat) : (s.raise f i j k).boot = s.boot := rfl
@[simp] theorem State.raise_sec (s : State) (f : Fld) (i j k : Nat) : (s.raise f i j k).sec = s.sec := rfl
@[simp] theorem State.raise_fz (s : State) (f : Fld) (i j k : Nat) : (s.raise f i j k).fz = s.fz := rfl
@[simp] theorem State.raise_starve (s : State) (f : Fld) (i j k : Nat) : (s.raise f i j k).starve = s.starve := rfl
@[simp] theorem State.raise_arbs (s : State) (f : Fld) (i j k : Nat) : (s.raise f i j k).arbs = s.arbs := rfl
@[simp] theorem State.raise_pending (s : State) (f : Fld) (i j k : Nat) : (s.raise f i j k).pending = s.pending := rfl

/-! ### clr -/

@[simp] theorem State.clr_mem (s : State) (f : Fld) (i j k : Nat) : (s.clr f i j k).mem = s.mem := rfl
@[simp] theorem State.clr_now (s : State) (f : Fld) (i j k : Nat) : (s.clr f i j k).now = s.now := rfl
@[simp] theorem State.clr_freeCtr (s : State) (f : Fld) (i j k : Nat) : (s.clr f i j k).freeCtr = s.freeCtr := rfl
@[simp] theorem State.clr_bus (s : State) (f : Fld) (i j k : Nat) : (s.clr f i j k).bus = s.bus := rfl
@[simp] theorem State.clr_evh (s : State) (f : Fld) (i j k : Nat) : (s.clr f i j k).evh = s.evh := rfl
@[simp] theorem State.clr_store (s : State) (f : Fld) (i j k : Nat) : (s.clr f i j k).store = s.store := rfl
@[simp] theorem State.clr_time (s : State) (f : Fld) (i j k : Nat) : (s.clr f i j k).time = s.time := rfl
@[simp] theorem State.clr_engs (s : State) (f : Fld) (i j k : Nat) : (s.clr f i j k).engs = s.engs := rfl
@[simp] theorem State.clr_engArr (s : State) (f : Fld) (i j k : Nat) : (s.clr f i j k).engArr = s.engArr := rfl
@[simp] theorem State.clr_hif (s : State) (f : Fld) (i j k : Nat) : (s.clr f i j k).hif = s.hif := rfl
@[simp] theorem State.clr_sw (s : State) (f : Fld) (i j k : Nat) : (s.clr f i j k).sw = s.sw := rfl
@[simp] theorem State.clr_cmd (s : State) (f : Fld) (i j k : Nat) : (s.clr f i j k).cmd = s.cmd := rfl
@[simp] theorem State.clr_pat (s : State) (f : Fld) (i j k : Nat) : (s.clr f i j k).pat = s.pat := rfl
@[simp] theorem State.clr_can (s : State) (f : Fld) (i j k : Nat) : (s.clr f i j k).can = s.can := rfl
@[simp] theorem State.clr_rasp (s : State) (f : Fld) (i j k : Nat) : (s.clr f i j k).rasp = s.rasp := rfl
@[simp] theorem State.clr_dma (s : State) (f : Fld) (i j k : Nat) : (s.clr f i j k).dma = s.dma := rfl
@[simp] theorem State.clr_packs (s : State) (f : Fld) (i j k : Nat) : (s.clr f i j k).packs = s.packs := rfl
@[simp] theorem State.clr_field (s : State) (f : Fld) (i j k : Nat) : (s.clr f i j k).field = s.field := rfl
@[simp] theorem State.clr_pwr (s : State) (f : Fld) (i j k : Nat) : (s.clr f i j k).pwr = s.pwr := rfl
@[simp] theorem State.clr_ocm (s : State) (f : Fld) (i j k : Nat) : (s.clr f i j k).ocm = s.ocm := rfl
@[simp] theorem State.clr_pk (s : State) (f : Fld) (i j k : Nat) : (s.clr f i j k).pk = s.pk := rfl
@[simp] theorem State.clr_boot (s : State) (f : Fld) (i j k : Nat) : (s.clr f i j k).boot = s.boot := rfl
@[simp] theorem State.clr_sec (s : State) (f : Fld) (i j k : Nat) : (s.clr f i j k).sec = s.sec := rfl
@[simp] theorem State.clr_fz (s : State) (f : Fld) (i j k : Nat) : (s.clr f i j k).fz = s.fz := rfl
@[simp] theorem State.clr_starve (s : State) (f : Fld) (i j k : Nat) : (s.clr f i j k).starve = s.starve := rfl
@[simp] theorem State.clr_arbs (s : State) (f : Fld) (i j k : Nat) : (s.clr f i j k).arbs = s.arbs := rfl
@[simp] theorem State.clr_pending (s : State) (f : Fld) (i j k : Nat) : (s.clr f i j k).pending = s.pending := rfl

/-! ### addSat -/

@[simp] theorem State.addSat_mem (s : State) (f : Fld) (n i j k : Nat) : (s.addSat f n i j k).mem = s.mem := rfl
@[simp] theorem State.addSat_now (s : State) (f : Fld) (n i j k : Nat) : (s.addSat f n i j k).now = s.now := rfl
@[simp] theorem State.addSat_freeCtr (s : State) (f : Fld) (n i j k : Nat) : (s.addSat f n i j k).freeCtr = s.freeCtr := rfl
@[simp] theorem State.addSat_bus (s : State) (f : Fld) (n i j k : Nat) : (s.addSat f n i j k).bus = s.bus := rfl
@[simp] theorem State.addSat_evh (s : State) (f : Fld) (n i j k : Nat) : (s.addSat f n i j k).evh = s.evh := rfl
@[simp] theorem State.addSat_store (s : State) (f : Fld) (n i j k : Nat) : (s.addSat f n i j k).store = s.store := rfl
@[simp] theorem State.addSat_time (s : State) (f : Fld) (n i j k : Nat) : (s.addSat f n i j k).time = s.time := rfl
@[simp] theorem State.addSat_engs (s : State) (f : Fld) (n i j k : Nat) : (s.addSat f n i j k).engs = s.engs := rfl
@[simp] theorem State.addSat_engArr (s : State) (f : Fld) (n i j k : Nat) : (s.addSat f n i j k).engArr = s.engArr := rfl
@[simp] theorem State.addSat_hif (s : State) (f : Fld) (n i j k : Nat) : (s.addSat f n i j k).hif = s.hif := rfl
@[simp] theorem State.addSat_sw (s : State) (f : Fld) (n i j k : Nat) : (s.addSat f n i j k).sw = s.sw := rfl
@[simp] theorem State.addSat_cmd (s : State) (f : Fld) (n i j k : Nat) : (s.addSat f n i j k).cmd = s.cmd := rfl
@[simp] theorem State.addSat_pat (s : State) (f : Fld) (n i j k : Nat) : (s.addSat f n i j k).pat = s.pat := rfl
@[simp] theorem State.addSat_can (s : State) (f : Fld) (n i j k : Nat) : (s.addSat f n i j k).can = s.can := rfl
@[simp] theorem State.addSat_rasp (s : State) (f : Fld) (n i j k : Nat) : (s.addSat f n i j k).rasp = s.rasp := rfl
@[simp] theorem State.addSat_dma (s : State) (f : Fld) (n i j k : Nat) : (s.addSat f n i j k).dma = s.dma := rfl
@[simp] theorem State.addSat_packs (s : State) (f : Fld) (n i j k : Nat) : (s.addSat f n i j k).packs = s.packs := rfl
@[simp] theorem State.addSat_field (s : State) (f : Fld) (n i j k : Nat) : (s.addSat f n i j k).field = s.field := rfl
@[simp] theorem State.addSat_pwr (s : State) (f : Fld) (n i j k : Nat) : (s.addSat f n i j k).pwr = s.pwr := rfl
@[simp] theorem State.addSat_ocm (s : State) (f : Fld) (n i j k : Nat) : (s.addSat f n i j k).ocm = s.ocm := rfl
@[simp] theorem State.addSat_pk (s : State) (f : Fld) (n i j k : Nat) : (s.addSat f n i j k).pk = s.pk := rfl
@[simp] theorem State.addSat_boot (s : State) (f : Fld) (n i j k : Nat) : (s.addSat f n i j k).boot = s.boot := rfl
@[simp] theorem State.addSat_sec (s : State) (f : Fld) (n i j k : Nat) : (s.addSat f n i j k).sec = s.sec := rfl
@[simp] theorem State.addSat_fz (s : State) (f : Fld) (n i j k : Nat) : (s.addSat f n i j k).fz = s.fz := rfl
@[simp] theorem State.addSat_starve (s : State) (f : Fld) (n i j k : Nat) : (s.addSat f n i j k).starve = s.starve := rfl
@[simp] theorem State.addSat_arbs (s : State) (f : Fld) (n i j k : Nat) : (s.addSat f n i j k).arbs = s.arbs := rfl
@[simp] theorem State.addSat_pending (s : State) (f : Fld) (n i j k : Nat) : (s.addSat f n i j k).pending = s.pending := rfl

/-! ### addWrap -/

@[simp] theorem State.addWrap_mem (s : State) (f : Fld) (n i j k : Nat) : (s.addWrap f n i j k).mem = s.mem := rfl
@[simp] theorem State.addWrap_now (s : State) (f : Fld) (n i j k : Nat) : (s.addWrap f n i j k).now = s.now := rfl
@[simp] theorem State.addWrap_freeCtr (s : State) (f : Fld) (n i j k : Nat) : (s.addWrap f n i j k).freeCtr = s.freeCtr := rfl
@[simp] theorem State.addWrap_bus (s : State) (f : Fld) (n i j k : Nat) : (s.addWrap f n i j k).bus = s.bus := rfl
@[simp] theorem State.addWrap_evh (s : State) (f : Fld) (n i j k : Nat) : (s.addWrap f n i j k).evh = s.evh := rfl
@[simp] theorem State.addWrap_store (s : State) (f : Fld) (n i j k : Nat) : (s.addWrap f n i j k).store = s.store := rfl
@[simp] theorem State.addWrap_time (s : State) (f : Fld) (n i j k : Nat) : (s.addWrap f n i j k).time = s.time := rfl
@[simp] theorem State.addWrap_engs (s : State) (f : Fld) (n i j k : Nat) : (s.addWrap f n i j k).engs = s.engs := rfl
@[simp] theorem State.addWrap_engArr (s : State) (f : Fld) (n i j k : Nat) : (s.addWrap f n i j k).engArr = s.engArr := rfl
@[simp] theorem State.addWrap_hif (s : State) (f : Fld) (n i j k : Nat) : (s.addWrap f n i j k).hif = s.hif := rfl
@[simp] theorem State.addWrap_sw (s : State) (f : Fld) (n i j k : Nat) : (s.addWrap f n i j k).sw = s.sw := rfl
@[simp] theorem State.addWrap_cmd (s : State) (f : Fld) (n i j k : Nat) : (s.addWrap f n i j k).cmd = s.cmd := rfl
@[simp] theorem State.addWrap_pat (s : State) (f : Fld) (n i j k : Nat) : (s.addWrap f n i j k).pat = s.pat := rfl
@[simp] theorem State.addWrap_can (s : State) (f : Fld) (n i j k : Nat) : (s.addWrap f n i j k).can = s.can := rfl
@[simp] theorem State.addWrap_rasp (s : State) (f : Fld) (n i j k : Nat) : (s.addWrap f n i j k).rasp = s.rasp := rfl
@[simp] theorem State.addWrap_dma (s : State) (f : Fld) (n i j k : Nat) : (s.addWrap f n i j k).dma = s.dma := rfl
@[simp] theorem State.addWrap_packs (s : State) (f : Fld) (n i j k : Nat) : (s.addWrap f n i j k).packs = s.packs := rfl
@[simp] theorem State.addWrap_field (s : State) (f : Fld) (n i j k : Nat) : (s.addWrap f n i j k).field = s.field := rfl
@[simp] theorem State.addWrap_pwr (s : State) (f : Fld) (n i j k : Nat) : (s.addWrap f n i j k).pwr = s.pwr := rfl
@[simp] theorem State.addWrap_ocm (s : State) (f : Fld) (n i j k : Nat) : (s.addWrap f n i j k).ocm = s.ocm := rfl
@[simp] theorem State.addWrap_pk (s : State) (f : Fld) (n i j k : Nat) : (s.addWrap f n i j k).pk = s.pk := rfl
@[simp] theorem State.addWrap_boot (s : State) (f : Fld) (n i j k : Nat) : (s.addWrap f n i j k).boot = s.boot := rfl
@[simp] theorem State.addWrap_sec (s : State) (f : Fld) (n i j k : Nat) : (s.addWrap f n i j k).sec = s.sec := rfl
@[simp] theorem State.addWrap_fz (s : State) (f : Fld) (n i j k : Nat) : (s.addWrap f n i j k).fz = s.fz := rfl
@[simp] theorem State.addWrap_starve (s : State) (f : Fld) (n i j k : Nat) : (s.addWrap f n i j k).starve = s.starve := rfl
@[simp] theorem State.addWrap_arbs (s : State) (f : Fld) (n i j k : Nat) : (s.addWrap f n i j k).arbs = s.arbs := rfl
@[simp] theorem State.addWrap_pending (s : State) (f : Fld) (n i j k : Nat) : (s.addWrap f n i j k).pending = s.pending := rfl

/-! ### put64 -/

@[simp] theorem State.put64_mem (s : State) (a b : Reg) (v i : Nat) : (s.put64 a b v i).mem = s.mem := rfl
@[simp] theorem State.put64_now (s : State) (a b : Reg) (v i : Nat) : (s.put64 a b v i).now = s.now := rfl
@[simp] theorem State.put64_freeCtr (s : State) (a b : Reg) (v i : Nat) : (s.put64 a b v i).freeCtr = s.freeCtr := rfl
@[simp] theorem State.put64_bus (s : State) (a b : Reg) (v i : Nat) : (s.put64 a b v i).bus = s.bus := rfl
@[simp] theorem State.put64_evh (s : State) (a b : Reg) (v i : Nat) : (s.put64 a b v i).evh = s.evh := rfl
@[simp] theorem State.put64_store (s : State) (a b : Reg) (v i : Nat) : (s.put64 a b v i).store = s.store := rfl
@[simp] theorem State.put64_time (s : State) (a b : Reg) (v i : Nat) : (s.put64 a b v i).time = s.time := rfl
@[simp] theorem State.put64_engs (s : State) (a b : Reg) (v i : Nat) : (s.put64 a b v i).engs = s.engs := rfl
@[simp] theorem State.put64_engArr (s : State) (a b : Reg) (v i : Nat) : (s.put64 a b v i).engArr = s.engArr := rfl
@[simp] theorem State.put64_hif (s : State) (a b : Reg) (v i : Nat) : (s.put64 a b v i).hif = s.hif := rfl
@[simp] theorem State.put64_sw (s : State) (a b : Reg) (v i : Nat) : (s.put64 a b v i).sw = s.sw := rfl
@[simp] theorem State.put64_cmd (s : State) (a b : Reg) (v i : Nat) : (s.put64 a b v i).cmd = s.cmd := rfl
@[simp] theorem State.put64_pat (s : State) (a b : Reg) (v i : Nat) : (s.put64 a b v i).pat = s.pat := rfl
@[simp] theorem State.put64_can (s : State) (a b : Reg) (v i : Nat) : (s.put64 a b v i).can = s.can := rfl
@[simp] theorem State.put64_rasp (s : State) (a b : Reg) (v i : Nat) : (s.put64 a b v i).rasp = s.rasp := rfl
@[simp] theorem State.put64_dma (s : State) (a b : Reg) (v i : Nat) : (s.put64 a b v i).dma = s.dma := rfl
@[simp] theorem State.put64_packs (s : State) (a b : Reg) (v i : Nat) : (s.put64 a b v i).packs = s.packs := rfl
@[simp] theorem State.put64_field (s : State) (a b : Reg) (v i : Nat) : (s.put64 a b v i).field = s.field := rfl
@[simp] theorem State.put64_pwr (s : State) (a b : Reg) (v i : Nat) : (s.put64 a b v i).pwr = s.pwr := rfl
@[simp] theorem State.put64_ocm (s : State) (a b : Reg) (v i : Nat) : (s.put64 a b v i).ocm = s.ocm := rfl
@[simp] theorem State.put64_pk (s : State) (a b : Reg) (v i : Nat) : (s.put64 a b v i).pk = s.pk := rfl
@[simp] theorem State.put64_boot (s : State) (a b : Reg) (v i : Nat) : (s.put64 a b v i).boot = s.boot := rfl
@[simp] theorem State.put64_sec (s : State) (a b : Reg) (v i : Nat) : (s.put64 a b v i).sec = s.sec := rfl
@[simp] theorem State.put64_fz (s : State) (a b : Reg) (v i : Nat) : (s.put64 a b v i).fz = s.fz := rfl
@[simp] theorem State.put64_starve (s : State) (a b : Reg) (v i : Nat) : (s.put64 a b v i).starve = s.starve := rfl
@[simp] theorem State.put64_arbs (s : State) (a b : Reg) (v i : Nat) : (s.put64 a b v i).arbs = s.arbs := rfl
@[simp] theorem State.put64_pending (s : State) (a b : Reg) (v i : Nat) : (s.put64 a b v i).pending = s.pending := rfl

/-! ### regWrite -/

@[simp] theorem State.regWrite_mem (s : State) (r : Reg) (v i j k : Nat) : (s.regWrite r v i j k).mem = s.mem := rfl
@[simp] theorem State.regWrite_now (s : State) (r : Reg) (v i j k : Nat) : (s.regWrite r v i j k).now = s.now := rfl
@[simp] theorem State.regWrite_freeCtr (s : State) (r : Reg) (v i j k : Nat) : (s.regWrite r v i j k).freeCtr = s.freeCtr := rfl
@[simp] theorem State.regWrite_bus (s : State) (r : Reg) (v i j k : Nat) : (s.regWrite r v i j k).bus = s.bus := rfl
@[simp] theorem State.regWrite_evh (s : State) (r : Reg) (v i j k : Nat) : (s.regWrite r v i j k).evh = s.evh := rfl
@[simp] theorem State.regWrite_store (s : State) (r : Reg) (v i j k : Nat) : (s.regWrite r v i j k).store = s.store := rfl
@[simp] theorem State.regWrite_time (s : State) (r : Reg) (v i j k : Nat) : (s.regWrite r v i j k).time = s.time := rfl
@[simp] theorem State.regWrite_engs (s : State) (r : Reg) (v i j k : Nat) : (s.regWrite r v i j k).engs = s.engs := rfl
@[simp] theorem State.regWrite_engArr (s : State) (r : Reg) (v i j k : Nat) : (s.regWrite r v i j k).engArr = s.engArr := rfl
@[simp] theorem State.regWrite_hif (s : State) (r : Reg) (v i j k : Nat) : (s.regWrite r v i j k).hif = s.hif := rfl
@[simp] theorem State.regWrite_sw (s : State) (r : Reg) (v i j k : Nat) : (s.regWrite r v i j k).sw = s.sw := rfl
@[simp] theorem State.regWrite_cmd (s : State) (r : Reg) (v i j k : Nat) : (s.regWrite r v i j k).cmd = s.cmd := rfl
@[simp] theorem State.regWrite_pat (s : State) (r : Reg) (v i j k : Nat) : (s.regWrite r v i j k).pat = s.pat := rfl
@[simp] theorem State.regWrite_can (s : State) (r : Reg) (v i j k : Nat) : (s.regWrite r v i j k).can = s.can := rfl
@[simp] theorem State.regWrite_rasp (s : State) (r : Reg) (v i j k : Nat) : (s.regWrite r v i j k).rasp = s.rasp := rfl
@[simp] theorem State.regWrite_dma (s : State) (r : Reg) (v i j k : Nat) : (s.regWrite r v i j k).dma = s.dma := rfl
@[simp] theorem State.regWrite_packs (s : State) (r : Reg) (v i j k : Nat) : (s.regWrite r v i j k).packs = s.packs := rfl
@[simp] theorem State.regWrite_field (s : State) (r : Reg) (v i j k : Nat) : (s.regWrite r v i j k).field = s.field := rfl
@[simp] theorem State.regWrite_pwr (s : State) (r : Reg) (v i j k : Nat) : (s.regWrite r v i j k).pwr = s.pwr := rfl
@[simp] theorem State.regWrite_ocm (s : State) (r : Reg) (v i j k : Nat) : (s.regWrite r v i j k).ocm = s.ocm := rfl
@[simp] theorem State.regWrite_pk (s : State) (r : Reg) (v i j k : Nat) : (s.regWrite r v i j k).pk = s.pk := rfl
@[simp] theorem State.regWrite_boot (s : State) (r : Reg) (v i j k : Nat) : (s.regWrite r v i j k).boot = s.boot := rfl
@[simp] theorem State.regWrite_sec (s : State) (r : Reg) (v i j k : Nat) : (s.regWrite r v i j k).sec = s.sec := rfl
@[simp] theorem State.regWrite_fz (s : State) (r : Reg) (v i j k : Nat) : (s.regWrite r v i j k).fz = s.fz := rfl
@[simp] theorem State.regWrite_starve (s : State) (r : Reg) (v i j k : Nat) : (s.regWrite r v i j k).starve = s.starve := rfl
@[simp] theorem State.regWrite_arbs (s : State) (r : Reg) (v i j k : Nat) : (s.regWrite r v i j k).arbs = s.arbs := rfl
@[simp] theorem State.regWrite_pending (s : State) (r : Reg) (v i j k : Nat) : (s.regWrite r v i j k).pending = s.pending := rfl

/-! ### answer -/

@[simp] theorem State.answer_regs (s : State) (v : Nat) : (s.answer v).regs = s.regs := rfl
@[simp] theorem State.answer_mem (s : State) (v : Nat) : (s.answer v).mem = s.mem := rfl
@[simp] theorem State.answer_now (s : State) (v : Nat) : (s.answer v).now = s.now := rfl
@[simp] theorem State.answer_freeCtr (s : State) (v : Nat) : (s.answer v).freeCtr = s.freeCtr := rfl
@[simp] theorem State.answer_evh (s : State) (v : Nat) : (s.answer v).evh = s.evh := rfl
@[simp] theorem State.answer_store (s : State) (v : Nat) : (s.answer v).store = s.store := rfl
@[simp] theorem State.answer_time (s : State) (v : Nat) : (s.answer v).time = s.time := rfl
@[simp] theorem State.answer_engs (s : State) (v : Nat) : (s.answer v).engs = s.engs := rfl
@[simp] theorem State.answer_engArr (s : State) (v : Nat) : (s.answer v).engArr = s.engArr := rfl
@[simp] theorem State.answer_hif (s : State) (v : Nat) : (s.answer v).hif = s.hif := rfl
@[simp] theorem State.answer_sw (s : State) (v : Nat) : (s.answer v).sw = s.sw := rfl
@[simp] theorem State.answer_cmd (s : State) (v : Nat) : (s.answer v).cmd = s.cmd := rfl
@[simp] theorem State.answer_pat (s : State) (v : Nat) : (s.answer v).pat = s.pat := rfl
@[simp] theorem State.answer_can (s : State) (v : Nat) : (s.answer v).can = s.can := rfl
@[simp] theorem State.answer_rasp (s : State) (v : Nat) : (s.answer v).rasp = s.rasp := rfl
@[simp] theorem State.answer_dma (s : State) (v : Nat) : (s.answer v).dma = s.dma := rfl
@[simp] theorem State.answer_packs (s : State) (v : Nat) : (s.answer v).packs = s.packs := rfl
@[simp] theorem State.answer_field (s : State) (v : Nat) : (s.answer v).field = s.field := rfl
@[simp] theorem State.answer_pwr (s : State) (v : Nat) : (s.answer v).pwr = s.pwr := rfl
@[simp] theorem State.answer_ocm (s : State) (v : Nat) : (s.answer v).ocm = s.ocm := rfl
@[simp] theorem State.answer_pk (s : State) (v : Nat) : (s.answer v).pk = s.pk := rfl
@[simp] theorem State.answer_boot (s : State) (v : Nat) : (s.answer v).boot = s.boot := rfl
@[simp] theorem State.answer_sec (s : State) (v : Nat) : (s.answer v).sec = s.sec := rfl
@[simp] theorem State.answer_fz (s : State) (v : Nat) : (s.answer v).fz = s.fz := rfl
@[simp] theorem State.answer_starve (s : State) (v : Nat) : (s.answer v).starve = s.starve := rfl
@[simp] theorem State.answer_arbs (s : State) (v : Nat) : (s.answer v).arbs = s.arbs := rfl
@[simp] theorem State.answer_pending (s : State) (v : Nat) : (s.answer v).pending = s.pending := rfl

/-! ### busError -/

@[simp] theorem State.busError_regs (s : State) : (s.busError).regs = s.regs := rfl
@[simp] theorem State.busError_mem (s : State) : (s.busError).mem = s.mem := rfl
@[simp] theorem State.busError_now (s : State) : (s.busError).now = s.now := rfl
@[simp] theorem State.busError_freeCtr (s : State) : (s.busError).freeCtr = s.freeCtr := rfl
@[simp] theorem State.busError_evh (s : State) : (s.busError).evh = s.evh := rfl
@[simp] theorem State.busError_store (s : State) : (s.busError).store = s.store := rfl
@[simp] theorem State.busError_time (s : State) : (s.busError).time = s.time := rfl
@[simp] theorem State.busError_engs (s : State) : (s.busError).engs = s.engs := rfl
@[simp] theorem State.busError_engArr (s : State) : (s.busError).engArr = s.engArr := rfl
@[simp] theorem State.busError_hif (s : State) : (s.busError).hif = s.hif := rfl
@[simp] theorem State.busError_sw (s : State) : (s.busError).sw = s.sw := rfl
@[simp] theorem State.busError_cmd (s : State) : (s.busError).cmd = s.cmd := rfl
@[simp] theorem State.busError_pat (s : State) : (s.busError).pat = s.pat := rfl
@[simp] theorem State.busError_can (s : State) : (s.busError).can = s.can := rfl
@[simp] theorem State.busError_rasp (s : State) : (s.busError).rasp = s.rasp := rfl
@[simp] theorem State.busError_dma (s : State) : (s.busError).dma = s.dma := rfl
@[simp] theorem State.busError_packs (s : State) : (s.busError).packs = s.packs := rfl
@[simp] theorem State.busError_field (s : State) : (s.busError).field = s.field := rfl
@[simp] theorem State.busError_pwr (s : State) : (s.busError).pwr = s.pwr := rfl
@[simp] theorem State.busError_ocm (s : State) : (s.busError).ocm = s.ocm := rfl
@[simp] theorem State.busError_pk (s : State) : (s.busError).pk = s.pk := rfl
@[simp] theorem State.busError_boot (s : State) : (s.busError).boot = s.boot := rfl
@[simp] theorem State.busError_sec (s : State) : (s.busError).sec = s.sec := rfl
@[simp] theorem State.busError_fz (s : State) : (s.busError).fz = s.fz := rfl
@[simp] theorem State.busError_starve (s : State) : (s.busError).starve = s.starve := rfl
@[simp] theorem State.busError_arbs (s : State) : (s.busError).arbs = s.arbs := rfl
@[simp] theorem State.busError_pending (s : State) : (s.busError).pending = s.pending := rfl

/-! ### draw -/

@[simp] theorem State.draw_regs (s : State) (w : Nat) : ((s.draw w).2).regs = s.regs := rfl
@[simp] theorem State.draw_mem (s : State) (w : Nat) : ((s.draw w).2).mem = s.mem := rfl
@[simp] theorem State.draw_now (s : State) (w : Nat) : ((s.draw w).2).now = s.now := rfl
@[simp] theorem State.draw_bus (s : State) (w : Nat) : ((s.draw w).2).bus = s.bus := rfl
@[simp] theorem State.draw_evh (s : State) (w : Nat) : ((s.draw w).2).evh = s.evh := rfl
@[simp] theorem State.draw_store (s : State) (w : Nat) : ((s.draw w).2).store = s.store := rfl
@[simp] theorem State.draw_time (s : State) (w : Nat) : ((s.draw w).2).time = s.time := rfl
@[simp] theorem State.draw_engs (s : State) (w : Nat) : ((s.draw w).2).engs = s.engs := rfl
@[simp] theorem State.draw_engArr (s : State) (w : Nat) : ((s.draw w).2).engArr = s.engArr := rfl
@[simp] theorem State.draw_hif (s : State) (w : Nat) : ((s.draw w).2).hif = s.hif := rfl
@[simp] theorem State.draw_sw (s : State) (w : Nat) : ((s.draw w).2).sw = s.sw := rfl
@[simp] theorem State.draw_cmd (s : State) (w : Nat) : ((s.draw w).2).cmd = s.cmd := rfl
@[simp] theorem State.draw_pat (s : State) (w : Nat) : ((s.draw w).2).pat = s.pat := rfl
@[simp] theorem State.draw_can (s : State) (w : Nat) : ((s.draw w).2).can = s.can := rfl
@[simp] theorem State.draw_rasp (s : State) (w : Nat) : ((s.draw w).2).rasp = s.rasp := rfl
@[simp] theorem State.draw_dma (s : State) (w : Nat) : ((s.draw w).2).dma = s.dma := rfl
@[simp] theorem State.draw_packs (s : State) (w : Nat) : ((s.draw w).2).packs = s.packs := rfl
@[simp] theorem State.draw_field (s : State) (w : Nat) : ((s.draw w).2).field = s.field := rfl
@[simp] theorem State.draw_pwr (s : State) (w : Nat) : ((s.draw w).2).pwr = s.pwr := rfl
@[simp] theorem State.draw_ocm (s : State) (w : Nat) : ((s.draw w).2).ocm = s.ocm := rfl
@[simp] theorem State.draw_pk (s : State) (w : Nat) : ((s.draw w).2).pk = s.pk := rfl
@[simp] theorem State.draw_boot (s : State) (w : Nat) : ((s.draw w).2).boot = s.boot := rfl
@[simp] theorem State.draw_sec (s : State) (w : Nat) : ((s.draw w).2).sec = s.sec := rfl
@[simp] theorem State.draw_fz (s : State) (w : Nat) : ((s.draw w).2).fz = s.fz := rfl
@[simp] theorem State.draw_starve (s : State) (w : Nat) : ((s.draw w).2).starve = s.starve := rfl
@[simp] theorem State.draw_arbs (s : State) (w : Nat) : ((s.draw w).2).arbs = s.arbs := rfl
@[simp] theorem State.draw_pending (s : State) (w : Nat) : ((s.draw w).2).pending = s.pending := rfl

/-! ### mwr -/

@[simp] theorem State.mwr_regs (s : State) (sp : Space) (a : Nat) (b : Byte) : (s.mwr sp a b).regs = s.regs := rfl
@[simp] theorem State.mwr_now (s : State) (sp : Space) (a : Nat) (b : Byte) : (s.mwr sp a b).now = s.now := rfl
@[simp] theorem State.mwr_freeCtr (s : State) (sp : Space) (a : Nat) (b : Byte) : (s.mwr sp a b).freeCtr = s.freeCtr := rfl
@[simp] theorem State.mwr_bus (s : State) (sp : Space) (a : Nat) (b : Byte) : (s.mwr sp a b).bus = s.bus := rfl
@[simp] theorem State.mwr_evh (s : State) (sp : Space) (a : Nat) (b : Byte) : (s.mwr sp a b).evh = s.evh := rfl
@[simp] theorem State.mwr_store (s : State) (sp : Space) (a : Nat) (b : Byte) : (s.mwr sp a b).store = s.store := rfl
@[simp] theorem State.mwr_time (s : State) (sp : Space) (a : Nat) (b : Byte) : (s.mwr sp a b).time = s.time := rfl
@[simp] theorem State.mwr_engs (s : State) (sp : Space) (a : Nat) (b : Byte) : (s.mwr sp a b).engs = s.engs := rfl
@[simp] theorem State.mwr_engArr (s : State) (sp : Space) (a : Nat) (b : Byte) : (s.mwr sp a b).engArr = s.engArr := rfl
@[simp] theorem State.mwr_hif (s : State) (sp : Space) (a : Nat) (b : Byte) : (s.mwr sp a b).hif = s.hif := rfl
@[simp] theorem State.mwr_sw (s : State) (sp : Space) (a : Nat) (b : Byte) : (s.mwr sp a b).sw = s.sw := rfl
@[simp] theorem State.mwr_cmd (s : State) (sp : Space) (a : Nat) (b : Byte) : (s.mwr sp a b).cmd = s.cmd := rfl
@[simp] theorem State.mwr_pat (s : State) (sp : Space) (a : Nat) (b : Byte) : (s.mwr sp a b).pat = s.pat := rfl
@[simp] theorem State.mwr_can (s : State) (sp : Space) (a : Nat) (b : Byte) : (s.mwr sp a b).can = s.can := rfl
@[simp] theorem State.mwr_rasp (s : State) (sp : Space) (a : Nat) (b : Byte) : (s.mwr sp a b).rasp = s.rasp := rfl
@[simp] theorem State.mwr_dma (s : State) (sp : Space) (a : Nat) (b : Byte) : (s.mwr sp a b).dma = s.dma := rfl
@[simp] theorem State.mwr_packs (s : State) (sp : Space) (a : Nat) (b : Byte) : (s.mwr sp a b).packs = s.packs := rfl
@[simp] theorem State.mwr_field (s : State) (sp : Space) (a : Nat) (b : Byte) : (s.mwr sp a b).field = s.field := rfl
@[simp] theorem State.mwr_pwr (s : State) (sp : Space) (a : Nat) (b : Byte) : (s.mwr sp a b).pwr = s.pwr := rfl
@[simp] theorem State.mwr_ocm (s : State) (sp : Space) (a : Nat) (b : Byte) : (s.mwr sp a b).ocm = s.ocm := rfl
@[simp] theorem State.mwr_pk (s : State) (sp : Space) (a : Nat) (b : Byte) : (s.mwr sp a b).pk = s.pk := rfl
@[simp] theorem State.mwr_boot (s : State) (sp : Space) (a : Nat) (b : Byte) : (s.mwr sp a b).boot = s.boot := rfl
@[simp] theorem State.mwr_sec (s : State) (sp : Space) (a : Nat) (b : Byte) : (s.mwr sp a b).sec = s.sec := rfl
@[simp] theorem State.mwr_fz (s : State) (sp : Space) (a : Nat) (b : Byte) : (s.mwr sp a b).fz = s.fz := rfl
@[simp] theorem State.mwr_starve (s : State) (sp : Space) (a : Nat) (b : Byte) : (s.mwr sp a b).starve = s.starve := rfl
@[simp] theorem State.mwr_arbs (s : State) (sp : Space) (a : Nat) (b : Byte) : (s.mwr sp a b).arbs = s.arbs := rfl
@[simp] theorem State.mwr_pending (s : State) (sp : Space) (a : Nat) (b : Byte) : (s.mwr sp a b).pending = s.pending := rfl

/-! ### zero -/

@[simp] theorem State.zero_regs (s : State) (sp : Space) (a n : Nat) : (s.zero sp a n).regs = s.regs := rfl
@[simp] theorem State.zero_now (s : State) (sp : Space) (a n : Nat) : (s.zero sp a n).now = s.now := rfl
@[simp] theorem State.zero_freeCtr (s : State) (sp : Space) (a n : Nat) : (s.zero sp a n).freeCtr = s.freeCtr := rfl
@[simp] theorem State.zero_bus (s : State) (sp : Space) (a n : Nat) : (s.zero sp a n).bus = s.bus := rfl
@[simp] theorem State.zero_evh (s : State) (sp : Space) (a n : Nat) : (s.zero sp a n).evh = s.evh := rfl
@[simp] theorem State.zero_store (s : State) (sp : Space) (a n : Nat) : (s.zero sp a n).store = s.store := rfl
@[simp] theorem State.zero_time (s : State) (sp : Space) (a n : Nat) : (s.zero sp a n).time = s.time := rfl
@[simp] theorem State.zero_engs (s : State) (sp : Space) (a n : Nat) : (s.zero sp a n).engs = s.engs := rfl
@[simp] theorem State.zero_engArr (s : State) (sp : Space) (a n : Nat) : (s.zero sp a n).engArr = s.engArr := rfl
@[simp] theorem State.zero_hif (s : State) (sp : Space) (a n : Nat) : (s.zero sp a n).hif = s.hif := rfl
@[simp] theorem State.zero_sw (s : State) (sp : Space) (a n : Nat) : (s.zero sp a n).sw = s.sw := rfl
@[simp] theorem State.zero_cmd (s : State) (sp : Space) (a n : Nat) : (s.zero sp a n).cmd = s.cmd := rfl
@[simp] theorem State.zero_pat (s : State) (sp : Space) (a n : Nat) : (s.zero sp a n).pat = s.pat := rfl
@[simp] theorem State.zero_can (s : State) (sp : Space) (a n : Nat) : (s.zero sp a n).can = s.can := rfl
@[simp] theorem State.zero_rasp (s : State) (sp : Space) (a n : Nat) : (s.zero sp a n).rasp = s.rasp := rfl
@[simp] theorem State.zero_dma (s : State) (sp : Space) (a n : Nat) : (s.zero sp a n).dma = s.dma := rfl
@[simp] theorem State.zero_packs (s : State) (sp : Space) (a n : Nat) : (s.zero sp a n).packs = s.packs := rfl
@[simp] theorem State.zero_field (s : State) (sp : Space) (a n : Nat) : (s.zero sp a n).field = s.field := rfl
@[simp] theorem State.zero_pwr (s : State) (sp : Space) (a n : Nat) : (s.zero sp a n).pwr = s.pwr := rfl
@[simp] theorem State.zero_ocm (s : State) (sp : Space) (a n : Nat) : (s.zero sp a n).ocm = s.ocm := rfl
@[simp] theorem State.zero_pk (s : State) (sp : Space) (a n : Nat) : (s.zero sp a n).pk = s.pk := rfl
@[simp] theorem State.zero_boot (s : State) (sp : Space) (a n : Nat) : (s.zero sp a n).boot = s.boot := rfl
@[simp] theorem State.zero_sec (s : State) (sp : Space) (a n : Nat) : (s.zero sp a n).sec = s.sec := rfl
@[simp] theorem State.zero_fz (s : State) (sp : Space) (a n : Nat) : (s.zero sp a n).fz = s.fz := rfl
@[simp] theorem State.zero_starve (s : State) (sp : Space) (a n : Nat) : (s.zero sp a n).starve = s.starve := rfl
@[simp] theorem State.zero_arbs (s : State) (sp : Space) (a n : Nat) : (s.zero sp a n).arbs = s.arbs := rfl
@[simp] theorem State.zero_pending (s : State) (sp : Space) (a n : Nat) : (s.zero sp a n).pending = s.pending := rfl

/-! ### setEng -/

@[simp] theorem State.setEng_regs (s : State) (e : Nat) (x : Eng) : (s.setEng e x).regs = s.regs := rfl
@[simp] theorem State.setEng_mem (s : State) (e : Nat) (x : Eng) : (s.setEng e x).mem = s.mem := rfl
@[simp] theorem State.setEng_now (s : State) (e : Nat) (x : Eng) : (s.setEng e x).now = s.now := rfl
@[simp] theorem State.setEng_freeCtr (s : State) (e : Nat) (x : Eng) : (s.setEng e x).freeCtr = s.freeCtr := rfl
@[simp] theorem State.setEng_bus (s : State) (e : Nat) (x : Eng) : (s.setEng e x).bus = s.bus := rfl
@[simp] theorem State.setEng_evh (s : State) (e : Nat) (x : Eng) : (s.setEng e x).evh = s.evh := rfl
@[simp] theorem State.setEng_store (s : State) (e : Nat) (x : Eng) : (s.setEng e x).store = s.store := rfl
@[simp] theorem State.setEng_time (s : State) (e : Nat) (x : Eng) : (s.setEng e x).time = s.time := rfl
@[simp] theorem State.setEng_engArr (s : State) (e : Nat) (x : Eng) : (s.setEng e x).engArr = s.engArr := rfl
@[simp] theorem State.setEng_hif (s : State) (e : Nat) (x : Eng) : (s.setEng e x).hif = s.hif := rfl
@[simp] theorem State.setEng_sw (s : State) (e : Nat) (x : Eng) : (s.setEng e x).sw = s.sw := rfl
@[simp] theorem State.setEng_cmd (s : State) (e : Nat) (x : Eng) : (s.setEng e x).cmd = s.cmd := rfl
@[simp] theorem State.setEng_pat (s : State) (e : Nat) (x : Eng) : (s.setEng e x).pat = s.pat := rfl
@[simp] theorem State.setEng_can (s : State) (e : Nat) (x : Eng) : (s.setEng e x).can = s.can := rfl
@[simp] theorem State.setEng_rasp (s : State) (e : Nat) (x : Eng) : (s.setEng e x).rasp = s.rasp := rfl
@[simp] theorem State.setEng_dma (s : State) (e : Nat) (x : Eng) : (s.setEng e x).dma = s.dma := rfl
@[simp] theorem State.setEng_packs (s : State) (e : Nat) (x : Eng) : (s.setEng e x).packs = s.packs := rfl
@[simp] theorem State.setEng_field (s : State) (e : Nat) (x : Eng) : (s.setEng e x).field = s.field := rfl
@[simp] theorem State.setEng_pwr (s : State) (e : Nat) (x : Eng) : (s.setEng e x).pwr = s.pwr := rfl
@[simp] theorem State.setEng_ocm (s : State) (e : Nat) (x : Eng) : (s.setEng e x).ocm = s.ocm := rfl
@[simp] theorem State.setEng_pk (s : State) (e : Nat) (x : Eng) : (s.setEng e x).pk = s.pk := rfl
@[simp] theorem State.setEng_boot (s : State) (e : Nat) (x : Eng) : (s.setEng e x).boot = s.boot := rfl
@[simp] theorem State.setEng_sec (s : State) (e : Nat) (x : Eng) : (s.setEng e x).sec = s.sec := rfl
@[simp] theorem State.setEng_fz (s : State) (e : Nat) (x : Eng) : (s.setEng e x).fz = s.fz := rfl
@[simp] theorem State.setEng_starve (s : State) (e : Nat) (x : Eng) : (s.setEng e x).starve = s.starve := rfl
@[simp] theorem State.setEng_arbs (s : State) (e : Nat) (x : Eng) : (s.setEng e x).arbs = s.arbs := rfl
@[simp] theorem State.setEng_pending (s : State) (e : Nat) (x : Eng) : (s.setEng e x).pending = s.pending := rfl

/-! ### modEng -/

@[simp] theorem State.modEng_regs (s : State) (e : Nat) (f : Eng → Eng) : (s.modEng e f).regs = s.regs := rfl
@[simp] theorem State.modEng_mem (s : State) (e : Nat) (f : Eng → Eng) : (s.modEng e f).mem = s.mem := rfl
@[simp] theorem State.modEng_now (s : State) (e : Nat) (f : Eng → Eng) : (s.modEng e f).now = s.now := rfl
@[simp] theorem State.modEng_freeCtr (s : State) (e : Nat) (f : Eng → Eng) : (s.modEng e f).freeCtr = s.freeCtr := rfl
@[simp] theorem State.modEng_bus (s : State) (e : Nat) (f : Eng → Eng) : (s.modEng e f).bus = s.bus := rfl
@[simp] theorem State.modEng_evh (s : State) (e : Nat) (f : Eng → Eng) : (s.modEng e f).evh = s.evh := rfl
@[simp] theorem State.modEng_store (s : State) (e : Nat) (f : Eng → Eng) : (s.modEng e f).store = s.store := rfl
@[simp] theorem State.modEng_time (s : State) (e : Nat) (f : Eng → Eng) : (s.modEng e f).time = s.time := rfl
@[simp] theorem State.modEng_engArr (s : State) (e : Nat) (f : Eng → Eng) : (s.modEng e f).engArr = s.engArr := rfl
@[simp] theorem State.modEng_hif (s : State) (e : Nat) (f : Eng → Eng) : (s.modEng e f).hif = s.hif := rfl
@[simp] theorem State.modEng_sw (s : State) (e : Nat) (f : Eng → Eng) : (s.modEng e f).sw = s.sw := rfl
@[simp] theorem State.modEng_cmd (s : State) (e : Nat) (f : Eng → Eng) : (s.modEng e f).cmd = s.cmd := rfl
@[simp] theorem State.modEng_pat (s : State) (e : Nat) (f : Eng → Eng) : (s.modEng e f).pat = s.pat := rfl
@[simp] theorem State.modEng_can (s : State) (e : Nat) (f : Eng → Eng) : (s.modEng e f).can = s.can := rfl
@[simp] theorem State.modEng_rasp (s : State) (e : Nat) (f : Eng → Eng) : (s.modEng e f).rasp = s.rasp := rfl
@[simp] theorem State.modEng_dma (s : State) (e : Nat) (f : Eng → Eng) : (s.modEng e f).dma = s.dma := rfl
@[simp] theorem State.modEng_packs (s : State) (e : Nat) (f : Eng → Eng) : (s.modEng e f).packs = s.packs := rfl
@[simp] theorem State.modEng_field (s : State) (e : Nat) (f : Eng → Eng) : (s.modEng e f).field = s.field := rfl
@[simp] theorem State.modEng_pwr (s : State) (e : Nat) (f : Eng → Eng) : (s.modEng e f).pwr = s.pwr := rfl
@[simp] theorem State.modEng_ocm (s : State) (e : Nat) (f : Eng → Eng) : (s.modEng e f).ocm = s.ocm := rfl
@[simp] theorem State.modEng_pk (s : State) (e : Nat) (f : Eng → Eng) : (s.modEng e f).pk = s.pk := rfl
@[simp] theorem State.modEng_boot (s : State) (e : Nat) (f : Eng → Eng) : (s.modEng e f).boot = s.boot := rfl
@[simp] theorem State.modEng_sec (s : State) (e : Nat) (f : Eng → Eng) : (s.modEng e f).sec = s.sec := rfl
@[simp] theorem State.modEng_fz (s : State) (e : Nat) (f : Eng → Eng) : (s.modEng e f).fz = s.fz := rfl
@[simp] theorem State.modEng_starve (s : State) (e : Nat) (f : Eng → Eng) : (s.modEng e f).starve = s.starve := rfl
@[simp] theorem State.modEng_arbs (s : State) (e : Nat) (f : Eng → Eng) : (s.modEng e f).arbs = s.arbs := rfl
@[simp] theorem State.modEng_pending (s : State) (e : Nat) (f : Eng → Eng) : (s.modEng e f).pending = s.pending := rfl

/-! ### setDq -/

@[simp] theorem State.setDq_regs (s : State) (q : Nat) (x : DqSt) : (s.setDq q x).regs = s.regs := rfl
@[simp] theorem State.setDq_mem (s : State) (q : Nat) (x : DqSt) : (s.setDq q x).mem = s.mem := rfl
@[simp] theorem State.setDq_now (s : State) (q : Nat) (x : DqSt) : (s.setDq q x).now = s.now := rfl
@[simp] theorem State.setDq_freeCtr (s : State) (q : Nat) (x : DqSt) : (s.setDq q x).freeCtr = s.freeCtr := rfl
@[simp] theorem State.setDq_bus (s : State) (q : Nat) (x : DqSt) : (s.setDq q x).bus = s.bus := rfl
@[simp] theorem State.setDq_evh (s : State) (q : Nat) (x : DqSt) : (s.setDq q x).evh = s.evh := rfl
@[simp] theorem State.setDq_store (s : State) (q : Nat) (x : DqSt) : (s.setDq q x).store = s.store := rfl
@[simp] theorem State.setDq_time (s : State) (q : Nat) (x : DqSt) : (s.setDq q x).time = s.time := rfl
@[simp] theorem State.setDq_engs (s : State) (q : Nat) (x : DqSt) : (s.setDq q x).engs = s.engs := rfl
@[simp] theorem State.setDq_engArr (s : State) (q : Nat) (x : DqSt) : (s.setDq q x).engArr = s.engArr := rfl
@[simp] theorem State.setDq_hif (s : State) (q : Nat) (x : DqSt) : (s.setDq q x).hif = s.hif := rfl
@[simp] theorem State.setDq_sw (s : State) (q : Nat) (x : DqSt) : (s.setDq q x).sw = s.sw := rfl
@[simp] theorem State.setDq_cmd (s : State) (q : Nat) (x : DqSt) : (s.setDq q x).cmd = s.cmd := rfl
@[simp] theorem State.setDq_pat (s : State) (q : Nat) (x : DqSt) : (s.setDq q x).pat = s.pat := rfl
@[simp] theorem State.setDq_can (s : State) (q : Nat) (x : DqSt) : (s.setDq q x).can = s.can := rfl
@[simp] theorem State.setDq_rasp (s : State) (q : Nat) (x : DqSt) : (s.setDq q x).rasp = s.rasp := rfl
@[simp] theorem State.setDq_packs (s : State) (q : Nat) (x : DqSt) : (s.setDq q x).packs = s.packs := rfl
@[simp] theorem State.setDq_field (s : State) (q : Nat) (x : DqSt) : (s.setDq q x).field = s.field := rfl
@[simp] theorem State.setDq_pwr (s : State) (q : Nat) (x : DqSt) : (s.setDq q x).pwr = s.pwr := rfl
@[simp] theorem State.setDq_ocm (s : State) (q : Nat) (x : DqSt) : (s.setDq q x).ocm = s.ocm := rfl
@[simp] theorem State.setDq_pk (s : State) (q : Nat) (x : DqSt) : (s.setDq q x).pk = s.pk := rfl
@[simp] theorem State.setDq_boot (s : State) (q : Nat) (x : DqSt) : (s.setDq q x).boot = s.boot := rfl
@[simp] theorem State.setDq_sec (s : State) (q : Nat) (x : DqSt) : (s.setDq q x).sec = s.sec := rfl
@[simp] theorem State.setDq_fz (s : State) (q : Nat) (x : DqSt) : (s.setDq q x).fz = s.fz := rfl
@[simp] theorem State.setDq_starve (s : State) (q : Nat) (x : DqSt) : (s.setDq q x).starve = s.starve := rfl
@[simp] theorem State.setDq_arbs (s : State) (q : Nat) (x : DqSt) : (s.setDq q x).arbs = s.arbs := rfl
@[simp] theorem State.setDq_pending (s : State) (q : Nat) (x : DqSt) : (s.setDq q x).pending = s.pending := rfl

/-! ### setCb -/

@[simp] theorem State.setCb_regs (s : State) (n : Nat) (x : CanSt) : (s.setCb n x).regs = s.regs := rfl
@[simp] theorem State.setCb_mem (s : State) (n : Nat) (x : CanSt) : (s.setCb n x).mem = s.mem := rfl
@[simp] theorem State.setCb_now (s : State) (n : Nat) (x : CanSt) : (s.setCb n x).now = s.now := rfl
@[simp] theorem State.setCb_freeCtr (s : State) (n : Nat) (x : CanSt) : (s.setCb n x).freeCtr = s.freeCtr := rfl
@[simp] theorem State.setCb_bus (s : State) (n : Nat) (x : CanSt) : (s.setCb n x).bus = s.bus := rfl
@[simp] theorem State.setCb_evh (s : State) (n : Nat) (x : CanSt) : (s.setCb n x).evh = s.evh := rfl
@[simp] theorem State.setCb_store (s : State) (n : Nat) (x : CanSt) : (s.setCb n x).store = s.store := rfl
@[simp] theorem State.setCb_time (s : State) (n : Nat) (x : CanSt) : (s.setCb n x).time = s.time := rfl
@[simp] theorem State.setCb_engs (s : State) (n : Nat) (x : CanSt) : (s.setCb n x).engs = s.engs := rfl
@[simp] theorem State.setCb_engArr (s : State) (n : Nat) (x : CanSt) : (s.setCb n x).engArr = s.engArr := rfl
@[simp] theorem State.setCb_hif (s : State) (n : Nat) (x : CanSt) : (s.setCb n x).hif = s.hif := rfl
@[simp] theorem State.setCb_sw (s : State) (n : Nat) (x : CanSt) : (s.setCb n x).sw = s.sw := rfl
@[simp] theorem State.setCb_cmd (s : State) (n : Nat) (x : CanSt) : (s.setCb n x).cmd = s.cmd := rfl
@[simp] theorem State.setCb_pat (s : State) (n : Nat) (x : CanSt) : (s.setCb n x).pat = s.pat := rfl
@[simp] theorem State.setCb_rasp (s : State) (n : Nat) (x : CanSt) : (s.setCb n x).rasp = s.rasp := rfl
@[simp] theorem State.setCb_dma (s : State) (n : Nat) (x : CanSt) : (s.setCb n x).dma = s.dma := rfl
@[simp] theorem State.setCb_packs (s : State) (n : Nat) (x : CanSt) : (s.setCb n x).packs = s.packs := rfl
@[simp] theorem State.setCb_field (s : State) (n : Nat) (x : CanSt) : (s.setCb n x).field = s.field := rfl
@[simp] theorem State.setCb_pwr (s : State) (n : Nat) (x : CanSt) : (s.setCb n x).pwr = s.pwr := rfl
@[simp] theorem State.setCb_ocm (s : State) (n : Nat) (x : CanSt) : (s.setCb n x).ocm = s.ocm := rfl
@[simp] theorem State.setCb_pk (s : State) (n : Nat) (x : CanSt) : (s.setCb n x).pk = s.pk := rfl
@[simp] theorem State.setCb_boot (s : State) (n : Nat) (x : CanSt) : (s.setCb n x).boot = s.boot := rfl
@[simp] theorem State.setCb_sec (s : State) (n : Nat) (x : CanSt) : (s.setCb n x).sec = s.sec := rfl
@[simp] theorem State.setCb_fz (s : State) (n : Nat) (x : CanSt) : (s.setCb n x).fz = s.fz := rfl
@[simp] theorem State.setCb_starve (s : State) (n : Nat) (x : CanSt) : (s.setCb n x).starve = s.starve := rfl
@[simp] theorem State.setCb_arbs (s : State) (n : Nat) (x : CanSt) : (s.setCb n x).arbs = s.arbs := rfl
@[simp] theorem State.setCb_pending (s : State) (n : Nat) (x : CanSt) : (s.setCb n x).pending = s.pending := rfl

/-! ### setPort -/

@[simp] theorem State.setPort_regs (s : State) (p : Nat) (x : PortSt) : (s.setPort p x).regs = s.regs := rfl
@[simp] theorem State.setPort_mem (s : State) (p : Nat) (x : PortSt) : (s.setPort p x).mem = s.mem := rfl
@[simp] theorem State.setPort_now (s : State) (p : Nat) (x : PortSt) : (s.setPort p x).now = s.now := rfl
@[simp] theorem State.setPort_freeCtr (s : State) (p : Nat) (x : PortSt) : (s.setPort p x).freeCtr = s.freeCtr := rfl
@[simp] theorem State.setPort_bus (s : State) (p : Nat) (x : PortSt) : (s.setPort p x).bus = s.bus := rfl
@[simp] theorem State.setPort_evh (s : State) (p : Nat) (x : PortSt) : (s.setPort p x).evh = s.evh := rfl
@[simp] theorem State.setPort_store (s : State) (p : Nat) (x : PortSt) : (s.setPort p x).store = s.store := rfl
@[simp] theorem State.setPort_time (s : State) (p : Nat) (x : PortSt) : (s.setPort p x).time = s.time := rfl
@[simp] theorem State.setPort_engs (s : State) (p : Nat) (x : PortSt) : (s.setPort p x).engs = s.engs := rfl
@[simp] theorem State.setPort_engArr (s : State) (p : Nat) (x : PortSt) : (s.setPort p x).engArr = s.engArr := rfl
@[simp] theorem State.setPort_hif (s : State) (p : Nat) (x : PortSt) : (s.setPort p x).hif = s.hif := rfl
@[simp] theorem State.setPort_cmd (s : State) (p : Nat) (x : PortSt) : (s.setPort p x).cmd = s.cmd := rfl
@[simp] theorem State.setPort_pat (s : State) (p : Nat) (x : PortSt) : (s.setPort p x).pat = s.pat := rfl
@[simp] theorem State.setPort_can (s : State) (p : Nat) (x : PortSt) : (s.setPort p x).can = s.can := rfl
@[simp] theorem State.setPort_rasp (s : State) (p : Nat) (x : PortSt) : (s.setPort p x).rasp = s.rasp := rfl
@[simp] theorem State.setPort_dma (s : State) (p : Nat) (x : PortSt) : (s.setPort p x).dma = s.dma := rfl
@[simp] theorem State.setPort_packs (s : State) (p : Nat) (x : PortSt) : (s.setPort p x).packs = s.packs := rfl
@[simp] theorem State.setPort_field (s : State) (p : Nat) (x : PortSt) : (s.setPort p x).field = s.field := rfl
@[simp] theorem State.setPort_pwr (s : State) (p : Nat) (x : PortSt) : (s.setPort p x).pwr = s.pwr := rfl
@[simp] theorem State.setPort_ocm (s : State) (p : Nat) (x : PortSt) : (s.setPort p x).ocm = s.ocm := rfl
@[simp] theorem State.setPort_pk (s : State) (p : Nat) (x : PortSt) : (s.setPort p x).pk = s.pk := rfl
@[simp] theorem State.setPort_boot (s : State) (p : Nat) (x : PortSt) : (s.setPort p x).boot = s.boot := rfl
@[simp] theorem State.setPort_sec (s : State) (p : Nat) (x : PortSt) : (s.setPort p x).sec = s.sec := rfl
@[simp] theorem State.setPort_fz (s : State) (p : Nat) (x : PortSt) : (s.setPort p x).fz = s.fz := rfl
@[simp] theorem State.setPort_starve (s : State) (p : Nat) (x : PortSt) : (s.setPort p x).starve = s.starve := rfl
@[simp] theorem State.setPort_arbs (s : State) (p : Nat) (x : PortSt) : (s.setPort p x).arbs = s.arbs := rfl
@[simp] theorem State.setPort_pending (s : State) (p : Nat) (x : PortSt) : (s.setPort p x).pending = s.pending := rfl

/-! ### setGcl -/

@[simp] theorem State.setGcl_regs (s : State) (p : Nat) (x : GclSt) : (s.setGcl p x).regs = s.regs := rfl
@[simp] theorem State.setGcl_mem (s : State) (p : Nat) (x : GclSt) : (s.setGcl p x).mem = s.mem := rfl
@[simp] theorem State.setGcl_now (s : State) (p : Nat) (x : GclSt) : (s.setGcl p x).now = s.now := rfl
@[simp] theorem State.setGcl_freeCtr (s : State) (p : Nat) (x : GclSt) : (s.setGcl p x).freeCtr = s.freeCtr := rfl
@[simp] theorem State.setGcl_bus (s : State) (p : Nat) (x : GclSt) : (s.setGcl p x).bus = s.bus := rfl
@[simp] theorem State.setGcl_evh (s : State) (p : Nat) (x : GclSt) : (s.setGcl p x).evh = s.evh := rfl
@[simp] theorem State.setGcl_store (s : State) (p : Nat) (x : GclSt) : (s.setGcl p x).store = s.store := rfl
@[simp] theorem State.setGcl_time (s : State) (p : Nat) (x : GclSt) : (s.setGcl p x).time = s.time := rfl
@[simp] theorem State.setGcl_engs (s : State) (p : Nat) (x : GclSt) : (s.setGcl p x).engs = s.engs := rfl
@[simp] theorem State.setGcl_engArr (s : State) (p : Nat) (x : GclSt) : (s.setGcl p x).engArr = s.engArr := rfl
@[simp] theorem State.setGcl_hif (s : State) (p : Nat) (x : GclSt) : (s.setGcl p x).hif = s.hif := rfl
@[simp] theorem State.setGcl_cmd (s : State) (p : Nat) (x : GclSt) : (s.setGcl p x).cmd = s.cmd := rfl
@[simp] theorem State.setGcl_pat (s : State) (p : Nat) (x : GclSt) : (s.setGcl p x).pat = s.pat := rfl
@[simp] theorem State.setGcl_can (s : State) (p : Nat) (x : GclSt) : (s.setGcl p x).can = s.can := rfl
@[simp] theorem State.setGcl_rasp (s : State) (p : Nat) (x : GclSt) : (s.setGcl p x).rasp = s.rasp := rfl
@[simp] theorem State.setGcl_dma (s : State) (p : Nat) (x : GclSt) : (s.setGcl p x).dma = s.dma := rfl
@[simp] theorem State.setGcl_packs (s : State) (p : Nat) (x : GclSt) : (s.setGcl p x).packs = s.packs := rfl
@[simp] theorem State.setGcl_field (s : State) (p : Nat) (x : GclSt) : (s.setGcl p x).field = s.field := rfl
@[simp] theorem State.setGcl_pwr (s : State) (p : Nat) (x : GclSt) : (s.setGcl p x).pwr = s.pwr := rfl
@[simp] theorem State.setGcl_ocm (s : State) (p : Nat) (x : GclSt) : (s.setGcl p x).ocm = s.ocm := rfl
@[simp] theorem State.setGcl_pk (s : State) (p : Nat) (x : GclSt) : (s.setGcl p x).pk = s.pk := rfl
@[simp] theorem State.setGcl_boot (s : State) (p : Nat) (x : GclSt) : (s.setGcl p x).boot = s.boot := rfl
@[simp] theorem State.setGcl_sec (s : State) (p : Nat) (x : GclSt) : (s.setGcl p x).sec = s.sec := rfl
@[simp] theorem State.setGcl_fz (s : State) (p : Nat) (x : GclSt) : (s.setGcl p x).fz = s.fz := rfl
@[simp] theorem State.setGcl_starve (s : State) (p : Nat) (x : GclSt) : (s.setGcl p x).starve = s.starve := rfl
@[simp] theorem State.setGcl_arbs (s : State) (p : Nat) (x : GclSt) : (s.setGcl p x).arbs = s.arbs := rfl
@[simp] theorem State.setGcl_pending (s : State) (p : Nat) (x : GclSt) : (s.setGcl p x).pending = s.pending := rfl

/-! ### setUnit -/

@[simp] theorem State.setUnit_regs (s : State) (u : Nat) (x : RaspSt) : (s.setUnit u x).regs = s.regs := rfl
@[simp] theorem State.setUnit_mem (s : State) (u : Nat) (x : RaspSt) : (s.setUnit u x).mem = s.mem := rfl
@[simp] theorem State.setUnit_now (s : State) (u : Nat) (x : RaspSt) : (s.setUnit u x).now = s.now := rfl
@[simp] theorem State.setUnit_freeCtr (s : State) (u : Nat) (x : RaspSt) : (s.setUnit u x).freeCtr = s.freeCtr := rfl
@[simp] theorem State.setUnit_bus (s : State) (u : Nat) (x : RaspSt) : (s.setUnit u x).bus = s.bus := rfl
@[simp] theorem State.setUnit_evh (s : State) (u : Nat) (x : RaspSt) : (s.setUnit u x).evh = s.evh := rfl
@[simp] theorem State.setUnit_store (s : State) (u : Nat) (x : RaspSt) : (s.setUnit u x).store = s.store := rfl
@[simp] theorem State.setUnit_time (s : State) (u : Nat) (x : RaspSt) : (s.setUnit u x).time = s.time := rfl
@[simp] theorem State.setUnit_engs (s : State) (u : Nat) (x : RaspSt) : (s.setUnit u x).engs = s.engs := rfl
@[simp] theorem State.setUnit_engArr (s : State) (u : Nat) (x : RaspSt) : (s.setUnit u x).engArr = s.engArr := rfl
@[simp] theorem State.setUnit_hif (s : State) (u : Nat) (x : RaspSt) : (s.setUnit u x).hif = s.hif := rfl
@[simp] theorem State.setUnit_sw (s : State) (u : Nat) (x : RaspSt) : (s.setUnit u x).sw = s.sw := rfl
@[simp] theorem State.setUnit_cmd (s : State) (u : Nat) (x : RaspSt) : (s.setUnit u x).cmd = s.cmd := rfl
@[simp] theorem State.setUnit_pat (s : State) (u : Nat) (x : RaspSt) : (s.setUnit u x).pat = s.pat := rfl
@[simp] theorem State.setUnit_can (s : State) (u : Nat) (x : RaspSt) : (s.setUnit u x).can = s.can := rfl
@[simp] theorem State.setUnit_dma (s : State) (u : Nat) (x : RaspSt) : (s.setUnit u x).dma = s.dma := rfl
@[simp] theorem State.setUnit_packs (s : State) (u : Nat) (x : RaspSt) : (s.setUnit u x).packs = s.packs := rfl
@[simp] theorem State.setUnit_field (s : State) (u : Nat) (x : RaspSt) : (s.setUnit u x).field = s.field := rfl
@[simp] theorem State.setUnit_pwr (s : State) (u : Nat) (x : RaspSt) : (s.setUnit u x).pwr = s.pwr := rfl
@[simp] theorem State.setUnit_ocm (s : State) (u : Nat) (x : RaspSt) : (s.setUnit u x).ocm = s.ocm := rfl
@[simp] theorem State.setUnit_pk (s : State) (u : Nat) (x : RaspSt) : (s.setUnit u x).pk = s.pk := rfl
@[simp] theorem State.setUnit_boot (s : State) (u : Nat) (x : RaspSt) : (s.setUnit u x).boot = s.boot := rfl
@[simp] theorem State.setUnit_sec (s : State) (u : Nat) (x : RaspSt) : (s.setUnit u x).sec = s.sec := rfl
@[simp] theorem State.setUnit_fz (s : State) (u : Nat) (x : RaspSt) : (s.setUnit u x).fz = s.fz := rfl
@[simp] theorem State.setUnit_starve (s : State) (u : Nat) (x : RaspSt) : (s.setUnit u x).starve = s.starve := rfl
@[simp] theorem State.setUnit_arbs (s : State) (u : Nat) (x : RaspSt) : (s.setUnit u x).arbs = s.arbs := rfl
@[simp] theorem State.setUnit_pending (s : State) (u : Nat) (x : RaspSt) : (s.setUnit u x).pending = s.pending := rfl

/-! ### setFx -/

@[simp] theorem State.setFx_regs (s : State) (n : Nat) (x : FxChan) : (s.setFx n x).regs = s.regs := rfl
@[simp] theorem State.setFx_mem (s : State) (n : Nat) (x : FxChan) : (s.setFx n x).mem = s.mem := rfl
@[simp] theorem State.setFx_now (s : State) (n : Nat) (x : FxChan) : (s.setFx n x).now = s.now := rfl
@[simp] theorem State.setFx_freeCtr (s : State) (n : Nat) (x : FxChan) : (s.setFx n x).freeCtr = s.freeCtr := rfl
@[simp] theorem State.setFx_bus (s : State) (n : Nat) (x : FxChan) : (s.setFx n x).bus = s.bus := rfl
@[simp] theorem State.setFx_evh (s : State) (n : Nat) (x : FxChan) : (s.setFx n x).evh = s.evh := rfl
@[simp] theorem State.setFx_store (s : State) (n : Nat) (x : FxChan) : (s.setFx n x).store = s.store := rfl
@[simp] theorem State.setFx_time (s : State) (n : Nat) (x : FxChan) : (s.setFx n x).time = s.time := rfl
@[simp] theorem State.setFx_engs (s : State) (n : Nat) (x : FxChan) : (s.setFx n x).engs = s.engs := rfl
@[simp] theorem State.setFx_engArr (s : State) (n : Nat) (x : FxChan) : (s.setFx n x).engArr = s.engArr := rfl
@[simp] theorem State.setFx_hif (s : State) (n : Nat) (x : FxChan) : (s.setFx n x).hif = s.hif := rfl
@[simp] theorem State.setFx_sw (s : State) (n : Nat) (x : FxChan) : (s.setFx n x).sw = s.sw := rfl
@[simp] theorem State.setFx_cmd (s : State) (n : Nat) (x : FxChan) : (s.setFx n x).cmd = s.cmd := rfl
@[simp] theorem State.setFx_pat (s : State) (n : Nat) (x : FxChan) : (s.setFx n x).pat = s.pat := rfl
@[simp] theorem State.setFx_can (s : State) (n : Nat) (x : FxChan) : (s.setFx n x).can = s.can := rfl
@[simp] theorem State.setFx_rasp (s : State) (n : Nat) (x : FxChan) : (s.setFx n x).rasp = s.rasp := rfl
@[simp] theorem State.setFx_dma (s : State) (n : Nat) (x : FxChan) : (s.setFx n x).dma = s.dma := rfl
@[simp] theorem State.setFx_packs (s : State) (n : Nat) (x : FxChan) : (s.setFx n x).packs = s.packs := rfl
@[simp] theorem State.setFx_pwr (s : State) (n : Nat) (x : FxChan) : (s.setFx n x).pwr = s.pwr := rfl
@[simp] theorem State.setFx_ocm (s : State) (n : Nat) (x : FxChan) : (s.setFx n x).ocm = s.ocm := rfl
@[simp] theorem State.setFx_pk (s : State) (n : Nat) (x : FxChan) : (s.setFx n x).pk = s.pk := rfl
@[simp] theorem State.setFx_boot (s : State) (n : Nat) (x : FxChan) : (s.setFx n x).boot = s.boot := rfl
@[simp] theorem State.setFx_sec (s : State) (n : Nat) (x : FxChan) : (s.setFx n x).sec = s.sec := rfl
@[simp] theorem State.setFx_fz (s : State) (n : Nat) (x : FxChan) : (s.setFx n x).fz = s.fz := rfl
@[simp] theorem State.setFx_starve (s : State) (n : Nat) (x : FxChan) : (s.setFx n x).starve = s.starve := rfl
@[simp] theorem State.setFx_arbs (s : State) (n : Nat) (x : FxChan) : (s.setFx n x).arbs = s.arbs := rfl
@[simp] theorem State.setFx_pending (s : State) (n : Nat) (x : FxChan) : (s.setFx n x).pending = s.pending := rfl

/-! ### setFzi -/

@[simp] theorem State.setFzi_regs (s : State) (i : Nat) (x : FzInst) : (s.setFzi i x).regs = s.regs := rfl
@[simp] theorem State.setFzi_mem (s : State) (i : Nat) (x : FzInst) : (s.setFzi i x).mem = s.mem := rfl
@[simp] theorem State.setFzi_now (s : State) (i : Nat) (x : FzInst) : (s.setFzi i x).now = s.now := rfl
@[simp] theorem State.setFzi_freeCtr (s : State) (i : Nat) (x : FzInst) : (s.setFzi i x).freeCtr = s.freeCtr := rfl
@[simp] theorem State.setFzi_bus (s : State) (i : Nat) (x : FzInst) : (s.setFzi i x).bus = s.bus := rfl
@[simp] theorem State.setFzi_evh (s : State) (i : Nat) (x : FzInst) : (s.setFzi i x).evh = s.evh := rfl
@[simp] theorem State.setFzi_store (s : State) (i : Nat) (x : FzInst) : (s.setFzi i x).store = s.store := rfl
@[simp] theorem State.setFzi_time (s : State) (i : Nat) (x : FzInst) : (s.setFzi i x).time = s.time := rfl
@[simp] theorem State.setFzi_engs (s : State) (i : Nat) (x : FzInst) : (s.setFzi i x).engs = s.engs := rfl
@[simp] theorem State.setFzi_engArr (s : State) (i : Nat) (x : FzInst) : (s.setFzi i x).engArr = s.engArr := rfl
@[simp] theorem State.setFzi_hif (s : State) (i : Nat) (x : FzInst) : (s.setFzi i x).hif = s.hif := rfl
@[simp] theorem State.setFzi_sw (s : State) (i : Nat) (x : FzInst) : (s.setFzi i x).sw = s.sw := rfl
@[simp] theorem State.setFzi_cmd (s : State) (i : Nat) (x : FzInst) : (s.setFzi i x).cmd = s.cmd := rfl
@[simp] theorem State.setFzi_pat (s : State) (i : Nat) (x : FzInst) : (s.setFzi i x).pat = s.pat := rfl
@[simp] theorem State.setFzi_can (s : State) (i : Nat) (x : FzInst) : (s.setFzi i x).can = s.can := rfl
@[simp] theorem State.setFzi_rasp (s : State) (i : Nat) (x : FzInst) : (s.setFzi i x).rasp = s.rasp := rfl
@[simp] theorem State.setFzi_dma (s : State) (i : Nat) (x : FzInst) : (s.setFzi i x).dma = s.dma := rfl
@[simp] theorem State.setFzi_packs (s : State) (i : Nat) (x : FzInst) : (s.setFzi i x).packs = s.packs := rfl
@[simp] theorem State.setFzi_field (s : State) (i : Nat) (x : FzInst) : (s.setFzi i x).field = s.field := rfl
@[simp] theorem State.setFzi_pwr (s : State) (i : Nat) (x : FzInst) : (s.setFzi i x).pwr = s.pwr := rfl
@[simp] theorem State.setFzi_ocm (s : State) (i : Nat) (x : FzInst) : (s.setFzi i x).ocm = s.ocm := rfl
@[simp] theorem State.setFzi_pk (s : State) (i : Nat) (x : FzInst) : (s.setFzi i x).pk = s.pk := rfl
@[simp] theorem State.setFzi_boot (s : State) (i : Nat) (x : FzInst) : (s.setFzi i x).boot = s.boot := rfl
@[simp] theorem State.setFzi_sec (s : State) (i : Nat) (x : FzInst) : (s.setFzi i x).sec = s.sec := rfl
@[simp] theorem State.setFzi_starve (s : State) (i : Nat) (x : FzInst) : (s.setFzi i x).starve = s.starve := rfl
@[simp] theorem State.setFzi_arbs (s : State) (i : Nat) (x : FzInst) : (s.setFzi i x).arbs = s.arbs := rfl
@[simp] theorem State.setFzi_pending (s : State) (i : Nat) (x : FzInst) : (s.setFzi i x).pending = s.pending := rfl

/-! ### setInst -/

@[simp] theorem State.setInst_regs (s : State) (i : Nat) (x : Inst) : (s.setInst i x).regs = s.regs := rfl
@[simp] theorem State.setInst_mem (s : State) (i : Nat) (x : Inst) : (s.setInst i x).mem = s.mem := rfl
@[simp] theorem State.setInst_now (s : State) (i : Nat) (x : Inst) : (s.setInst i x).now = s.now := rfl
@[simp] theorem State.setInst_freeCtr (s : State) (i : Nat) (x : Inst) : (s.setInst i x).freeCtr = s.freeCtr := rfl
@[simp] theorem State.setInst_bus (s : State) (i : Nat) (x : Inst) : (s.setInst i x).bus = s.bus := rfl
@[simp] theorem State.setInst_evh (s : State) (i : Nat) (x : Inst) : (s.setInst i x).evh = s.evh := rfl
@[simp] theorem State.setInst_store (s : State) (i : Nat) (x : Inst) : (s.setInst i x).store = s.store := rfl
@[simp] theorem State.setInst_time (s : State) (i : Nat) (x : Inst) : (s.setInst i x).time = s.time := rfl
@[simp] theorem State.setInst_engs (s : State) (i : Nat) (x : Inst) : (s.setInst i x).engs = s.engs := rfl
@[simp] theorem State.setInst_engArr (s : State) (i : Nat) (x : Inst) : (s.setInst i x).engArr = s.engArr := rfl
@[simp] theorem State.setInst_hif (s : State) (i : Nat) (x : Inst) : (s.setInst i x).hif = s.hif := rfl
@[simp] theorem State.setInst_sw (s : State) (i : Nat) (x : Inst) : (s.setInst i x).sw = s.sw := rfl
@[simp] theorem State.setInst_cmd (s : State) (i : Nat) (x : Inst) : (s.setInst i x).cmd = s.cmd := rfl
@[simp] theorem State.setInst_pat (s : State) (i : Nat) (x : Inst) : (s.setInst i x).pat = s.pat := rfl
@[simp] theorem State.setInst_can (s : State) (i : Nat) (x : Inst) : (s.setInst i x).can = s.can := rfl
@[simp] theorem State.setInst_rasp (s : State) (i : Nat) (x : Inst) : (s.setInst i x).rasp = s.rasp := rfl
@[simp] theorem State.setInst_dma (s : State) (i : Nat) (x : Inst) : (s.setInst i x).dma = s.dma := rfl
@[simp] theorem State.setInst_field (s : State) (i : Nat) (x : Inst) : (s.setInst i x).field = s.field := rfl
@[simp] theorem State.setInst_pwr (s : State) (i : Nat) (x : Inst) : (s.setInst i x).pwr = s.pwr := rfl
@[simp] theorem State.setInst_ocm (s : State) (i : Nat) (x : Inst) : (s.setInst i x).ocm = s.ocm := rfl
@[simp] theorem State.setInst_pk (s : State) (i : Nat) (x : Inst) : (s.setInst i x).pk = s.pk := rfl
@[simp] theorem State.setInst_boot (s : State) (i : Nat) (x : Inst) : (s.setInst i x).boot = s.boot := rfl
@[simp] theorem State.setInst_sec (s : State) (i : Nat) (x : Inst) : (s.setInst i x).sec = s.sec := rfl
@[simp] theorem State.setInst_fz (s : State) (i : Nat) (x : Inst) : (s.setInst i x).fz = s.fz := rfl
@[simp] theorem State.setInst_starve (s : State) (i : Nat) (x : Inst) : (s.setInst i x).starve = s.starve := rfl
@[simp] theorem State.setInst_arbs (s : State) (i : Nat) (x : Inst) : (s.setInst i x).arbs = s.arbs := rfl
@[simp] theorem State.setInst_pending (s : State) (i : Nat) (x : Inst) : (s.setInst i x).pending = s.pending := rfl

/-! ### setSlot -/

@[simp] theorem State.setSlot_regs (s : State) (k : Nat) (x : PackSlot) : (s.setSlot k x).regs = s.regs := rfl
@[simp] theorem State.setSlot_mem (s : State) (k : Nat) (x : PackSlot) : (s.setSlot k x).mem = s.mem := rfl
@[simp] theorem State.setSlot_now (s : State) (k : Nat) (x : PackSlot) : (s.setSlot k x).now = s.now := rfl
@[simp] theorem State.setSlot_freeCtr (s : State) (k : Nat) (x : PackSlot) : (s.setSlot k x).freeCtr = s.freeCtr := rfl
@[simp] theorem State.setSlot_bus (s : State) (k : Nat) (x : PackSlot) : (s.setSlot k x).bus = s.bus := rfl
@[simp] theorem State.setSlot_evh (s : State) (k : Nat) (x : PackSlot) : (s.setSlot k x).evh = s.evh := rfl
@[simp] theorem State.setSlot_store (s : State) (k : Nat) (x : PackSlot) : (s.setSlot k x).store = s.store := rfl
@[simp] theorem State.setSlot_time (s : State) (k : Nat) (x : PackSlot) : (s.setSlot k x).time = s.time := rfl
@[simp] theorem State.setSlot_engs (s : State) (k : Nat) (x : PackSlot) : (s.setSlot k x).engs = s.engs := rfl
@[simp] theorem State.setSlot_engArr (s : State) (k : Nat) (x : PackSlot) : (s.setSlot k x).engArr = s.engArr := rfl
@[simp] theorem State.setSlot_hif (s : State) (k : Nat) (x : PackSlot) : (s.setSlot k x).hif = s.hif := rfl
@[simp] theorem State.setSlot_sw (s : State) (k : Nat) (x : PackSlot) : (s.setSlot k x).sw = s.sw := rfl
@[simp] theorem State.setSlot_cmd (s : State) (k : Nat) (x : PackSlot) : (s.setSlot k x).cmd = s.cmd := rfl
@[simp] theorem State.setSlot_pat (s : State) (k : Nat) (x : PackSlot) : (s.setSlot k x).pat = s.pat := rfl
@[simp] theorem State.setSlot_can (s : State) (k : Nat) (x : PackSlot) : (s.setSlot k x).can = s.can := rfl
@[simp] theorem State.setSlot_rasp (s : State) (k : Nat) (x : PackSlot) : (s.setSlot k x).rasp = s.rasp := rfl
@[simp] theorem State.setSlot_dma (s : State) (k : Nat) (x : PackSlot) : (s.setSlot k x).dma = s.dma := rfl
@[simp] theorem State.setSlot_field (s : State) (k : Nat) (x : PackSlot) : (s.setSlot k x).field = s.field := rfl
@[simp] theorem State.setSlot_pwr (s : State) (k : Nat) (x : PackSlot) : (s.setSlot k x).pwr = s.pwr := rfl
@[simp] theorem State.setSlot_ocm (s : State) (k : Nat) (x : PackSlot) : (s.setSlot k x).ocm = s.ocm := rfl
@[simp] theorem State.setSlot_pk (s : State) (k : Nat) (x : PackSlot) : (s.setSlot k x).pk = s.pk := rfl
@[simp] theorem State.setSlot_boot (s : State) (k : Nat) (x : PackSlot) : (s.setSlot k x).boot = s.boot := rfl
@[simp] theorem State.setSlot_sec (s : State) (k : Nat) (x : PackSlot) : (s.setSlot k x).sec = s.sec := rfl
@[simp] theorem State.setSlot_fz (s : State) (k : Nat) (x : PackSlot) : (s.setSlot k x).fz = s.fz := rfl
@[simp] theorem State.setSlot_starve (s : State) (k : Nat) (x : PackSlot) : (s.setSlot k x).starve = s.starve := rfl
@[simp] theorem State.setSlot_arbs (s : State) (k : Nat) (x : PackSlot) : (s.setSlot k x).arbs = s.arbs := rfl
@[simp] theorem State.setSlot_pending (s : State) (k : Nat) (x : PackSlot) : (s.setSlot k x).pending = s.pending := rfl

/-! ### setIgen -/

@[simp] theorem State.setIgen_regs (s : State) (n : Nat) (x : IgSt) : (s.setIgen n x).regs = s.regs := rfl
@[simp] theorem State.setIgen_mem (s : State) (n : Nat) (x : IgSt) : (s.setIgen n x).mem = s.mem := rfl
@[simp] theorem State.setIgen_now (s : State) (n : Nat) (x : IgSt) : (s.setIgen n x).now = s.now := rfl
@[simp] theorem State.setIgen_freeCtr (s : State) (n : Nat) (x : IgSt) : (s.setIgen n x).freeCtr = s.freeCtr := rfl
@[simp] theorem State.setIgen_bus (s : State) (n : Nat) (x : IgSt) : (s.setIgen n x).bus = s.bus := rfl
@[simp] theorem State.setIgen_evh (s : State) (n : Nat) (x : IgSt) : (s.setIgen n x).evh = s.evh := rfl
@[simp] theorem State.setIgen_store (s : State) (n : Nat) (x : IgSt) : (s.setIgen n x).store = s.store := rfl
@[simp] theorem State.setIgen_engs (s : State) (n : Nat) (x : IgSt) : (s.setIgen n x).engs = s.engs := rfl
@[simp] theorem State.setIgen_engArr (s : State) (n : Nat) (x : IgSt) : (s.setIgen n x).engArr = s.engArr := rfl
@[simp] theorem State.setIgen_hif (s : State) (n : Nat) (x : IgSt) : (s.setIgen n x).hif = s.hif := rfl
@[simp] theorem State.setIgen_sw (s : State) (n : Nat) (x : IgSt) : (s.setIgen n x).sw = s.sw := rfl
@[simp] theorem State.setIgen_cmd (s : State) (n : Nat) (x : IgSt) : (s.setIgen n x).cmd = s.cmd := rfl
@[simp] theorem State.setIgen_pat (s : State) (n : Nat) (x : IgSt) : (s.setIgen n x).pat = s.pat := rfl
@[simp] theorem State.setIgen_can (s : State) (n : Nat) (x : IgSt) : (s.setIgen n x).can = s.can := rfl
@[simp] theorem State.setIgen_rasp (s : State) (n : Nat) (x : IgSt) : (s.setIgen n x).rasp = s.rasp := rfl
@[simp] theorem State.setIgen_dma (s : State) (n : Nat) (x : IgSt) : (s.setIgen n x).dma = s.dma := rfl
@[simp] theorem State.setIgen_packs (s : State) (n : Nat) (x : IgSt) : (s.setIgen n x).packs = s.packs := rfl
@[simp] theorem State.setIgen_field (s : State) (n : Nat) (x : IgSt) : (s.setIgen n x).field = s.field := rfl
@[simp] theorem State.setIgen_pwr (s : State) (n : Nat) (x : IgSt) : (s.setIgen n x).pwr = s.pwr := rfl
@[simp] theorem State.setIgen_ocm (s : State) (n : Nat) (x : IgSt) : (s.setIgen n x).ocm = s.ocm := rfl
@[simp] theorem State.setIgen_pk (s : State) (n : Nat) (x : IgSt) : (s.setIgen n x).pk = s.pk := rfl
@[simp] theorem State.setIgen_boot (s : State) (n : Nat) (x : IgSt) : (s.setIgen n x).boot = s.boot := rfl
@[simp] theorem State.setIgen_sec (s : State) (n : Nat) (x : IgSt) : (s.setIgen n x).sec = s.sec := rfl
@[simp] theorem State.setIgen_fz (s : State) (n : Nat) (x : IgSt) : (s.setIgen n x).fz = s.fz := rfl
@[simp] theorem State.setIgen_starve (s : State) (n : Nat) (x : IgSt) : (s.setIgen n x).starve = s.starve := rfl
@[simp] theorem State.setIgen_arbs (s : State) (n : Nat) (x : IgSt) : (s.setIgen n x).arbs = s.arbs := rfl
@[simp] theorem State.setIgen_pending (s : State) (n : Nat) (x : IgSt) : (s.setIgen n x).pending = s.pending := rfl

/-! ### setSync -/

@[simp] theorem State.setSync_regs (s : State) (n : Nat) (x : SyncPin) : (s.setSync n x).regs = s.regs := rfl
@[simp] theorem State.setSync_mem (s : State) (n : Nat) (x : SyncPin) : (s.setSync n x).mem = s.mem := rfl
@[simp] theorem State.setSync_now (s : State) (n : Nat) (x : SyncPin) : (s.setSync n x).now = s.now := rfl
@[simp] theorem State.setSync_freeCtr (s : State) (n : Nat) (x : SyncPin) : (s.setSync n x).freeCtr = s.freeCtr := rfl
@[simp] theorem State.setSync_bus (s : State) (n : Nat) (x : SyncPin) : (s.setSync n x).bus = s.bus := rfl
@[simp] theorem State.setSync_evh (s : State) (n : Nat) (x : SyncPin) : (s.setSync n x).evh = s.evh := rfl
@[simp] theorem State.setSync_store (s : State) (n : Nat) (x : SyncPin) : (s.setSync n x).store = s.store := rfl
@[simp] theorem State.setSync_engs (s : State) (n : Nat) (x : SyncPin) : (s.setSync n x).engs = s.engs := rfl
@[simp] theorem State.setSync_engArr (s : State) (n : Nat) (x : SyncPin) : (s.setSync n x).engArr = s.engArr := rfl
@[simp] theorem State.setSync_hif (s : State) (n : Nat) (x : SyncPin) : (s.setSync n x).hif = s.hif := rfl
@[simp] theorem State.setSync_sw (s : State) (n : Nat) (x : SyncPin) : (s.setSync n x).sw = s.sw := rfl
@[simp] theorem State.setSync_cmd (s : State) (n : Nat) (x : SyncPin) : (s.setSync n x).cmd = s.cmd := rfl
@[simp] theorem State.setSync_pat (s : State) (n : Nat) (x : SyncPin) : (s.setSync n x).pat = s.pat := rfl
@[simp] theorem State.setSync_can (s : State) (n : Nat) (x : SyncPin) : (s.setSync n x).can = s.can := rfl
@[simp] theorem State.setSync_rasp (s : State) (n : Nat) (x : SyncPin) : (s.setSync n x).rasp = s.rasp := rfl
@[simp] theorem State.setSync_dma (s : State) (n : Nat) (x : SyncPin) : (s.setSync n x).dma = s.dma := rfl
@[simp] theorem State.setSync_packs (s : State) (n : Nat) (x : SyncPin) : (s.setSync n x).packs = s.packs := rfl
@[simp] theorem State.setSync_field (s : State) (n : Nat) (x : SyncPin) : (s.setSync n x).field = s.field := rfl
@[simp] theorem State.setSync_pwr (s : State) (n : Nat) (x : SyncPin) : (s.setSync n x).pwr = s.pwr := rfl
@[simp] theorem State.setSync_ocm (s : State) (n : Nat) (x : SyncPin) : (s.setSync n x).ocm = s.ocm := rfl
@[simp] theorem State.setSync_pk (s : State) (n : Nat) (x : SyncPin) : (s.setSync n x).pk = s.pk := rfl
@[simp] theorem State.setSync_boot (s : State) (n : Nat) (x : SyncPin) : (s.setSync n x).boot = s.boot := rfl
@[simp] theorem State.setSync_sec (s : State) (n : Nat) (x : SyncPin) : (s.setSync n x).sec = s.sec := rfl
@[simp] theorem State.setSync_fz (s : State) (n : Nat) (x : SyncPin) : (s.setSync n x).fz = s.fz := rfl
@[simp] theorem State.setSync_starve (s : State) (n : Nat) (x : SyncPin) : (s.setSync n x).starve = s.starve := rfl
@[simp] theorem State.setSync_arbs (s : State) (n : Nat) (x : SyncPin) : (s.setSync n x).arbs = s.arbs := rfl
@[simp] theorem State.setSync_pending (s : State) (n : Nat) (x : SyncPin) : (s.setSync n x).pending = s.pending := rfl

/-! ### setTriggers -/

@[simp] theorem State.setTriggers_regs (s : State) (g : Nat) (l : List Trigger) : (s.setTriggers g l).regs = s.regs := rfl
@[simp] theorem State.setTriggers_mem (s : State) (g : Nat) (l : List Trigger) : (s.setTriggers g l).mem = s.mem := rfl
@[simp] theorem State.setTriggers_now (s : State) (g : Nat) (l : List Trigger) : (s.setTriggers g l).now = s.now := rfl
@[simp] theorem State.setTriggers_freeCtr (s : State) (g : Nat) (l : List Trigger) : (s.setTriggers g l).freeCtr = s.freeCtr := rfl
@[simp] theorem State.setTriggers_bus (s : State) (g : Nat) (l : List Trigger) : (s.setTriggers g l).bus = s.bus := rfl
@[simp] theorem State.setTriggers_evh (s : State) (g : Nat) (l : List Trigger) : (s.setTriggers g l).evh = s.evh := rfl
@[simp] theorem State.setTriggers_time (s : State) (g : Nat) (l : List Trigger) : (s.setTriggers g l).time = s.time := rfl
@[simp] theorem State.setTriggers_engs (s : State) (g : Nat) (l : List Trigger) : (s.setTriggers g l).engs = s.engs := rfl
@[simp] theorem State.setTriggers_engArr (s : State) (g : Nat) (l : List Trigger) : (s.setTriggers g l).engArr = s.engArr := rfl
@[simp] theorem State.setTriggers_hif (s : State) (g : Nat) (l : List Trigger) : (s.setTriggers g l).hif = s.hif := rfl
@[simp] theorem State.setTriggers_sw (s : State) (g : Nat) (l : List Trigger) : (s.setTriggers g l).sw = s.sw := rfl
@[simp] theorem State.setTriggers_cmd (s : State) (g : Nat) (l : List Trigger) : (s.setTriggers g l).cmd = s.cmd := rfl
@[simp] theorem State.setTriggers_pat (s : State) (g : Nat) (l : List Trigger) : (s.setTriggers g l).pat = s.pat := rfl
@[simp] theorem State.setTriggers_can (s : State) (g : Nat) (l : List Trigger) : (s.setTriggers g l).can = s.can := rfl
@[simp] theorem State.setTriggers_rasp (s : State) (g : Nat) (l : List Trigger) : (s.setTriggers g l).rasp = s.rasp := rfl
@[simp] theorem State.setTriggers_dma (s : State) (g : Nat) (l : List Trigger) : (s.setTriggers g l).dma = s.dma := rfl
@[simp] theorem State.setTriggers_packs (s : State) (g : Nat) (l : List Trigger) : (s.setTriggers g l).packs = s.packs := rfl
@[simp] theorem State.setTriggers_field (s : State) (g : Nat) (l : List Trigger) : (s.setTriggers g l).field = s.field := rfl
@[simp] theorem State.setTriggers_pwr (s : State) (g : Nat) (l : List Trigger) : (s.setTriggers g l).pwr = s.pwr := rfl
@[simp] theorem State.setTriggers_ocm (s : State) (g : Nat) (l : List Trigger) : (s.setTriggers g l).ocm = s.ocm := rfl
@[simp] theorem State.setTriggers_pk (s : State) (g : Nat) (l : List Trigger) : (s.setTriggers g l).pk = s.pk := rfl
@[simp] theorem State.setTriggers_boot (s : State) (g : Nat) (l : List Trigger) : (s.setTriggers g l).boot = s.boot := rfl
@[simp] theorem State.setTriggers_sec (s : State) (g : Nat) (l : List Trigger) : (s.setTriggers g l).sec = s.sec := rfl
@[simp] theorem State.setTriggers_fz (s : State) (g : Nat) (l : List Trigger) : (s.setTriggers g l).fz = s.fz := rfl
@[simp] theorem State.setTriggers_starve (s : State) (g : Nat) (l : List Trigger) : (s.setTriggers g l).starve = s.starve := rfl
@[simp] theorem State.setTriggers_arbs (s : State) (g : Nat) (l : List Trigger) : (s.setTriggers g l).arbs = s.arbs := rfl
@[simp] theorem State.setTriggers_pending (s : State) (g : Nat) (l : List Trigger) : (s.setTriggers g l).pending = s.pending := rfl

/-! ### setJob -/

@[simp] theorem State.setJob_regs (s : State) (n : Nat) (j : Job) : (s.setJob n j).regs = s.regs := rfl
@[simp] theorem State.setJob_mem (s : State) (n : Nat) (j : Job) : (s.setJob n j).mem = s.mem := rfl
@[simp] theorem State.setJob_now (s : State) (n : Nat) (j : Job) : (s.setJob n j).now = s.now := rfl
@[simp] theorem State.setJob_freeCtr (s : State) (n : Nat) (j : Job) : (s.setJob n j).freeCtr = s.freeCtr := rfl
@[simp] theorem State.setJob_bus (s : State) (n : Nat) (j : Job) : (s.setJob n j).bus = s.bus := rfl
@[simp] theorem State.setJob_evh (s : State) (n : Nat) (j : Job) : (s.setJob n j).evh = s.evh := rfl
@[simp] theorem State.setJob_store (s : State) (n : Nat) (j : Job) : (s.setJob n j).store = s.store := rfl
@[simp] theorem State.setJob_time (s : State) (n : Nat) (j : Job) : (s.setJob n j).time = s.time := rfl
@[simp] theorem State.setJob_engs (s : State) (n : Nat) (j : Job) : (s.setJob n j).engs = s.engs := rfl
@[simp] theorem State.setJob_engArr (s : State) (n : Nat) (j : Job) : (s.setJob n j).engArr = s.engArr := rfl
@[simp] theorem State.setJob_hif (s : State) (n : Nat) (j : Job) : (s.setJob n j).hif = s.hif := rfl
@[simp] theorem State.setJob_sw (s : State) (n : Nat) (j : Job) : (s.setJob n j).sw = s.sw := rfl
@[simp] theorem State.setJob_pat (s : State) (n : Nat) (j : Job) : (s.setJob n j).pat = s.pat := rfl
@[simp] theorem State.setJob_can (s : State) (n : Nat) (j : Job) : (s.setJob n j).can = s.can := rfl
@[simp] theorem State.setJob_rasp (s : State) (n : Nat) (j : Job) : (s.setJob n j).rasp = s.rasp := rfl
@[simp] theorem State.setJob_dma (s : State) (n : Nat) (j : Job) : (s.setJob n j).dma = s.dma := rfl
@[simp] theorem State.setJob_packs (s : State) (n : Nat) (j : Job) : (s.setJob n j).packs = s.packs := rfl
@[simp] theorem State.setJob_field (s : State) (n : Nat) (j : Job) : (s.setJob n j).field = s.field := rfl
@[simp] theorem State.setJob_pwr (s : State) (n : Nat) (j : Job) : (s.setJob n j).pwr = s.pwr := rfl
@[simp] theorem State.setJob_ocm (s : State) (n : Nat) (j : Job) : (s.setJob n j).ocm = s.ocm := rfl
@[simp] theorem State.setJob_pk (s : State) (n : Nat) (j : Job) : (s.setJob n j).pk = s.pk := rfl
@[simp] theorem State.setJob_boot (s : State) (n : Nat) (j : Job) : (s.setJob n j).boot = s.boot := rfl
@[simp] theorem State.setJob_sec (s : State) (n : Nat) (j : Job) : (s.setJob n j).sec = s.sec := rfl
@[simp] theorem State.setJob_fz (s : State) (n : Nat) (j : Job) : (s.setJob n j).fz = s.fz := rfl
@[simp] theorem State.setJob_starve (s : State) (n : Nat) (j : Job) : (s.setJob n j).starve = s.starve := rfl
@[simp] theorem State.setJob_arbs (s : State) (n : Nat) (j : Job) : (s.setJob n j).arbs = s.arbs := rfl
@[simp] theorem State.setJob_pending (s : State) (n : Nat) (j : Job) : (s.setJob n j).pending = s.pending := rfl

/-! ### setCache -/

@[simp] theorem State.setCache_regs (s : State) (l : List ChEntry) : (s.setCache l).regs = s.regs := rfl
@[simp] theorem State.setCache_mem (s : State) (l : List ChEntry) : (s.setCache l).mem = s.mem := rfl
@[simp] theorem State.setCache_now (s : State) (l : List ChEntry) : (s.setCache l).now = s.now := rfl
@[simp] theorem State.setCache_freeCtr (s : State) (l : List ChEntry) : (s.setCache l).freeCtr = s.freeCtr := rfl
@[simp] theorem State.setCache_bus (s : State) (l : List ChEntry) : (s.setCache l).bus = s.bus := rfl
@[simp] theorem State.setCache_evh (s : State) (l : List ChEntry) : (s.setCache l).evh = s.evh := rfl
@[simp] theorem State.setCache_store (s : State) (l : List ChEntry) : (s.setCache l).store = s.store := rfl
@[simp] theorem State.setCache_time (s : State) (l : List ChEntry) : (s.setCache l).time = s.time := rfl
@[simp] theorem State.setCache_engs (s : State) (l : List ChEntry) : (s.setCache l).engs = s.engs := rfl
@[simp] theorem State.setCache_engArr (s : State) (l : List ChEntry) : (s.setCache l).engArr = s.engArr := rfl
@[simp] theorem State.setCache_hif (s : State) (l : List ChEntry) : (s.setCache l).hif = s.hif := rfl
@[simp] theorem State.setCache_sw (s : State) (l : List ChEntry) : (s.setCache l).sw = s.sw := rfl
@[simp] theorem State.setCache_pat (s : State) (l : List ChEntry) : (s.setCache l).pat = s.pat := rfl
@[simp] theorem State.setCache_can (s : State) (l : List ChEntry) : (s.setCache l).can = s.can := rfl
@[simp] theorem State.setCache_rasp (s : State) (l : List ChEntry) : (s.setCache l).rasp = s.rasp := rfl
@[simp] theorem State.setCache_dma (s : State) (l : List ChEntry) : (s.setCache l).dma = s.dma := rfl
@[simp] theorem State.setCache_packs (s : State) (l : List ChEntry) : (s.setCache l).packs = s.packs := rfl
@[simp] theorem State.setCache_field (s : State) (l : List ChEntry) : (s.setCache l).field = s.field := rfl
@[simp] theorem State.setCache_pwr (s : State) (l : List ChEntry) : (s.setCache l).pwr = s.pwr := rfl
@[simp] theorem State.setCache_ocm (s : State) (l : List ChEntry) : (s.setCache l).ocm = s.ocm := rfl
@[simp] theorem State.setCache_pk (s : State) (l : List ChEntry) : (s.setCache l).pk = s.pk := rfl
@[simp] theorem State.setCache_boot (s : State) (l : List ChEntry) : (s.setCache l).boot = s.boot := rfl
@[simp] theorem State.setCache_sec (s : State) (l : List ChEntry) : (s.setCache l).sec = s.sec := rfl
@[simp] theorem State.setCache_fz (s : State) (l : List ChEntry) : (s.setCache l).fz = s.fz := rfl
@[simp] theorem State.setCache_starve (s : State) (l : List ChEntry) : (s.setCache l).starve = s.starve := rfl
@[simp] theorem State.setCache_arbs (s : State) (l : List ChEntry) : (s.setCache l).arbs = s.arbs := rfl
@[simp] theorem State.setCache_pending (s : State) (l : List ChEntry) : (s.setCache l).pending = s.pending := rfl

/-! ### setStreams -/

@[simp] theorem State.setStreams_regs (s : State) (l : List ChEntry) : (s.setStreams l).regs = s.regs := rfl
@[simp] theorem State.setStreams_mem (s : State) (l : List ChEntry) : (s.setStreams l).mem = s.mem := rfl
@[simp] theorem State.setStreams_now (s : State) (l : List ChEntry) : (s.setStreams l).now = s.now := rfl
@[simp] theorem State.setStreams_freeCtr (s : State) (l : List ChEntry) : (s.setStreams l).freeCtr = s.freeCtr := rfl
@[simp] theorem State.setStreams_bus (s : State) (l : List ChEntry) : (s.setStreams l).bus = s.bus := rfl
@[simp] theorem State.setStreams_evh (s : State) (l : List ChEntry) : (s.setStreams l).evh = s.evh := rfl
@[simp] theorem State.setStreams_store (s : State) (l : List ChEntry) : (s.setStreams l).store = s.store := rfl
@[simp] theorem State.setStreams_time (s : State) (l : List ChEntry) : (s.setStreams l).time = s.time := rfl
@[simp] theorem State.setStreams_engs (s : State) (l : List ChEntry) : (s.setStreams l).engs = s.engs := rfl
@[simp] theorem State.setStreams_engArr (s : State) (l : List ChEntry) : (s.setStreams l).engArr = s.engArr := rfl
@[simp] theorem State.setStreams_hif (s : State) (l : List ChEntry) : (s.setStreams l).hif = s.hif := rfl
@[simp] theorem State.setStreams_sw (s : State) (l : List ChEntry) : (s.setStreams l).sw = s.sw := rfl
@[simp] theorem State.setStreams_pat (s : State) (l : List ChEntry) : (s.setStreams l).pat = s.pat := rfl
@[simp] theorem State.setStreams_can (s : State) (l : List ChEntry) : (s.setStreams l).can = s.can := rfl
@[simp] theorem State.setStreams_rasp (s : State) (l : List ChEntry) : (s.setStreams l).rasp = s.rasp := rfl
@[simp] theorem State.setStreams_dma (s : State) (l : List ChEntry) : (s.setStreams l).dma = s.dma := rfl
@[simp] theorem State.setStreams_packs (s : State) (l : List ChEntry) : (s.setStreams l).packs = s.packs := rfl
@[simp] theorem State.setStreams_field (s : State) (l : List ChEntry) : (s.setStreams l).field = s.field := rfl
@[simp] theorem State.setStreams_pwr (s : State) (l : List ChEntry) : (s.setStreams l).pwr = s.pwr := rfl
@[simp] theorem State.setStreams_ocm (s : State) (l : List ChEntry) : (s.setStreams l).ocm = s.ocm := rfl
@[simp] theorem State.setStreams_pk (s : State) (l : List ChEntry) : (s.setStreams l).pk = s.pk := rfl
@[simp] theorem State.setStreams_boot (s : State) (l : List ChEntry) : (s.setStreams l).boot = s.boot := rfl
@[simp] theorem State.setStreams_sec (s : State) (l : List ChEntry) : (s.setStreams l).sec = s.sec := rfl
@[simp] theorem State.setStreams_fz (s : State) (l : List ChEntry) : (s.setStreams l).fz = s.fz := rfl
@[simp] theorem State.setStreams_starve (s : State) (l : List ChEntry) : (s.setStreams l).starve = s.starve := rfl
@[simp] theorem State.setStreams_arbs (s : State) (l : List ChEntry) : (s.setStreams l).arbs = s.arbs := rfl
@[simp] theorem State.setStreams_pending (s : State) (l : List ChEntry) : (s.setStreams l).pending = s.pending := rfl

/-! ### modBoot -/

@[simp] theorem State.modBoot_regs (s : State) (f : BootSt → BootSt) : (s.modBoot f).regs = s.regs := rfl
@[simp] theorem State.modBoot_mem (s : State) (f : BootSt → BootSt) : (s.modBoot f).mem = s.mem := rfl
@[simp] theorem State.modBoot_now (s : State) (f : BootSt → BootSt) : (s.modBoot f).now = s.now := rfl
@[simp] theorem State.modBoot_freeCtr (s : State) (f : BootSt → BootSt) : (s.modBoot f).freeCtr = s.freeCtr := rfl
@[simp] theorem State.modBoot_bus (s : State) (f : BootSt → BootSt) : (s.modBoot f).bus = s.bus := rfl
@[simp] theorem State.modBoot_evh (s : State) (f : BootSt → BootSt) : (s.modBoot f).evh = s.evh := rfl
@[simp] theorem State.modBoot_store (s : State) (f : BootSt → BootSt) : (s.modBoot f).store = s.store := rfl
@[simp] theorem State.modBoot_time (s : State) (f : BootSt → BootSt) : (s.modBoot f).time = s.time := rfl
@[simp] theorem State.modBoot_engs (s : State) (f : BootSt → BootSt) : (s.modBoot f).engs = s.engs := rfl
@[simp] theorem State.modBoot_engArr (s : State) (f : BootSt → BootSt) : (s.modBoot f).engArr = s.engArr := rfl
@[simp] theorem State.modBoot_hif (s : State) (f : BootSt → BootSt) : (s.modBoot f).hif = s.hif := rfl
@[simp] theorem State.modBoot_sw (s : State) (f : BootSt → BootSt) : (s.modBoot f).sw = s.sw := rfl
@[simp] theorem State.modBoot_cmd (s : State) (f : BootSt → BootSt) : (s.modBoot f).cmd = s.cmd := rfl
@[simp] theorem State.modBoot_pat (s : State) (f : BootSt → BootSt) : (s.modBoot f).pat = s.pat := rfl
@[simp] theorem State.modBoot_can (s : State) (f : BootSt → BootSt) : (s.modBoot f).can = s.can := rfl
@[simp] theorem State.modBoot_rasp (s : State) (f : BootSt → BootSt) : (s.modBoot f).rasp = s.rasp := rfl
@[simp] theorem State.modBoot_dma (s : State) (f : BootSt → BootSt) : (s.modBoot f).dma = s.dma := rfl
@[simp] theorem State.modBoot_packs (s : State) (f : BootSt → BootSt) : (s.modBoot f).packs = s.packs := rfl
@[simp] theorem State.modBoot_field (s : State) (f : BootSt → BootSt) : (s.modBoot f).field = s.field := rfl
@[simp] theorem State.modBoot_pwr (s : State) (f : BootSt → BootSt) : (s.modBoot f).pwr = s.pwr := rfl
@[simp] theorem State.modBoot_ocm (s : State) (f : BootSt → BootSt) : (s.modBoot f).ocm = s.ocm := rfl
@[simp] theorem State.modBoot_pk (s : State) (f : BootSt → BootSt) : (s.modBoot f).pk = s.pk := rfl
@[simp] theorem State.modBoot_sec (s : State) (f : BootSt → BootSt) : (s.modBoot f).sec = s.sec := rfl
@[simp] theorem State.modBoot_fz (s : State) (f : BootSt → BootSt) : (s.modBoot f).fz = s.fz := rfl
@[simp] theorem State.modBoot_starve (s : State) (f : BootSt → BootSt) : (s.modBoot f).starve = s.starve := rfl
@[simp] theorem State.modBoot_arbs (s : State) (f : BootSt → BootSt) : (s.modBoot f).arbs = s.arbs := rfl
@[simp] theorem State.modBoot_pending (s : State) (f : BootSt → BootSt) : (s.modBoot f).pending = s.pending := rfl

/-! ### An element of a table after a write of one -/

theorem State.eng_setEng (s : State) (a b : Nat) (x : Eng) : (s.setEng a x).eng b = if b = a then x else s.eng b := by
  simp only [State.eng, State.setEng, tabGet_tabSet]

theorem State.dq_setDq (s : State) (a b : Nat) (x : DqSt) : (s.setDq a x).dq b = if b = a then x else s.dq b := by
  simp only [State.dq, State.setDq, tabGet_tabSet]

theorem State.cb_setCb (s : State) (a b : Nat) (x : CanSt) : (s.setCb a x).cb b = if b = a then x else s.cb b := by
  simp only [State.cb, State.setCb, tabGet_tabSet]

theorem State.unit_setUnit (s : State) (a b : Nat) (x : RaspSt) : (s.setUnit a x).unit b = if b = a then x else s.unit b := by
  simp only [State.unit, State.setUnit, tabGet_tabSet]

theorem State.fx_setFx (s : State) (a b : Nat) (x : FxChan) : (s.setFx a x).fx b = if b = a then x else s.fx b := by
  simp only [State.fx, State.setFx, tabGet_tabSet]

theorem State.fzi_setFzi (s : State) (a b : Nat) (x : FzInst) : (s.setFzi a x).fzi b = if b = a then x else s.fzi b := by
  simp only [State.fzi, State.setFzi, tabGet_tabSet]

theorem State.inst_setInst (s : State) (a b : Nat) (x : Inst) : (s.setInst a x).inst b = if b = a then x else s.inst b := by
  simp only [State.inst, State.setInst, tabGet_tabSet]

theorem State.slot_setSlot (s : State) (a b : Nat) (x : PackSlot) : (s.setSlot a x).slot b = if b = a then x else s.slot b := by
  simp only [State.slot, State.setSlot, tabGet_tabSet]

theorem State.igen_setIgen (s : State) (a b : Nat) (x : IgSt) : (s.setIgen a x).igen b = if b = a then x else s.igen b := by
  simp only [State.igen, State.setIgen, tabGet_tabSet]

theorem State.syncPin_setSync (s : State) (a b : Nat) (x : SyncPin) : (s.setSync a x).syncPin b = if b = a then x else s.syncPin b := by
  simp only [State.syncPin, State.setSync, tabGet_tabSet]

theorem State.eng_modEng (s : State) (a b : Nat) (f : Eng → Eng) : (s.modEng a f).eng b = if b = a then f (s.eng a) else s.eng b := by
  simp only [State.modEng, State.eng_setEng]

theorem State.job_setJob (s : State) (a b : Nat) (j : Job) : (s.setJob a j).job b = if b = a then j else s.job b := by
  simp only [State.job, State.setJob, tabGet_tabSet]

/-- The clock domains are two: every number but 0 names D1. -/
theorem State.dom_setDom (s : State) (a b : Nat) (x : DomSt) : (s.setDom a x).dom b = if (b = 0 ↔ a = 0) then x else s.dom b := by
  by_cases ha : a = 0 <;> by_cases hb : b = 0 <;> simp [State.dom, State.setDom, ha, hb]

end Sys2Proof.Machine
end

