-- ==== Sys2Proof/Laws/Memory.lean ====
section
/-! SUPPORT. Memories: what a byte reads as after each operation, that every one keeps memory's canonical form, and that the spaces
of the state after reset have it. -/
namespace Sys2Proof.Machine

/-! ### One byte -/

/-- A byte after a store of one: that byte takes the value, every other cell keeps its own. -/
theorem State.mrd_mwr (s : State) (sp sq : Space) (a b : Nat) (v : Byte) :
    (s.mwr sp a v).mrd sq b = if sq.base + b = sp.base + a then v else s.mrd sq b := by
  simp only [State.mrd, State.mwr, tabGet_tabSet]

@[simp] theorem State.mrd_mwr_same (s : State) (sp : Space) (a : Nat) (v : Byte) : (s.mwr sp a v).mrd sp a = v := by
  simp [State.mrd_mwr]

theorem State.mrd_mwr_ne (s : State) (sp : Space) {a b : Nat} (v : Byte) (h : b ≠ a) : (s.mwr sp a v).mrd sp b = s.mrd sp b := by
  rw [State.mrd_mwr, if_neg (by omega)]

/-- A byte after a range is zeroed. -/
theorem State.mrd_zero (s : State) (sp : Space) (a n b : Nat) :
    (s.zero sp a n).mrd sp b = if a ≤ b ∧ b < a + n then 0 else s.mrd sp b := by
  simp only [State.mrd, State.zero, tabGet_tabClear]
  by_cases h : a ≤ b ∧ b < a + n
  · rw [if_pos (by omega), if_pos h]
  · rw [if_neg (by omega), if_neg h]

/-- Cells outside the zeroed range keep their bytes. -/
theorem State.zero_mem_ne (s : State) (sp : Space) (a n k : Nat) (h : k < sp.base + a ∨ sp.base + a + n ≤ k) :
    tabGet 0 (s.zero sp a n).mem k = tabGet 0 s.mem k := by
  simp only [State.zero, tabGet_tabClear]
  rw [if_neg (by omega)]

/-- Memory reads from the cell list alone. -/
theorem State.mrd_congr {s t : State} (h : t.mem = s.mem) (sp : Space) (a : Nat) : t.mrd sp a = s.mrd sp a := by
  simp only [State.mrd, h]

theorem State.bytes_congr {s t : State} (h : t.mem = s.mem) (sp : Space) (a n : Nat) : t.bytes sp a n = s.bytes sp a n := by
  induction n generalizing a with
  | zero => rfl
  | succ n ih => simp only [State.bytes, State.mrd_congr h, ih]

@[simp] theorem State.length_bytes (s : State) (sp : Space) (a n : Nat) : (s.bytes sp a n).length = n := by
  induction n generalizing a with
  | zero => rfl
  | succ n ih => simp [State.bytes, ih]

/-! ### Runs that agents reach -/

/-- A run that stands ready takes an agent's bytes as plain memory does. -/
theorem agentWrite_ready {s : State} {r : Requester} {a : Nat} {bs : List Byte} (h : memReady s r a bs.length = true) :
    agentWrite s r a bs = s.setBytes .fabric a bs := if_pos h

/-- Reading such a run changes nothing, and gives its bytes. -/
theorem agentOpen_ready {s : State} {r : Requester} {a n : Nat} (h : memReady s r a n = true) : agentOpen s r a n = s := if_pos h
theorem agentBytes_ready {s : State} {r : Requester} {a n : Nat} (h : memReady s r a n = true) :
    agentBytes s r a n = s.bytes .fabric a n := if_pos h

/-- Atelier SRAM stands ready for Armature where its sixteen banks are ON. -/
theorem memReady_sram {s : State} {n : Nat} (hn : n ≤ 0x400000)
    (h : ∀ k : Nat, k < 16 → s.get R.MEM_BK_STAT_STATE (s.get R.MEM_MAP_PHYS k) = 0
      ∧ s.on R.MEM_BK_STAT_TRANS (s.get R.MEM_MAP_PHYS k) = false) : memReady s .arm 0 n = true := by
  simp only [memReady, List.all_eq_true, List.mem_range]
  intro i hi
  obtain ⟨h0, h1⟩ := h ((0 + i) / 0x40000) (by omega)
  simp [fwPass, fwClass, slotOf, show i < 0x400000 by omega] at h0 h1 ⊢
  simp [h0, h1]

/-! ### Runs of bytes -/

/-- A store of bytes changes memory alone. -/
theorem State.setBytes_eq (s : State) (sp : Space) (a : Nat) (bs : List Byte) :
    s.setBytes sp a bs = { s with mem := (s.setBytes sp a bs).mem } := by
  induction bs generalizing s a with
  | nil => rfl
  | cons b bs ih => simp only [State.setBytes]; rw [ih]; rfl

/-- A cell after a store of bytes: the byte at its place, or what it held. -/
theorem State.setBytes_mem (s : State) (sp : Space) (a : Nat) (bs : List Byte) (k : Nat) :
    tabGet 0 (s.setBytes sp a bs).mem k
      = if sp.base + a ≤ k ∧ k < sp.base + a + bs.length then bs.getD (k - (sp.base + a)) 0 else tabGet 0 s.mem k := by
  induction bs generalizing s a with
  | nil => rw [if_neg (by simp only [List.length_nil]; omega)]; rfl
  | cons b bs ih =>
    simp only [State.setBytes, ih, List.length_cons]
    by_cases h0 : k = sp.base + a
    · subst h0
      rw [if_neg (by omega), if_pos (by omega)]
      simp [State.mwr]
    · by_cases h : sp.base + a ≤ k ∧ k < sp.base + a + (bs.length + 1)
      · rw [if_pos (by omega), if_pos h]
        have : k - (sp.base + a) = k - (sp.base + (a + 1)) + 1 := by omega
        rw [this, List.getD_cons_succ]
      · rw [if_neg (by omega), if_neg h]
        simp only [State.mwr]
        exact tabGet_tabSet_ne _ _ _ h0

/-- A byte after a store of bytes in its space. -/
theorem State.mrd_setBytes (s : State) (sp : Space) (a b : Nat) (bs : List Byte) :
    (s.setBytes sp a bs).mrd sp b = if a ≤ b ∧ b < a + bs.length then bs.getD (b - a) 0 else s.mrd sp b := by
  unfold State.mrd
  rw [State.setBytes_mem]
  by_cases h : a ≤ b ∧ b < a + bs.length
  · rw [if_pos (by omega), if_pos h]
    congr 1; omega
  · rw [if_neg (by omega), if_neg h]

/-- The bytes just stored are read back. -/
theorem State.bytes_setBytes (s : State) (sp : Space) (a : Nat) (bs : List Byte) :
    (s.setBytes sp a bs).bytes sp a bs.length = bs := by
  suffices h : ∀ (t : State) (n c : Nat), c + n = bs.length →
      (∀ i : Nat, i < bs.length → t.mrd sp (a + i) = bs.getD i 0) → t.bytes sp (a + c) n = bs.drop c by
    have := h (s.setBytes sp a bs) bs.length 0 (by omega) fun i hi => by
      rw [State.mrd_setBytes, if_pos (by omega)]; congr 1; omega
    simpa using this
  intro t n
  induction n with
  | zero => intro c hc _; simp [State.bytes, List.drop_of_length_le (show bs.length ≤ c by omega)]
  | succ n ih =>
    intro c hc hr
    have hlt : c < bs.length := by omega
    rw [State.bytes, hr c hlt, Nat.add_assoc, ih (c + 1) (by omega) hr, List.drop_eq_getElem_cons hlt]
    simp [List.getD_eq_getElem?_getD, hlt]

/-- Only the stored bytes change. -/
theorem State.onlyBytes_setBytes (s : State) (sp : Space) (a : Nat) (bs : List Byte) :
    OnlyBytes s (s.setBytes sp a bs) sp a bs.length := by
  intro k hk
  rw [State.setBytes_mem, if_neg (by omega)]

theorem State.onlyBytes_zero (s : State) (sp : Space) (a n : Nat) : OnlyBytes s (s.zero sp a n) sp a n :=
  fun k hk => State.zero_mem_ne s sp a n k hk

/-! ### Words -/

@[simp] theorem length_leBytes (n v : Nat) : (leBytes n v).length = n := by
  induction n generalizing v with
  | zero => rfl
  | succ n ih => simp [leBytes, ih]

/-- A number's bytes give it back. -/
theorem leNat_leBytes (n v : Nat) : leNat (leBytes n v) = v % 256 ^ n := by
  induction n generalizing v with
  | zero => simp [leBytes, leNat, Nat.mod_one]
  | succ n ih =>
    simp only [leBytes, leNat, ih, BitVec.toNat_ofNat]
    rw [show (256 : Nat) ^ (n + 1) = 256 * 256 ^ n from Nat.pow_succ'.trans rfl, Nat.mod_mul]

/-- The word just stored is read back. -/
theorem State.mword_setMword (s : State) (sp : Space) (a v : Nat) : (s.setMword sp a v).mword sp a = v % 2 ^ 32 := by
  have h := State.bytes_setBytes s sp a (leBytes 4 v)
  rw [length_leBytes] at h
  have e : 256 ^ 4 = 2 ^ 32 := by decide
  rw [State.mword, State.setMword, h, leNat_leBytes, e]

/-! ### The canonical form -/

theorem Memory.wf_mwr (s : State) (sp : Space) (a : Nat) (b : Byte) (h : Memory.wf s.mem = true) :
    Memory.wf (s.mwr sp a b).mem = true := tabWf_tabSet 0 s.mem _ b h

theorem Memory.wf_zero (s : State) (sp : Space) (a n : Nat) (h : Memory.wf s.mem = true) :
    Memory.wf (s.zero sp a n).mem = true := tabWf_tabClear 0 s.mem _ _ h

theorem Memory.wf_setBytes (s : State) (sp : Space) (a : Nat) (bs : List Byte) (h : Memory.wf s.mem = true) :
    Memory.wf (s.setBytes sp a bs).mem = true := by
  induction bs generalizing s a with
  | nil => exact h
  | cons b bs ih => exact ih _ _ (Memory.wf_mwr s sp a b h)

theorem Memory.wf_setMword (s : State) (sp : Space) (a v : Nat) (h : Memory.wf s.mem = true) :
    Memory.wf (s.setMword sp a v).mem = true := Memory.wf_setBytes s sp a _ h

theorem Memory.wf_setWords (s : State) (sp : Space) (a : Nat) (ws : List Nat) (h : Memory.wf s.mem = true) :
    Memory.wf (s.setWords sp a ws).mem = true := by
  induction ws generalizing s a with
  | nil => exact h
  | cons w ws ih => exact ih _ _ (Memory.wf_setMword s sp a w h)

theorem Memory.wf_reset : Memory.wf State.reset.mem = true := rfl

/-- Registers keep their canonical form under a write. -/
theorem State.regsWf_wr (s : State) (r : Reg) (v i j k : Nat) (h : tabWf (0 : Word) s.regs = true) :
    tabWf (0 : Word) (s.wr r v i j k).regs = true := tabWf_tabSet 0 s.regs _ _ h

/-- A write of a register keeps the state's canonical form, and so does a store of bytes. -/
theorem State.canonical_wr (s : State) (r : Reg) (v i j k : Nat) (h : s.canonical = true) : (s.wr r v i j k).canonical = true := by
  simp only [State.canonical, Bool.and_eq_true] at h ⊢
  exact ⟨h.1, State.regsWf_wr s r v i j k h.2⟩

theorem State.canonical_setBytes (s : State) (sp : Space) (a : Nat) (bs : List Byte) (h : s.canonical = true) :
    (s.setBytes sp a bs).canonical = true := by
  simp only [State.canonical, Bool.and_eq_true] at h ⊢
  refine ⟨Memory.wf_setBytes s sp a bs h.1, ?_⟩
  rw [State.setBytes_eq]
  exact h.2

theorem State.canonical_reset : State.reset.canonical = true := rfl

end Sys2Proof.Machine
end

