-- ==== Sys2Proof/Laws/Ops.lean ====
section
/-! SUPPORT. The shared operations that commands are made of, each with what it does said once: accesses by a requester, commands'
acknowledges, notifications, and what a change of registers alone leaves. -/
namespace Sys2Proof.Machine

/-! ### OnlyRegs -/

theorem OnlyRegs.refl (s : State) (l : List Nat) : OnlyRegs s s l := fun _ _ => rfl

theorem OnlyRegs.trans {s t u : State} {l m : List Nat} (h : OnlyRegs s t l) (g : OnlyRegs t u m) : OnlyRegs s u (l ++ m) := by
  intro a ha
  rw [List.mem_append, not_or] at ha
  rw [g a ha.2, h a ha.1]

theorem OnlyRegs.mono {s t : State} {l m : List Nat} (h : OnlyRegs s t l) (hs : ∀ a ∈ l, a ∈ m) : OnlyRegs s t m :=
  fun a ha => h a fun hl => ha (hs a hl)

theorem OnlyRegs.of_regs {s t : State} (h : t.regs = s.regs) (l : List Nat) : OnlyRegs s t l := fun _ _ => by rw [h]

theorem onlyRegs_wr (s : State) (r : Reg) (v i j k : Nat) : OnlyRegs s (s.wr r v i j k) [r.addr i j k] := by
  intro a ha
  simp only [List.mem_singleton] at ha
  simp only [State.wr, tabGet_tabSet_ne _ _ _ ha]

theorem onlyRegs_put (s : State) (f : Fld) (v i j k : Nat) : OnlyRegs s (s.put f v i j k) [f.reg.addr i j k] :=
  onlyRegs_wr s f.reg _ i j k

/-! ### Accesses -/

/-- A write by a requester that reaches the device and passes the firewall (R306, R405): the block's effect, or none. -/
theorem guardedWrite_of_writes (s : State) (r : Requester) (a : Nat) (may : Bool) (f : State → State) (h : writes s r a = true) :
    guardedWrite s r a may f = if may then f { s with bus := {} } else { s with bus := {} } := by
  simp only [writes, Bool.and_eq_true] at h
  simp [guardedWrite, h.1, h.2]

theorem guardedRead_of_reads (s : State) (r : Requester) (a : Nat) (f : State → State) (h : reads s r a = true) :
    guardedRead s r a f = f s := by
  simp only [reads, Bool.and_eq_true] at h
  simp [guardedRead, h.1, h.2]

/-- A host whose link is down changes nothing (R306). -/
theorem guardedWrite_of_down (s : State) (r : Requester) (a : Nat) (may : Bool) (f : State → State) (h : reaches s r a = false) :
    guardedWrite s r a may f = s := by simp [guardedWrite, h]

/-- Armature and Patina pass the firewall (R405). -/
theorem fwPass_arm (s : State) (wr : Bool) (a : Nat) : fwPass s .arm wr a = true := rfl
theorem fwPass_pat (s : State) (wr : Bool) (a : Nat) : fwPass s .pat wr a = true := rfl

/-- All requesters but the host reach the device. -/
theorem writes_arm (s : State) (a : Nat) : writes s .arm a = true := rfl
theorem writes_pat (s : State) (a : Nat) : writes s .pat a = true := rfl

/-! ### Acknowledges and notifications (R311, R324, R345) -/

/-- An acknowledge by Atelier changes registers alone. -/
theorem hmbAck_eq (s : State) (n v : Nat) : hmbAck s n v = { s with regs := (hmbAck s n v).regs } := rfl

theorem adbSet_of_regs {s u : State} (h : u = { s with regs := u.regs }) (v : Nat) :
    adbSet u v = { s with regs := (adbSet u v).regs } := by
  have : adbSet u v = { u with regs := (adbSet u v).regs } := rfl
  rw [this]; exact congrArg (fun x : State => { x with regs := (adbSet u v).regs }) h

/-- A command's acknowledge changes registers and the command service alone; the command leaves the queue, with its job. -/
theorem ack_eq (s : State) (n status value : Nat) :
    ack s n status value = { s with
      regs := (ack s n status value).regs
      cmd := { s.cmd with
        order := s.cmd.order.filter fun k => k != n
        jobs := tabSet .none s.cmd.jobs n .none
        ring := tabSet 0 s.cmd.ring n 0 } } := by
  have close : ∀ u : State, u = { s with regs := u.regs } → ∀ f : CmdSt → CmdSt,
      { u with cmd := f u.cmd } = { s with regs := u.regs, cmd := f s.cmd } := fun u h f => by rw [h]
  unfold ack
  refine close _ ?_ fun c => { c with
    order := c.order.filter fun k => k != n, jobs := tabSet .none c.jobs n .none, ring := tabSet 0 c.ring n 0 }
  split <;> split
  · exact hmbAck_eq _ _ _
  · exact adbSet_of_regs (hmbAck_eq _ _ _) _
  · exact hmbAck_eq _ _ _
  · exact adbSet_of_regs (hmbAck_eq _ _ _) _

@[simp] theorem ack_mem (s : State) (n status value : Nat) : (ack s n status value).mem = s.mem := by rw [ack_eq]
@[simp] theorem ack_pending (s : State) (n status value : Nat) : (ack s n status value).pending = s.pending := by rw [ack_eq]
@[simp] theorem ack_now (s : State) (n status value : Nat) : (ack s n status value).now = s.now := by rw [ack_eq]

/-- A notification changes the command service's queue alone. -/
theorem notify_eq (s : State) (code ch detail : Nat) :
    notify s code ch detail = { s with cmd := { s.cmd with
      notes := (notify s code ch detail).cmd.notes, lost := (notify s code ch detail).cmd.lost } } := by
  unfold notify
  split <;> rfl

/-- With room in the queue it stands at the end. -/
theorem notify_room (s : State) (code ch detail : Nat) (h : s.cmd.notes.length < 256) :
    notify s code ch detail = { s with cmd := { s.cmd with
      notes := s.cmd.notes ++ [w32 (code * 2 ^ 24 + ch % 4096 * 2 ^ 12 + detail % 4096)] } } := by simp [notify, h]

end Sys2Proof.Machine
end

