-- ==== Sys2Proof/Laws/Boot.lean ====
section
/-! SUPPORT. What the shared tests of reset, boot and the secure bank say in the usual case (R385, R383, R408, R418, R421). -/
namespace Sys2Proof.Machine

/-- Outside a POR or SYSTEM reset the life-cycle state is the register's. -/
theorem lcState_up (s : State) (h : inReset s = false) : lcState s = s.get R.SEC_STAT_LC := by simp [lcState, h]

/-- A boot that has begun is in no reset, nor is a CORE reset one. -/
theorem inReset_phase (s : State) (h : s.boot.phase ≠ 0) : inReset s = false := by simp [inReset, h]

theorem inReset_core (s : State) (h : s.boot.reach = some 2) : inReset s = false := by simp [inReset, h]

/-- While the secure bank is unlocked an event is logged at once; while it is locked it waits. -/
theorem measure_open (s : State) (type info : Nat) (m : List Byte) (h : s.on R.MEM_SEC_STAT_LOCKED = false) :
    measure s type info m = measureNow s type info m := by simp [measure, h]

theorem measure_locked (s : State) (type info : Nat) (m : List Byte) (h : s.on R.MEM_SEC_STAT_LOCKED = true) :
    measure s type info m = { s with sec := { s.sec with late := s.sec.late ++ [(type, info, m)] } } := by simp [measure, h]

/-- With no event that waits, nothing is logged at the end of a wipe. -/
theorem measureLate_nil (s : State) (h : s.sec.late = []) : measureLate s = s := by simp [measureLate, h]

/-- A bank whose window is not under test takes its state at once. -/
theorem bankStay_free (s : State) (b st : Nat) (h : s.on R.MEM_BK_STAT_UNDER_TEST b = false) (t : s.ocm.test = none) :
    bankStay s b st = { (s.put R.MEM_BK_STAT_STATE st b).put R.MEM_BK_PWR_STATE st b with
      ocm := { s.ocm with req := tabSet 0 s.ocm.req b 0 } } := by
  simp [bankStay, h, State.put, State.wr, t]

/-- An access to a Rasp unit that R298 refuses is ignored, but a DMA queue's. -/
theorem raspDeny_ignored (s : State) (r : Requester) (h : r ≠ .dma) : raspDeny s r = s := by simp [raspDeny, h]

end Sys2Proof.Machine
end

