-- ==== Sys2Proof/Laws/Dma.lean ====
section
/-! SUPPORT. The DMA engine's shared operations: what each can change, said once (R346, R354, R359). -/
namespace Sys2Proof.Machine

/-- Replacing a queue leaves the other queues. -/
@[simp] theorem dq_setDq_same (s : State) (q : Nat) (x : DqSt) : (s.setDq q x).dq q = x := tabGet_tabSet_same _ _ _ _

theorem dq_setDq_ne (s : State) {q k : Nat} (x : DqSt) (h : k ≠ q) : (s.setDq q x).dq k = s.dq k := tabGet_tabSet_ne _ _ _ h

/-- Where no queue holds a grant or waits for a tag, a burst or a tag that is free changes nothing more. -/
theorem tagFreed_none (s : State) (h : ∀ k : Nat, k < 64 → (s.dq k).held = false ∧ (s.dq k).wait = false) : tagFreed s = s := by
  have e : numsWhere 64 (fun q => (s.dq q).held || (s.dq q).wait) = [] := by
    simp only [numsWhere, List.filter_eq_nil_iff, List.mem_range]
    intro k hk
    simp [h k hk]
  simp [tagFreed, e]

/-- A burst that leaves flight where no queue waits lowers the count alone. -/
theorem burstLeaves_none (s : State) (h : ∀ k : Nat, k < 64 → (s.dq k).held = false ∧ (s.dq k).wait = false) :
    burstLeaves s = s.put R.DMA_STAT_INFLIGHT (s.get R.DMA_STAT_INFLIGHT - 1) := tagFreed_none _ h

/-- A descriptor that stops changes the DMA engine's state alone. -/
theorem descStop_eq (s : State) (q : Nat) : descStop s q = { s with dma := (descStop s q).dma } := rfl

/-- After it the queue's descriptor is to be returned. -/
theorem descStop_phase (s : State) (q : Nat) : ((descStop s q).dq q).phase = 3 := by
  show ((s.setDq q { s.dq q with phase := 3 }).dq q).phase = 3
  rw [dq_setDq_same]

/-- Nothing of a frame to HDMA is left after it. -/
theorem descStop_htx (s : State) (q : Nat) : tabGet [] (descStop s q).dma.htx q = [] := by
  show tabGet [] (tabSet [] _ q []) q = []
  exact tabGet_tabSet_same ([] : List Byte) _ q []

/-- A queue with its ring in fabric memory needs no tag for its descriptor. -/
theorem tagFor_fabric (s : State) (q : Nat) (h : s.on R.DQ_CTL_RING_SP q = false) : tagFor s q = true := by simp [tagFor, h]

end Sys2Proof.Machine
end

