-- ==== Sys2Proof/Laws/Evh.lean ====
section
/-! SUPPORT. The event hub's shared operations: what each can change, said once (R304, R364, R365, R371), and address errors (R23). -/
namespace Sys2Proof.Machine

/-- Nothing changes but registers, host memory, and which bits are presented or wait for a fallback. -/
def HubFrame (s t : State) : Prop :=
  ∃ r m p l, t = { s with regs := r, mem := m, evh := { s.evh with presented := p, linger := l } }

theorem HubFrame.refl (s : State) : HubFrame s s := ⟨_, _, _, _, rfl⟩

theorem HubFrame.trans {s t u : State} (h : HubFrame s t) (g : HubFrame t u) : HubFrame s u := by
  obtain ⟨_, _, _, _, rfl⟩ := h
  obtain ⟨_, _, _, _, rfl⟩ := g
  exact ⟨_, _, _, _, rfl⟩

theorem HubFrame.put (s : State) (f : Fld) (v i j k : Nat) : HubFrame s (s.put f v i j k) := ⟨_, s.mem, _, _, rfl⟩

theorem HubFrame.wr (s : State) (r : Reg) (v i j k : Nat) : HubFrame s (s.wr r v i j k) := ⟨_, s.mem, _, _, rfl⟩

theorem HubFrame.eq {s t : State} (h : HubFrame s t) : t = { s with
    regs := t.regs, mem := t.mem, evh := { s.evh with presented := t.evh.presented, linger := t.evh.linger } } := by
  obtain ⟨_, _, _, _, rfl⟩ := h
  rfl

/-- An MSI-X message changes the pending bits or host memory. -/
theorem msixSend_frame (s : State) (vec : Nat) : ∃ r m, msixSend s vec = { s with regs := r, mem := m } := by
  unfold msixSend
  split
  · exact ⟨_, _, rfl⟩
  · split
    · exact ⟨_, s.mem, rfl⟩
    · exact ⟨s.regs, _, State.setBytes_eq _ _ _ _⟩

/-- With MSI-X off nothing is sent. -/
theorem msixSend_off (s : State) (vec : Nat) (h : s.hif.msixEn = false) : msixSend s vec = s := by simp [msixSend, h]

/-- Presenting a bit to a target that is not the host. -/
theorem present_of_ne (s : State) (n t : Nat) (h : t ≠ 6) :
    present s n t = { s with evh := { s.evh with
      presented := tabSet 0 s.evh.presented n (t + 1), linger := tabSet 0 s.evh.linger n 0 } } := by simp [present, bitOn, h]

/-- Presenting a bit changes the hub's bits, and for the host what its message changes. -/
theorem present_eq (s : State) (n t : Nat) : ∃ r m, present s n t = { s with
    regs := r, mem := m
    evh := { s.evh with presented := tabSet 0 s.evh.presented n (t + 1), linger := tabSet 0 s.evh.linger n 0 } } := by
  unfold present bitOn
  simp only
  split
  · obtain ⟨r, m, h⟩ := msixSend_frame { s with evh := { s.evh with
      presented := tabSet 0 s.evh.presented n (t + 1), linger := tabSet 0 s.evh.linger n 0 } } (s.get R.EVH_SRC_CFG_VEC n)
    exact ⟨r, m, h⟩
  · exact ⟨_, _, rfl⟩

theorem present_frame (s : State) (n t : Nat) : HubFrame s (present s n t) := by
  obtain ⟨r, m, h⟩ := present_eq s n t
  exact ⟨r, m, _, _, h⟩

@[simp] theorem present_presented (s : State) (n t : Nat) :
    tabGet 0 (present s n t).evh.presented n = t + 1 := by
  obtain ⟨r, m, h⟩ := present_eq s n t
  rw [h]
  exact tabGet_tabSet_same (0 : Nat) s.evh.presented n (t + 1)

/-- A target that is awake is presented the bit at once. -/
theorem deliver_awake (s : State) (n t : Nat) (h : asleep s t = false) : deliver s n t = present s n t := by simp [deliver, h]

/-- A sleeping target with WAKE_EN is woken for it. -/
theorem deliver_wake (s : State) (n t : Nat) (h : asleep s t = true) (w : s.on R.EVH_T_CTL_WAKE_EN t = true) :
    deliver s n t = present (s.clr R.EVH_T_STAT_SLEEP t) n t := by simp [deliver, h, w]

/-- Another sleeping target is left, the linger time running. -/
theorem deliver_asleep (s : State) (n t : Nat) (h : asleep s t = true) (w : s.on R.EVH_T_CTL_WAKE_EN t = false)
    (b : s.on R.EVH_SRC_CFG_FB n = false) : deliver s n t = { s with evh := { s.evh with
      linger := tabSet 0 s.evh.linger n (s.now + s.get R.EVH_T_CTL_LINGER t * 1000 + 1) } } := by simp [deliver, h, w, b]

/-- A delivery changes registers, host memory and the hub's bits; claims stay. -/
theorem deliver_frame (s : State) (n t : Nat) : HubFrame s (deliver s n t) := by
  unfold deliver
  split
  · exact present_frame s n t
  · split
    · exact (HubFrame.put s R.EVH_T_STAT_SLEEP 0 t 0 0).trans (present_frame _ n t)
    · split
      · exact HubFrame.refl s
      · exact ⟨s.regs, s.mem, s.evh.presented, _, rfl⟩

/-- A source that enters Pending while it is masked. -/
theorem enterPending_masked (s : State) (n : Nat)
    (h : evMasked ((s.put R.EVH_SRC_CFG_STATE 1 n).clr R.EVH_SRC_CFG_FB n) n = true) :
    enterPending s n = (s.put R.EVH_SRC_CFG_STATE 1 n).clr R.EVH_SRC_CFG_FB n := by simp [enterPending, h]

theorem enterPending_frame (s : State) (n : Nat) : HubFrame s (enterPending s n) := by
  have h : HubFrame s ((s.put R.EVH_SRC_CFG_STATE 1 n).clr R.EVH_SRC_CFG_FB n) :=
    (HubFrame.put s R.EVH_SRC_CFG_STATE 1 n 0 0).trans (HubFrame.put _ R.EVH_SRC_CFG_FB 0 n 0 0)
  unfold enterPending
  simp only
  split
  · exact h
  · exact h.trans (deliver_frame _ n _)

/-- An event of a source changes registers, host memory and the hub's bits alone. -/
theorem evhEvent_frame (s : State) (n : Nat) : HubFrame s (evhEvent s n) := by
  unfold evhEvent
  simp only
  split
  · exact HubFrame.refl s
  · split
    · exact enterPending_frame s n
    · split
      · exact HubFrame.put s R.EVH_SRC_CFG_STATE 3 n 0 0
      · exact HubFrame.refl s

/-- An address error is an event of the requester's source (R23). -/
theorem addrErr_frame (s : State) (r : Requester) : HubFrame s (addrErr s r) := evhEvent_frame s (308 + reqTarget r)

end Sys2Proof.Machine
end

