-- ==== Sys2Proof/Laws/Switch.lean ====
section
/-! SUPPORT. The switch core's tables, ports, queues and gate lists: what a read gives after a write. -/
namespace Sys2Proof.Machine

/-- A word of a switch table after a write of one: that word takes the value, every other word of every table keeps its own. -/
theorem swWord_setSwWord (s : State) (t e w v t' e' w' : Nat) (he : e < 32768) (he' : e' < 32768) (hw : w < 8) (hw' : w' < 8) :
    swWord (setSwWord s t e w v) t' e' w' = if t' = t ∧ e' = e ∧ w' = w then v % 2 ^ 32 else swWord s t' e' w' := by
  simp only [swWord, setSwWord, tabGet_tabSet]
  by_cases h : t' * 2 ^ 24 + e' * 8 + w' = t * 2 ^ 24 + e * 8 + w
  · have : t' = t ∧ e' = e ∧ w' = w := by omega
    simp [h, this, w32]
  · have : ¬(t' = t ∧ e' = e ∧ w' = w) := by rintro ⟨rfl, rfl, rfl⟩; exact h rfl
    simp only [h, this, if_false]

theorem setSwWord_regs (s : State) (t e w v : Nat) : (setSwWord s t e w v).regs = s.regs := rfl

theorem State.port_setPort (s : State) (p q : Nat) (x : PortSt) :
    (s.setPort p x).port q = if q = p then x else s.port q := by
  simp only [State.port, State.setPort, tabGet_tabSet]

theorem State.gcl_setGcl (s : State) (p q : Nat) (x : GclSt) : (s.setGcl p x).gcl q = if q = p then x else s.gcl q := by
  simp only [State.gcl, State.setGcl, tabGet_tabSet]

/-- A queue after another one is replaced: classes are below 8, so that every port and class has its own. -/
theorem State.queue_setQueue (s : State) (p c q d : Nat) (l : List SwFrame) (hc : c < 8) (hd : d < 8) :
    (s.setQueue p c l).queue q d = if q = p ∧ d = c then l else s.queue q d := by
  simp only [State.queue, State.setQueue, State.put, State.wr, tabGet_tabSet]
  by_cases h : q * 8 + d = p * 8 + c
  · have : q = p ∧ d = c := by omega
    simp [h, this]
  · have : ¬(q = p ∧ d = c) := by rintro ⟨rfl, rfl⟩; exact h rfl
    simp only [h, this, if_false]

/-- The ways of a key's set are entries of the FDB. -/
theorem fdbWays_lt {mac fid i : Nat} (h : i ∈ fdbWays mac fid) : i < 32768 := by
  simp only [fdbWays, List.mem_map, List.mem_range] at h
  obtain ⟨w, hw, rfl⟩ := h
  have := (Config.fdbHash mac fid).isLt
  omega

end Sys2Proof.Machine
end

