-- ==== Sys2Proof/WellFormed.lean ====
section
/-! DEFINITION. What a command of the table must satisfy beyond its operands' types: counts and lengths that the spec gives. The
step runs every command as it is; these checks say which ones the spec speaks of. -/
namespace Sys2Proof

/-- The units of a kind of wear (R424). -/
def wearCount : WearKind → Nat
  | .engine => 52
  | .bank => 96
  | .lane => 12
  | .segment => 288
  | .core => 5

/-- The bits that an access of a width carries here: 64-bit data stand in the low word, the upper one being 0. -/
def widthBits : Width → Nat
  | .b8 => 8
  | .b16 => 16
  | .b32 => 32
  | .b64 => 32

/-- The items of a remote write (R61): some, each with data within its mask. -/
def itemsOk (ws : List RemoteItem) : Bool := !ws.isEmpty && ws.all fun w => w.data &&& ~~~w.mask == 0

/-- What a packet carries (R61, R438). -/
def pkMsgOk : PkMsg → Bool
  | .items ws => itemsOk ws
  | .frame f => !f.isEmpty
  | _ => true

/-- Whether a command is one that the spec speaks of. -/
def wellFormed : Instr → Bool
  | .registerWrite _ w _ v => decide (v.toNat < 2 ^ widthBits w)
  | .starvationGrant _ asking first => asking.contains first
  | .remoteWrite _ ws => itemsOk ws
  | .frameReceive _ f _ _ => !f.isEmpty
  | .pauseFrame _ pfc _ q => q.length == (if pfc then 8 else 1)
  | .canFrameReceive _ _ _ _ _ d => decide (d.length ≤ 2048)
  | .qspiWrite _ ws => !ws.isEmpty && decide (ws.length ≤ 64)
  | .badFrame op => op != 0x02 && op != 0x0B && op != 0x05
  | .qspiAbort (.write _ ws) => decide (ws.length ≤ 64)
  | .supplyGood mvs => mvs.length == 8
  | .wearRound k ps => ps.length == wearCount k
  | .packetReceive _ _ crcOk p => crcOk == p.isSome && p.all fun x => pkMsgOk x.msg
  | _ => true

end Sys2Proof
end

