-- ==== Sys2Proof/Tests/Slice0.lean ====
section
/-! SUPPORT. Tests of the model on small states, and for every statement a state and operands that meet its hypotheses. -/
set_option maxRecDepth 8192
namespace Sys2Proof.Tests
open Sys2Proof Sys2Proof.Machine

/-- A state after reset whose firewall passes every write (SEC_FW_DEFAULT 0xAA), with the PCIe link up. -/
def opened : State := ((State.reset.wr R.SEC_FW_DEFAULT 0xAA).raise R.HIF_STAT_LINK_UP).raise R.HIF_STAT_BME

/-- The store enabled, one item (handle 5, 8 bits at offset 0, group 1, no casts), and a write of it that waits. -/
def stored : State :=
  { opened.raise R.SS_CTL_EN with
    store := { items := [(5, itemEntry 0 8 1 0xFFFF false false false false 0)], portQ := [⟨.engine 0 0, [(5, 1, 1)]⟩] } }

/-- Two writes that wait, of which engine 1's has waited since engine 0's last grant. -/
def waiting : State :=
  { stored with store := { stored.store with portQ := [⟨.engine 0 0, [(5, 1, 1)]⟩, ⟨.engine 1 0, [(5, 0, 1)]⟩], turns := [(1, [0])] } }

/-- A DMA queue, 63, that is ready to issue a burst and starves. -/
def bursting : State :=
  { (((opened.raise R.DMA_CTL_EN).wr R.DQ_CTL 0x1001 63).put R.DQ_SIZE_V 4 63).setDq 63
      { phase := 2, ctl := 0x80000014, len := 16, src := 0x2000, dst := 0x3000 } with starve := [(256 + 63, 64)] }

/-- The store enabled and group 7 enabled with TRIG = 1. -/
def grouped : State := ((opened.raise R.SS_CTL_EN).raise R.SS_CG_CTL_EN 7).raise R.SS_CG_CTL_TRIG 7

/-- Ports 3 and 5 ENABLED, port 3 with its link up at 100 Mbit/s and pause reception on. -/
def portsUp : State :=
  (((opened.wr R.MAC_CTL 0x2201 3).wr R.MAC_CTL 1 5).put R.MAC_STAT_LINK 1 3).put R.MAC_STAT_SPEED 1 3

/-- The example words of the encoding tables (R104 to R106), and words that are undefined. -/
theorem test_engine_words :
    decodeEngine 0x04A63800 = .add 5 6 7 ∧ decodeEngine 0x20600008 = .addi 3 0 8 ∧ decodeEngine 0x825FFFFB = .b 9 0x1FFFFB
    ∧ decodeEngine 0xC0801001 = .ioInw 4 0x100 none ∧ decodeEngine 0 = .nop
    ∧ decodeEngine 0xFC000000 = .undefined ∧ decodeEngine 0x04000005 = .undefined ∧ decodeEngine 0xC0000008 = .undefined
    ∧ decodeEngine 0x08000600 = .undefined := by decide

/-- Engine 5 RUNNING with cycles on generator 1, a gap of 100,000 ns, and pace 1,000; engine 6 in STARTPEND, due; engine 7 STOPPING. -/
def engines : State :=
  let s := ((((opened.put R.CE_STAT_STATE 1 5).raise R.CE_CYC_EN 5).put R.CE_CYC_IG 1 5).put R.CE_GAP_LEN_V 100000 5).put R.CE_PACE_V 1000 5
  let s := ((s.put R.CE_STAT_STATE 5 6).modEng 6 fun x => { x with startDue := true, cycAt := some 7 }).raise R.CE_GSTAT_READY
  let s := s.modEng 5 fun x => { x with cycAt := some 0 }
  (s.put R.CE_STAT_STATE 3 7).modEng 7 fun x => { x with haltDue := true }

/-- Engine 0 RUNNING, w2 = 0x7FFFFFFF, w3 = 1, the word `w` at address 0 of its instruction memory and a write-back of w3 pending. -/
def running (w : Nat) : State :=
  ((opened.put R.CE_STAT_STATE 1 0).setMword (.imem 0) 0 w).modEng 0 fun x =>
    { x with w := [(2, 0x7FFFFFFF), (3, 5)], wbs := [⟨0, some (3, 1), none⟩] }

/-- A Frieze network of two nodes, 1 and 2, node 1 the leader; its instance in slot 0 used and STARTING. -/
def fzNet : FzCfg := { cycle := 100000, guard := 100, acycOff := 50000, miniLen := 10000, acycMax := 200, etype := 0x9101, node := 2, cand := true, da := [1, 0, 0, 0, 0, 0],
                       slots := [1, 2], sects := [(1, 1), (1, 1)], branches := [(1, 1, 0, true, true), (2, 2, 0, true, true)] }
def fzState (x : FzInst) : State :=
  ({ portsUp with time := { portsUp.time with d0 := { offs := BitVec.ofNat 104 (1000000 * 2 ^ 40) } } }.setInst 0 { used := true, st := 1 }).setFzi 0 x

/-- A frame without content of type `ty` and kind 0 from node `src` with NODES = `nodes`, with its FCS. -/
def fzFrame (ty src nodes kind : Nat) : List Byte :=
  withFcs ([1, 0, 0, 0, 0, 0, 2, 0, 0, 0, 0, 0] ++ beBytes 2 0x9101 ++ fzHeader 1 0 ty src nodes kind ++ List.replicate 30 0) true

theorem witness_FriezeNode_calm : FzCalm (fzState {}) 0 { st := 2, role := 1, port := 3, cfg := fzNet } := fun h => absurd h (by decide)

/-- A device whose timebase runs: the PLL locked, FRC at 1,000 ns. -/
def ticking : State :=
  let s := opened.raise R.TB_STAT_LOCK
  { s with time := { s.time with frc := 1000 } }

/-- Generator 3 enabled as PERIODIC in domain 1 with a first instant due at 900 ns. -/
def igRunning : State :=
  (ticking.wr R.TB_IG_CTL 0x07 3).setIgen 3 { armed := true, mode := true, dom := 1, period := 6553600, next := 900 * 65536 }

/-- Engine 0 RUNNING, bound to ports 3 (window A) and 4 (window B), owner of port 3 for the whole time; ports 3 and 4 ENABLED with
their links up at 100 Mbit/s; and a frame that has passed port 3 up to its byte 1. -/
def spliced : State :=
  let s := (((opened.put R.CE_STAT_STATE 1 0).wr R.CE_BIND 0x8483 0).wr R.SW_P_OWN 0x80 3 0).put R.CE_SLACK_CUR_V 9 0
  let s := ((s.wr R.MAC_CTL 1 3).wr R.MAC_CTL 1 4)
  let s := ((s.put R.MAC_STAT_LINK 1 3).put R.MAC_STAT_LINK 1 4).put R.MAC_STAT_SPEED 1 4
  s.setPort 3 { pass := some { owner := some 0, started := true, inB := [7] } }

/-- VLAN 1 of the reset, a frame of class 0 that waits at internal port 27 and one at port 3, and the switch core enabled. -/
def switching : State :=
  ((((portsUp.raise R.SW_CTL_EN).setQueue 27 0 [⟨List.replicate 64 0, 1, 0, 0, 0, 0, 3, 0, none⟩]).setQueue 3 0
    [⟨List.replicate 64 0, 0, 1, 0, 0, 0, 5, 0, none⟩]).put R.SW_POOL_FREE_V 100).put R.SW_RES_LIMIT_V 5

/-- The first way of a key's set; a state whose FDB holds a key there; one whose ways of a key's set are static entries. -/
def way (mac fid : Nat) : Nat := 4 * (Config.fdbHash mac fid).val
def fdbHeld (s : State) (mac fid dest : Nat) : State :=
  setSwWord (setSwWord (setSwWord s 0 (way mac fid) 0 (mac % 2 ^ 32)) 0 (way mac fid) 1 (mac / 2 ^ 32 + fid * 65536))
    0 (way mac fid) 2 (0x2000 + dest * 4)
def allStatic (mac fid : Nat) : State :=
  (List.range 4).foldl (fun s w => setSwWord s 0 (way mac fid + w) 2 0x3000) { switching with sw := { switching.sw with tables := [] } }

theorem way_lt (mac fid : Nat) : way mac fid + 3 < 32768 := by
  have := (Config.fdbHash mac fid).isLt
  unfold way; omega

theorem fdbFind_fdbHeld : fdbFind (fdbHeld switching 0x010101010101 0 27) 0x010101010101 0 = some (way 0x010101010101 0)
    ∧ swWord (fdbHeld switching 0x010101010101 0 27) 0 (way 0x010101010101 0) 2 % 4 = 0
    ∧ bits (swWord (fdbHeld switching 0x010101010101 0 27) 0 (way 0x010101010101 0) 2) 2 10 = 27
    ∧ frameDa (List.replicate 60 1 ++ fcsOf (List.replicate 60 1)) = 0x010101010101 := by
  have hw := way_lt 0x010101010101 0
  have h : ∀ w v : Nat, w < 3 → (w = 0 → v = 0x01010101) → (w = 1 → v = 0x0101) → (w = 2 → v = 0x206C) →
      swWord (fdbHeld switching 0x010101010101 0 27) 0 (way 0x010101010101 0) w = v := by
    intro w v hw' h0 h1 h2
    have hc : w = 0 ∨ w = 1 ∨ w = 2 := by omega
    unfold fdbHeld
    rw [swWord_setSwWord _ _ _ _ _ _ _ _ (by omega) (by omega) (by omega) (by omega),
      swWord_setSwWord _ _ _ _ _ _ _ _ (by omega) (by omega) (by omega) (by omega),
      swWord_setSwWord _ _ _ _ _ _ _ _ (by omega) (by omega) (by omega) (by omega)]
    obtain rfl | rfl | rfl := hc <;> simp_all
  refine ⟨?_, ?_, ?_, by decide⟩
  · have hv : fdbValid (fdbHeld switching 0x010101010101 0 27) (way 0x010101010101 0) = true := by
      unfold fdbValid; rw [h 2 0x206C (by decide) (by decide) (by decide) (by decide)]; decide
    have hk : fdbKey (fdbHeld switching 0x010101010101 0 27) (way 0x010101010101 0) = (0x010101010101, 0) := by
      unfold fdbKey
      rw [h 0 0x01010101 (by decide) (by decide) (by decide) (by decide), h 1 0x0101 (by decide) (by decide) (by decide) (by decide)]
      decide
    have hl : fdbWays 0x010101010101 0 = way 0x010101010101 0 :: (fdbWays 0x010101010101 0).tail := by simp [fdbWays, way, List.range, List.range.loop]
    unfold fdbFind
    rw [hl, List.find?_cons_of_pos]
    simp [hv, hk]
  · rw [h 2 0x206C (by decide) (by decide) (by decide) (by decide)]
  · rw [h 2 0x206C (by decide) (by decide) (by decide) (by decide)]; decide

theorem witness_SwitchTables_ways : (∃ i, fdbVictim switching (indKey switching).1 (indKey switching).2 = some i)
    ∧ fdbFind switching 0 0 = none ∧ indKey switching = (0, 0) ∧ fdbVictim (allStatic 5 0) 5 0 = none := by
  have hv : ∀ i : Nat, i < 32768 → fdbValid switching i = false := by
    intro i hi
    have h : switching.sw.tables = vlanOneReset := by decide
    have e1 : 0x1000008 ≠ 0 * 2 ^ 24 + i * 8 + 2 := by omega
    have e2 : 0x1000009 ≠ 0 * 2 ^ 24 + i * 8 + 2 := by omega
    have e3 : 0x100000A ≠ 0 * 2 ^ 24 + i * 8 + 2 := by omega
    unfold fdbValid swWord
    rw [h]; unfold vlanOneReset
    simp only [tabGet, if_neg e1, if_neg e2, if_neg e3]; decide
  have hk : indKey switching = (0, 0) := by decide
  have hf : fdbFind switching 0 0 = none := by
    unfold fdbFind
    rw [List.find?_eq_none]
    intro i hi
    simp [hv i (fdbWays_lt hi)]
  refine ⟨?_, hf, hk, ?_⟩
  · rw [hk]
    have hw := (Config.fdbHash 0 0).isLt
    refine ⟨4 * (Config.fdbHash 0 0).val + 0, ?_⟩
    unfold fdbVictim
    rw [hf]
    simp [fdbWays, List.range, List.range.loop, hv (4 * (Config.fdbHash 0 0).val) (by omega)]
  · have hlt := way_lt 5 0
    have hwords : ∀ i ∈ fdbWays 5 0, swWord (allStatic 5 0) 0 i 2 = 0x3000 ∧ swWord (allStatic 5 0) 0 i 0 = 0 := by
      intro i hi
      have hi' := fdbWays_lt hi
      have hmem : ∃ w : Nat, w < 4 ∧ way 5 0 + w = i := by simpa [fdbWays, way] using hi
      have h0 : ∀ e w : Nat, swWord { switching with sw := { switching.sw with tables := [] } } 0 e w = 0 := by
        intro e w; rfl
      unfold allStatic
      simp only [List.range, List.range.loop, List.foldl_cons, List.foldl_nil]
      repeat rw [swWord_setSwWord _ _ _ _ _ _ _ _ (by omega) (by omega) (by omega) (by omega)]
      rw [h0, h0]
      obtain ⟨w, hw, rfl⟩ := hmem
      have : w = 0 ∨ w = 1 ∨ w = 2 ∨ w = 3 := by omega
      obtain rfl | rfl | rfl | rfl := this <;> simp
    have h1 : fdbFind (allStatic 5 0) 5 0 = none := by
      unfold fdbFind
      rw [List.find?_eq_none]
      intro i hi
      have := (hwords i hi).2
      simp only [fdbKey, this, Bool.and_eq_true, not_and]
      intro _
      generalize swWord (allStatic 5 0) 0 i 1 = n
      simp only [beq_iff_eq, Prod.mk.injEq, not_and, bits]
      intro h; omega
    have h2 : (fdbWays 5 0).find? (fun i => !fdbValid (allStatic 5 0) i) = none := by
      rw [List.find?_eq_none]
      intro i hi; unfold fdbValid; rw [(hwords i hi).1]; decide
    have h3 : (fdbWays 5 0).filter (fun i => !fdbStatic (allStatic 5 0) i) = [] := by
      rw [List.filter_eq_nil_iff]
      intro i hi; unfold fdbStatic; rw [(hwords i hi).1]; decide
    unfold fdbVictim
    simp [h1, h2, h3]

/-- A command of opcode `op` with ARG `arg` on channel 7 in mailbox 0, the channel's cached entry of type `ty` with its parameters,
`par`, at shared-scratch address 0x1000. -/
def entry (ty : Nat) : List Byte :=
  [BitVec.ofNat 8 ty, 9] ++ leBytes 2 1 ++ leBytes 4 0 ++ leBytes 8 0x1000 ++ leBytes 4 0x400 ++ List.replicate 44 0
def mail (op arg ty : Nat) (par : List Byte) : State :=
  let s := (((opened.wr R.HMB_DATA (op * 2 ^ 24 + 7 * 2 ^ 12 + arg) 0).raise R.HMB_STAT_FULL 0).raise R.HIF_CHT_CTL_EN).raise R.HIF_CHT_CTL_LOC
  { (((s.clr R.HIF_STAT_ATL_RESTART).clr R.HIF_CHT_CTL_CHECK_GEN).put R.HIF_CHT_N_V 8).setBytes .fabric 0x1000 par with cmd := { order := [0], cache := [⟨7, entry ty⟩] } }

/-- Instance 3 of a DATA_EXCHANGE pack in slot 2 on channel 7, holding engine 5, group 9 and generator 6. -/
def packed (s : State) (st : Nat) : State :=
  (s.setInst 3 { used := true, st := st, slot := 2, code := 6, ch := 7, engines := [5], groups := [9], igs := [6] }).setSlot 2
    { loaded := true, code := 3, roles := 1 }

/-- The premises of PACK_START meet: a pack whose plan, which the pack gives, asks for nothing. -/
def starting : State := (mail 0x12 2 2 []).setSlot 2 { loaded := true, code := 3, roles := 1 }

theorem witness_PackCommands_start (h : ∀ i r m c, Config.packPlan i r m c = some {}) :
    Served starting 0 0x12 [2] 0x20 (entry 2) = true ∧ chHeld starting (hmbCh starting 0) = false ∧ instOfCh starting (hmbCh starting 0) = none
    ∧ instFree starting = some 0
    ∧ startPlan (cacheUse (starting.addSat R.HIF_CHC_HIT_V 1) 7 (entry 2)) (starting.slot 2) 0 0 [] = .ok ({}, none, [])
    ∧ ∃ v, startAll (cacheUse (starting.addSat R.HIF_CHC_HIT_V 1) 7 (entry 2)) 0 7 2 0 0 0 {} none [] = .ok v
        ∧ v.rd R.HMB_DATA 0 = starting.rd R.HMB_DATA 0 ∧ chtSpace v = chtSpace starting := by
  refine ⟨by decide, by decide, by decide, by decide, ?_, ?_⟩
  · simp only [startPlan, h]; rfl
  · exact ⟨_, rfl, by decide +kernel, by decide +kernel⟩

/-- A token that takes a BLANK device to PROVISIONED: it carries no signature (R414). -/
def token : State :=
  mail 0x50 1 1 (leBytes 4 0x544C5A59 ++ leBytes 4 1 ++ leBytes 16 0 ++ leBytes 4 1)

theorem witness_TrustCommands_token : hmbArg token 0 % 8 = 1 ∧ Served token 0 0x50 [1] (lcLength token 1) (entry 1) = true
    ∧ lcCheck token 1 (parBytes token (parAddr token (entry 1)) (lcLength token 1)) = none := by decide +kernel

/-- A device in cluster mode, ID 2 of 4, with the links in service and link 0 UP. -/
def joined : State :=
  (((((opened.put R.PK_CTL_SIZE 4).raise R.PK_CTL_EN).put R.PK_STAT_ID 2).raise R.PK_STAT_CLUSTER_EN).raise R.PK_L_CTL_EN 0).raise
    R.PK_L_STAT_UP 0

/-- CAN controller 2 takes part in the bus; its buffer 1 is PENDING. -/
def onBus : State := ((opened.raise R.CAN_CTL_RUN 2).clr R.CAN_STAT_INIT 2).put R.TXB_STAT_STATE 1 2 1

/-- The same with buffer 1 in TX. -/
def sending : State := onBus.put R.TXB_STAT_STATE 2 2 1

/-- Field channel 3 is an OUTPUT, commanded on and on. -/
def outOn : State := ((opened.put R.FX_CH_CFG_MODE 2 3).raise R.FX_CH_STAT_CMD 3).raise R.FX_CH_STAT_ON 3

/-- Rasp unit 15 runs from tick 0; entry 0 of its bank 0 is `e`. -/
def rasping (e : Word) (x : RaspSt) : State :=
  let s := (opened.raise R.RASP_U_CTL_EN 15).setUnit 15 { x with run := true }
  { s with rasp := { s.rasp with tab := tabSet 0 [] (raspKey 15 0 0) e } }

/-- Queue 63 with its ring in host memory, EN and DMA_CTL.EN set, in the phase and with the descriptor given. -/
def dmaq (x : DqSt) : State :=
  ((((opened.raise R.DMA_CTL_EN).wr R.DQ_CTL 0x1001 63).wr R.DQ_RING_LO 0x10000 63).put R.DQ_SIZE_V 4 63).setDq 63 x

/-- A COPY in host memory of 16 bytes from 0x2000 to 0x3000. -/
def copying : DqSt := { phase := 2, ctl := 0x80000014, len := 16, src := 0x2000, dst := 0x3000 }

/-- The quad-SPI bus selected, and a region that keeps all requesters out of 0x4000 to 0x4FFF. -/
def spi : State :=
  fwRegion (((State.reset.wr R.SEC_FW_DEFAULT 0xAA).raise R.HIF_STAT_IF).wr R.HIF_PCI_SUBID 1) 0 0x4000 0x4FFF 0

/-- A device whose boot has come to an end: no reset sequence runs. -/
def booted : State :=
  { (opened.clr R.HIF_STAT_ATL_RESTART).raise R.RST_AWD_CTL_EN with boot := { reach := none, phase := 5, awdEnd := 1 } }

/-- Atelier SRAM stands ready for the image of a boot. -/
theorem witness_ResetAndBoot_image (n : Nat) : memReady { booted with boot := { phase := 2, slot := 1 } } .arm 0 (min n 0x400000) = true :=
  memReady_sram (Nat.min_le_right _ _) (by decide)

/-- A device with its baselines taken, the spares at rest and no epoch due. -/
def worn (ratios : Tab (List Nat)) : State :=
  { opened.raise R.PAT_STAT_BASELINE with now := 86400000000000, pat := { ratios := ratios, recA := some { seq := 4 } } }

/-- What the example program's words say (spec/04, "Example: splicing items into a passing frame"). -/
theorem test_example_program :
    decodeEngine 0x40400002 = .lih 2 2 ∧ decodeEngine 0x34424A10 = .ori 2 2 0x4A10 ∧ decodeEngine 0x20620001 = .addi 3 2 1
    ∧ decodeEngine 0xC1401232 = .ioOut 10 0x123 none ∧ decodeEngine 0x00040020 = .wait 0 4 false false
    ∧ decodeEngine 0xC0E07030 = .ioIn 7 0x703 none ∧ decodeEngine 0xC0001213 = .ioOutw 0 0x121 none
    ∧ decodeEngine 0x30E700FF = .andi 7 7 0xFF ∧ decodeEngine 0xC1001041 = .ioInw 8 0x104 none
    ∧ decodeEngine 0x801FFFF1 = .b 0 0x1FFFF1 ∧ decodeEngine 0xC0E07012 = .ioOut 7 0x701 none := by decide

/-- The worked servo update (spec/06, "Worked example: one servo update"): +180.5 ns against INTEG = -13,000,000. -/
theorem test_servo_update :
    let s := (((((ticking.put R.TB_D_CTL_MODE 1 0).put R.TB_D_KP_KP 550 0).put R.TB_D_KP_KP_SH 8 0).put R.TB_D_KI_KI 55 0).put
      R.TB_D_KI_KI_SH 11 0).wr R.TB_D_INTEG (u32 (-13000000)) 0
    let t := measWrite (s.wr R.TB_D_STEP_THR 20000 0) 0 46208
    t.gets R.TB_D_INTEG_V 0 = -13001240 ∧ t.gets R.TB_D_RATE_V 0 = -13100515 := by decide +kernel

/-- The worked rejected write (spec/12, "Worked example: a NOP, and a rejected write"). -/
theorem test_rejected_write :
    let s := opened.put R.HMB_STAT_SEQ 0x41 3
    let t := hmbWrite s .host 3 0
    let u := hmbWrite t .host 3 1
    t.get R.HMB_STAT_FULL 3 = 1 ∧ t.get R.HMB_STAT_SEQ 3 = 0x42 ∧ u.get R.HMB_STAT_REJECTED 3 = 1 ∧ u.rd R.HMB_REJ 3 = 1
    ∧ u.get R.HMB_STAT_SEQ 3 = 0x42 ∧ (hmbWrite (hmbAckWrite u 3 0) .host 3 1).get R.HMB_STAT_SEQ 3 = 0x43 := by decide

/-- A step takes the command at the front of the queue and leaves the rest. -/
theorem test_step_front :
    let s := { State.reset with pending := [.pllLock, .tbSnap .arm] }
    (match step s with
      | .next t => t.on R.TB_STAT_LOCK && t.pending.length == 1
      | _ => false) = true := by decide

/-- An ill-formed command for each check, and a well-formed one beside it. -/
theorem test_wellFormed :
    wellFormed (.registerWrite .host .b8 0 256) = false ∧ wellFormed (.registerWrite .host .b8 0 255) = true
    ∧ wellFormed (.starvationGrant 0 [1, 2] 3) = false ∧ wellFormed (.starvationGrant 0 [1, 2] 2) = true
    ∧ wellFormed (.remoteWrite 0 []) = false ∧ wellFormed (.remoteWrite 0 [⟨5, 2, 1⟩]) = false ∧ wellFormed (.remoteWrite 0 [⟨5, 1, 3⟩]) = true
    ∧ wellFormed (.qspiWrite 0 []) = false ∧ wellFormed (.qspiWrite 0 (List.replicate 65 0)) = false ∧ wellFormed (.qspiWrite 0 (List.replicate 64 0)) = true
    ∧ wellFormed (.frameReceive 0 [] true true) = false ∧ wellFormed (.frameReceive 0 [1] true true) = true
    ∧ wellFormed (.pauseFrame 0 true 255 [1]) = false ∧ wellFormed (.pauseFrame 0 false 255 [1]) = true
    ∧ wellFormed (.packetReceive 0 0 true none) = false ∧ wellFormed (.packetReceive 0 0 false none) = true
    ∧ wellFormed (.packetReceive 0 0 true (some ⟨0, 1, 0, true, .frame []⟩)) = false
    ∧ wellFormed (.badFrame 11) = false ∧ wellFormed (.badFrame 3) = true
    ∧ wellFormed (.qspiAbort (.write 0 (List.replicate 65 0))) = false ∧ wellFormed (.qspiAbort (.write 0 [])) = true
    ∧ wellFormed (.supplyGood []) = false ∧ wellFormed (.supplyGood (List.replicate 8 0)) = true
    ∧ wellFormed (.wearRound .core [1, 2, 3, 4]) = false ∧ wellFormed (.wearRound .core [1, 2, 3, 4, 5]) = true := by decide

theorem test_wellFormed_long : wellFormed (.canFrameReceive 0 0 0 0 0 (List.replicate 2049 0)) = false
    ∧ wellFormed (.canFrameReceive 0 0 0 0 0 (List.replicate 2048 0)) = true := by simp [wellFormed]

theorem witness_StepTakesFrontCommand : { State.reset with pending := [.pllLock, .tbSnap .arm] }.pending = [.pllLock, .tbSnap .arm] := by decide

theorem witness_IdleNanosecond_1 : State.reset.pending = [] ∧ State.reset.on R.HIF_STAT_ATL_RESTART = true ∧ State.reset.evh.presented = [] ∧ State.reset.store.remoteOut = []
    ∧ (State.reset.now + 1) % 1024000 ≠ 0 ∧ State.reset.pat.look = false ∧ State.reset.pat.held = []
    ∧ (State.reset.on R.SW_CBS_EN 191 = false ∧ tabGet 0 State.reset.sw.creditAt 191 = 0) ∧ ((State.reset.port 23).ctl = [] ∧ (State.reset.port 23).spl = [] ∧ (State.reset.port 23).tsOut = [])
    ∧ (State.reset.fx 31).due = none ∧ State.reset.fz = [] ∧ State.reset.on R.TB_STAT_LOCK = false := by decide

theorem witness_IdleNanosecond_2 : (State.reset.raise R.TB_STAT_LOCK).on R.TB_STAT_LOCK = true ∧ (State.reset.raise R.TB_STAT_LOCK).on R.TB_WALK_STAT_BUSY = false
    ∧ (State.reset.raise R.TB_STAT_LOCK).on R.HIF_STAT_ATL_RESTART = true := by decide

theorem witness_RegisterWidth : (regRef 0x40020208).isSome = true ∧ inBlocks 0x40020208 = true ∧ inSpareFrames 0x40020208 = false ∧ 0x40020208 % 4 = 0
    ∧ reaches opened (.atl 0) 0x40020208 = true ∧ fwSpan opened (.atl 0) true 0x40020208 8 = true ∧ fwSpan opened (.atl 0) false 0x40020208 8 = true := by decide

theorem witness_FabricWrites_1 : reaches State.reset .host 0x2000000 = false ∧ reaches opened .host 0x44000000 = false ∧ reaches State.reset .dma 0x2000000 = true ∧ fwSpan State.reset .dma true 0x2000000 8 = false
    ∧ isAtl .dma = false := by decide

theorem witness_FabricWrites_2 : reaches opened .dma 0x2000000 = true ∧ fwSpan opened .dma true 0x2000000 8 = true ∧ inBlocks 0x2000000 = false ∧ inImages 0x2000000 = false
    ∧ (memSpan { opened with bus := {} } 0x2000000 8).isSome = true := by decide

theorem witness_FabricWrites_3 : ∀ a : Nat, a ∈ [0x40020208, 0x40160004, 0x40160000, 0x40160118] → fwSpan opened (.atl 4) true a 4 = true := by decide

theorem witness_FabricWrites_4 : fwSpan opened (.atl 4) true 0xFFFFFFFF 4 = true ∧ assigned opened 0xFFFFFFFF = false
    ∧ opened.get R.EVH_SRC_CFG_STATE (308 + 4) = 0 ∧ opened.get R.EVH_SRC_CFG_TARGET (308 + 4) ≠ 6 := by decide

theorem witness_ItemWindow_1 : ((State.reset.eng 47).iwSlot 11).busy = false := by decide

theorem witness_ItemWindow_2 : (((State.reset.modEng 3 fun x => x.setIw 2 { busy := true }).eng 3).iwSlot 2).busy = true := by decide

theorem witness_StoreWritePortRounds : stored.store.portQ = [⟨.engine 0 0, [(5, 1, 1)]⟩] ∧ stored.on R.SS_CTL_EN = true ∧ itValid (stored.item 5) = true
    ∧ castRun stored (stored.item 5) = [] ∧ starved { stored with starve := [(0, 64)] } 0 (portAsking { stored with starve := [(0, 64)] }) = some 0
    ∧ writerNum (.engine 1 0) ∈ portAsking waiting ∧ writerNum (.engine 1 0) ≠ writerNum (.engine 0 0)
    ∧ writerNum (.engine 0 0) ∈ tabGet [] waiting.store.turns (writerNum (.engine 1 0)) ∧ arbAhead waiting 0 (portAsking waiting) = none
    ∧ agingRound bursting = false ∧ starved bursting 1 (dmaAsking bursting) = some 63
    ∧ bursting.get R.DMA_STAT_INFLIGHT ≠ 256 ∧ tagsUsed bursting + burstTags (bursting.dq 63) ≤ 256 := by decide

theorem witness_GroupTriggersAndDone : (1 : BitVec 8).toNat = (State.reset.rd R.SS_CG_SEQ 255 + 1) % 256 ∧ grouped.on R.SS_CG_CTL_TRIG 7 = true
    ∧ grouped.on R.SS_CG_CTL_EN 7 = true ∧ grouped.on R.SS_CTL_EN = true ∧ grouped.on R.SS_CG_CTL_TRIG 6 = false
    ∧ stored.store.items = [(5, stored.item 5)] ∧ itValid (stored.item 5) = true ∧ itOffset (stored.item 5) < 64 * 0 + 64
    ∧ 64 * 0 < itOffset (stored.item 5) + itWidth (stored.item 5) := by decide

theorem witness_GroupCommitStages : (grouped.setTriggers 7 [⟨0, 0, false⟩]).triggers 7 = [⟨0, 0, false⟩] ∧ cgInCommit grouped 7 = false
    ∧ (⟨7, 0, 0, false⟩ : CutSt).group = 7 ∧ groupItems stored 1 = [(5, stored.item 5)] ∧ castRun stored (stored.item 5) = []
    ∧ dqTriggered grouped 3 255 = [] ∧ grouped.cmd.streams = [] ∧ grouped.packs.insts = [] ∧ grouped.field.svc = none := by decide

theorem witness_SoftwareStoreAccess_1 : writes opened (.atl 4) (R.SS_IND_CMD.addr 0 0 0) = true ∧ isAtl (.atl 4) = true
    ∧ opened.get R.SS_IND_SEL_TABLE = 0 ∧ opened.get R.SS_IND_SEL_INDEX < 262144
    ∧ ((opened.put R.SS_IND_SEL_TABLE 1).put R.SS_IND_SEL_INDEX 65534).get R.SS_IND_SEL_TABLE = 1
    ∧ ((opened.put R.SS_IND_SEL_TABLE 1).put R.SS_IND_SEL_INDEX 65534).get R.SS_IND_SEL_INDEX < 65535
    ∧ State.reset.boot.phase ≠ 0 := by decide

theorem witness_SoftwareStoreAccess_2 : (writes opened .dma R.SS_HWR_HANDLE.base = true ∧ writes opened .dma (R.SS_HWR_HANDLE.base + 255) = true) ∧ opened.on R.SS_HWR_STAT_BUSY = false := by decide

theorem witness_EngineStartStop : isPat .pat = true ∧ writes engines .pat (R.CE_CTL.addr 4 0 0) = true ∧ engState engines 4 = 0 ∧ (5 : Word).getLsbD 1 = false
    ∧ engState engines 6 = 5 ∧ (engines.eng 6).startDue = true ∧ engines.get R.CE_MIG_CTL_LE ≠ 5 ∧ engState engines 5 = 1
    ∧ engines.on R.CE_CYC_EN 5 = true ∧ engState engines 7 = 3 ∧ (engines.eng 7).haltDue = true ∧ engines.on R.CE_CYC_EN 6 = false := by decide

theorem witness_EngineLoader : writes engines .pat (R.CE_LD_DATA.addr 0 0 0) = true ∧ loaderOk engines true = true ∧ loaderOk opened true = false
    ∧ reads engines (.atl 1) (R.CE_LD_DATA.addr 0 0 0) = true ∧ writes engines .pat (R.CE_LD_SEL.addr 0 0 0) = true
    ∧ engines.on R.CE_GSTAT_READY = true ∧ bits (0x12F : Word).toNat 0 6 < 48 ∧ engState engines (bits (0x12F : Word).toNat 0 6) = 0
    ∧ engines.engArr.zero = none
    ∧ { engines with engArr := { engines.engArr with zero := some (47, true) } }.engArr.zero = some (47, true) := by decide

theorem witness_EngineMigration_1 : writes engines (.atl 0) (R.CE_MIG_CTL.addr 0 0 0) = true ∧ (5 : Word).getLsbD 13 = false ∧ migBusy engines = false
    ∧ (spareEngine engines).isSome = true ∧ (spareEngine engines).getD 99 < 52 ∧ engState engines 5 ≠ 0
    ∧ engines.on R.CE_CYC_EN 5 = true ∧ engines.get R.CE_GAP_LEN_V 5 ≠ 0 := by decide

theorem witness_EngineMigration_2 : jobBoxes engines (.engine 5) = [] := by decide

theorem witness_EngineMigration_3 : ((engines.put R.CE_MIG_CTL_LE 5).put R.CE_MIG_STAT_STATE 2).get R.CE_MIG_CTL_LE = 5
    ∧ ((engines.put R.CE_MIG_CTL_LE 5).put R.CE_MIG_STAT_STATE 2).get R.CE_MIG_STAT_STATE = 2 ∧ engActive engines 5 = true
    ∧ engines.engArr.mig.gapSeen ≠ engines.rd R.CE_CYC_CNT 5 + 1
    ∧ (engines.eng 5).cycAt = some 0 ∧ 0 + engines.rd R.CE_GAP_OFF 5 ≤ domTime engines (igDom engines (engines.get R.CE_CYC_IG 5))
    ∧ badDue ((engines.modEng 5 fun x => { x with bad := [(4095, 1, true)] }).eng 5) = [((4095 : Fin 4096).val, 1, true)]
    ∧ freezeEst engines 5 ≤ engines.get R.CE_GAP_LEN_V 5 ∧ (engines.put R.CE_GAP_LEN_V 3999 5).get R.CE_GAP_LEN_V 5 < freezeEst engines 5
    ∧ engines.get R.CE_MIG_STAT_REFUSALS + 1 < engines.get R.CE_MIG_LIMIT_V ∧ (engines.eng 5).stopPend = false
    ∧ engines.engArr.mig.target < 52 ∧ engines.engArr.mig.was < 8 := by decide

theorem witness_RegisterArithmetic : ((running 0x04A63800).eng 0).wbs.Pairwise (fun a b => a.slot ≤ b.slot) ∧ (∀ b ∈ ((running 0x04A63800).eng 0).wbs, b.slot ≤ ((running 0x04A63800).eng 0).lastW) ∧ issues (running 0x04A63800) 0 (.add 5 6 7) = true
    ∧ issues (running 0x04A6381A) 0 (.mulhu 5 6 7) = true ∧ issues (running 0x04063804) 0 (.cmp 6 7) = true := by decide

theorem witness_ImmediateArithmetic : ((running 0x20600008).eng 0).wbs.Pairwise (fun a b => a.slot ≤ b.slot) ∧ issues (running 0x20600008) 0 (.addi 3 0 8) = true
    ∧ issues (running 0x2806FFFF) 0 (.cmpi 6 0xFFFF) = true ∧ issues (running 0x50A2001F) 0 (.rori 5 2 31) = true := by decide

theorem witness_FieldInstructions : issues (running 0x08A63802) 0 (.crcb 5 6 7 0 2) = true ∧ issues (running 0x0CA607FF) 0 (.bfx 5 6 true 31 31) = true
    ∧ issues (running 0x10A61400) 0 (.bfi 5 6 0 true 2) = true ∧ issues (running 0x14A61420) 0 (.bfxr 5 6 2 true 1) = true := by decide

theorem witness_LoadsAndStores : issues (running 0x60A20004) 0 (.ldw 5 2 4) = true ∧ issues (running 0x70A2FFFF) 0 (.ldbs 5 2 0xFFFF) = true
    ∧ issues (running 0x74A20003) 0 (.stw 5 2 3) = true ∧ issues (running 0x7C421FFF) 0 (.stb 2 2 0x1FFF) = true := by decide

theorem witness_ControlTransfers : issues (running 0) 0 (.jr 5) = false ∧ issues (running 0x825FFFFB) 0 (.b 9 0x1FFFFB) = true ∧ issues (running 0x80200010) 0 (.bl 0 16) = true
    ∧ issues (running 0x00020050) 0 (.jr 2) = true ∧ issues (running 0x03E20051) 0 (.jalr 31 2) = true ∧ issues (running 0) 0 .nop = true
    ∧ issues (running 0xFC000000) 0 .undefined = true ∧ issues (running 0x00000010) 0 .halt = true
    ∧ issues (running 0x00030043) 0 (.evs 3 3) = true ∧ condHolds 0 false false false false = true ∧ condHolds 8 false false false false = false := by decide

theorem witness_EngineIoAndWaits_1 : issues (running 0xC0800020) 0 (.ioIn 4 2 none) = true ∧ issues (running 0xC0800070) 0 (.ioIn 4 7 none) = true
    ∧ issues (running 0xC0801001) 0 (.ioInw 4 0x100 none) = true ∧ ((running 0).eng 0).winA.rx = [] ∧ ioIdle ((running 0).eng 0) = true
    ∧ issues (running 0xC04000A2) 0 (.ioOut 2 10 none) = true ∧ issues (running 0xC0403803) 0 (.ioOutw 2 0x380 none) = true
    ∧ ((running 0).eng 0).atlTx.length < 8 ∧ issues (running 0x00A30020) 0 (.wait 5 3 false false) = true ∧ engState (running 0) 0 ≠ 2
    ∧ issues (running 0x00A30030) 0 (.waitt 5 3 0) = true := by decide

theorem witness_EngineIoAndWaits_2 : engRuns ((running 0).modEng 0 fun x => { x with wait := .lines 0 true true 5 }) 0 = true
    ∧ linesDone 0 (pendLines (running 0) 0) true = true ∧ linesDone 1 (pendLines (running 0) 0) true = false
    ∧ reached (domView (running 0) 1) 0 = true ∧ reached (domView (running 0) 1) 1 = false := by decide

theorem witness_WriteBackOrder : (State.reset.eng 47).wbs = [] := by decide

theorem witness_FriezeNode_1 : (fzState { st := 3, role := 1, port := 3, cfg := fzNet, missed := 4 }).fzi 0 = { st := 3, role := 1, port := 3, cfg := fzNet, missed := 4 }
    ∧ 0 + fzNet.cycle ≤ fzNow (fzState { st := 3, role := 1, port := 3, cfg := fzNet }) 0 ∧ fzLeads (fzState {}) 0 = true ∧ spliceFree (fzState {}) 3 = true
    ∧ (fzState {}).on R.TB_PORT_CFG_ONESTEP 3 = false ∧ fzNet.da.length = 6 ∧ fzNet.node < 128 ∧ ((fzState {}).inst 0).used = true
    ∧ 0 + 4 * fzNet.cycle + fzNet.node * 2000 ≤ fzNow (fzState { role := 1, cfg := fzNet }) 0 ∧ (fzState {}).get R.TB_D_CTL_MODE 0 ≠ 2
    ∧ ({ st := 2, role := 1, port := 3, cfg := fzNet } : FzInst).phased = false ∧ 4 + (fzAcyclic (fzState {}) fzNet 0 3 0 0 0 []).length ≤ fzNet.acycMax
    ∧ 900000 ≤ fzSlotAt { st := 2, phased := true, s0 := 940000, cfg := fzNet } ∧ fzSlotAt { st := 2, phased := true, s0 := 940000, cfg := fzNet } ≤ 1000000
    ∧ 1000000 < fzSlotAt { st := 2, phased := true, s0 := 940000, cfg := fzNet } + fzNet.miniLen := by decide

theorem witness_FriezeNode_2 : fzOurs fzNet (fzFrame 1 2 0 0) = true ∧ fzType (fzFrame 1 2 0 0) = 1 ∧ fzSrc (fzFrame 1 2 0 0) = 2 := by decide

theorem witness_FriezeNode_3 : fzValid { cfg := fzNet } (fzFrame 0 1 2 0) = true ∧ sectStatus fzNet (fzFrame 0 1 2 0) (slotPos fzNet 2) / 2 % 2 = 0 := by decide

theorem witness_FriezeNode_4 : fzOurs fzNet (fzFrame 2 1 2 2) = true ∧ fzType (fzFrame 2 1 2 2) = 2 ∧ fzKind (fzFrame 2 1 2 2) = 2 ∧ fzNodes (fzFrame 2 1 2 2) = fzNet.node := by decide

theorem witness_FriezeNode_5 : fzOurs fzNet (fzFrame 2 1 2 0) = true ∧ fzType (fzFrame 2 1 2 0) = 2 ∧ fzKind (fzFrame 2 1 2 0) = 0 ∧ fzNodes (fzFrame 2 1 2 0) = fzNet.node ∧ (1 : Fin 128).val ≠ fzNet.node := by decide

theorem witness_FriezeStar_1 : let x : FzInst := { role := 2, run := true, cfg := fzNet, leader := 1, s0 := 1000000, lost := 4, br := [(2, { st := 1 })] }
    (fzState x).fzi 0 = x ∧ x.run = true ∧ fzBr x 2 = { st := 1 } ∧ (fzBr { x with br := [(2, { st := 3, missed := 4 })] } 2).st = 3
    ∧ fzRxOn (fzState x) 0 2 0 / 4 < x.s0 + x.dUsed / 256 - x.cfg.guard + x.cfg.cycle ∧ fcsOk (fzFrame 0 1 2 0) = true
    ∧ fzExpected x 2 = none ∧ fzExpected x 1 = some 256000000
    ∧ fzNow (fzState x) 0 = 1000000 ∧ ((1000000 : Nat) : Int) < (1000000 : Nat) + 0 / 256 - (100 : Nat) + (100000 : Nat) ∧ x.origin = none := by decide

theorem witness_FriezeStar_2 : let x : FzInst := { role := 2, cfg := fzNet, leader := 1, s0 := 800000, pos := some 1, br := [(2, { st := 3, tn := some 0 })] }
    x.pos = some 1 ∧ 1 + 1 = x.cfg.slots.length ∧ fzExpected x (x.cfg.slots.getD 1 0) = some 0
    ∧ fzRate (fzState x) x 2 = 10 ∧ fzRate (fzState x) x x.leader = 10 ∧ fzNow (fzState x) 0 = 1000000
    ∧ (2048000 * 72 : Int) ≤ (10 : Nat) * (256 * ((1000000 : Nat) : Int) - (0 + 256 * (100 : Nat)))
    ∧ (2048000 * 72 : Int) ≤ (10 : Nat) * (256 * ((1000000 : Nat) : Int) - (256 * (930000 + 100 : Nat) + 0))
    ∧ ((1000000 : Nat) : Int) < (930000 : Nat) + 0 / 256 - (100 : Nat) + (100000 : Nat)
    ∧ ((850000 : Nat) : Int) + 0 / 256 - (100 : Nat) + (100000 : Nat) ≤ ((1000000 : Nat) : Int)
    ∧ ((1000000 : Nat) : Int) < (850000 : Nat) + 0 / 256 - (100 : Nat) + 2 * (100000 : Nat)
    ∧ (fzMap x 2).2.2.1 = true ∧ fzOurs x.cfg (fzFrame 1 2 0 0) = true ∧ fzCluster (fzState x) x.cfg = false
    ∧ (coldUnit 0 + 1) * 16 + (if fzCluster (fzState x) x.cfg then 2000 else 0) ≤ coldTime (fzState x) 0 (4 * fzNow (fzState x) 0) / 4 := by decide

theorem witness_TimebaseReferences : (ticking.raise R.TB_STAT_XREF_OK).on R.TB_STAT_XREF_OK = true ∧ ((ticking.raise R.TB_CTL_REVERT).raise R.TB_STAT_HOLDOVER).on
    R.TB_STAT_HOLDOVER = true ∧ (ticking.raise R.TB_CTL_REVERT).on R.TB_CTL_REVERT = true
    ∧ ticking.on R.TB_STAT_XREF_OK = false ∧ ticking.time.xrefAt + 1000000000 ≤ ({ ticking with now := 1000000000 } : State).now
    ∧ ticking.now < ticking.time.xrefAt + 1000000000
    ∧ reads ticking (.remHost 3) (R.TB_FRC_LO.addr 0 0 0) = true ∧ writes ticking .host (R.TB_SNAP.addr 0 0 0) = true
    ∧ isHost .host = true ∧ writes ticking .arm (R.TB_TSF_POP.addr 0 0 0) = true ∧ isArm .arm = true ∧ ticking.time.tsf.length ≤ 256
    ∧ inReset ticking = false ∧ inReset { ticking with boot := { phase := 0 } } = true := by decide

theorem witness_DomainSteps_1 : isArm .arm = true ∧ writes ticking .arm (0x40050000 + 0xFFF) = true ∧ stepRefused ticking 1 = false
    ∧ stepRefused ((ticking.put R.TB_D_CTL_MODE 2 1).raise R.TB_D_STAT_ACQUIRED 1) 1 = true
    ∧ walking (ticking.raise R.TB_WALK_STAT_BUSY) 0 = true ∧ walking ticking 0 = false := by decide

theorem witness_DomainSteps_2 : ticking.get R.TB_D_CTL_MODE 0 = 0 ∧ (ticking.put R.TB_D_CTL_MODE 1 0).get R.TB_D_CTL_MODE 0 = 1 ∧ ticking.on R.TB_WALK_STAT_BUSY = false
    ∧ (256 : Word).toInt.natAbs ≤ (ticking.put R.TB_D_STEP_THR_V 1 0).get R.TB_D_STEP_THR_V 0 * 256
    ∧ ((ticking.put R.TB_D_CTL_MODE 2 1).raise R.TB_D_CTL_ACQ 1).on R.TB_D_CTL_ACQ 1 = true
    ∧ (ticking.raise R.TB_WALK_STAT_BUSY).on R.TB_WALK_STAT_BUSY = true ∧ (walkDiff (ticking.raise R.TB_WALK_STAT_BUSY)).natAbs < 2 ^ 40 := by decide

theorem witness_GeneratorSchedules_1 : isArm .arm = true ∧ writes ticking .arm (R.TB_IG_CTL.addr 31 0 0) = true ∧ ticking.on R.TB_IG_CTL_EN 31 = false
    ∧ (ticking.put R.TB_IG_START_LO_V 500 31).get64 R.TB_IG_START_LO R.TB_IG_START_HI 31 < domTime (ticking.put R.TB_IG_START_LO_V 500 31) 0
    ∧ igRunning.on R.TB_IG_CTL_EN 3 = true ∧ (igRunning.igen 3).armed = true ∧ (igRunning.igen 3).mode = true
    ∧ (7 : Word).getLsbD 0 = true ∧ (igRunning.setIgen 3 { igRunning.igen 3 with fired := some 5 }).igen 3 ≠ igRunning.igen 3 := by decide

theorem witness_GeneratorSchedules_2 : ceil16 (igRunning.igen 3).next ≤ domTime igRunning (igRunning.igen 3).dom := by decide

theorem witness_GeneratorSchedules_3 : igRunning.engs = [] ∧ (∀ e : Fin 48, engState igRunning e = 0) := by decide

theorem witness_GeneratorSchedules_4 : ∀ c : Fin 4, ttMaster igRunning c = false ∧ ttReceiver igRunning c = false ∧ ∀ k : Fin 3, igRunning.on R.TXB_CTL_TRIG_EN c k = false := by decide

theorem witness_GeneratorSchedules_5 : igRunning.on R.RASP_START_STAT_PEND = false ∧ (∀ u : Fin 16, igRunning.on R.RASP_U_CFG_SNAP_EN u = false)
    ∧ ∀ c : Fin 32, igRunning.on R.FX_CH_CFG_APPLY_EN c = false ∧ ∀ k : Fin 4, igRunning.on R.FX_CH_SCH_CTL_ARM c k = false := by decide

theorem witness_GeneratorSchedules_6 : dqTriggered igRunning 1 3 = [] ∧ igRunning.packs.insts = [] ∧ igRunning.get R.TB_IG_CTL_UPD 3 = 0 := by decide

theorem witness_GeneratorSchedules_7 : (igRunning.setSync 2 { level := true, pulseEnd := some 0 }).syncPin 2 = { level := true, pulseEnd := some 0 } ∧ 0 ≤ igRunning.now := by decide

theorem witness_EngineInstantSlots : slotMode (((ticking.modEng 0 fun x => x.setIslot 7 { ctl := 2, armed := true, time := 999 }).eng 0).islot 7) = 2
    ∧ reached (domView ticking 0) 999 = true ∧ reached (domView ticking 0) 1001 = false
    ∧ jobTime (ticking.modEng 0 fun x => x.setIslot 7 { ctl := 2, armed := true, time := 999, target := 999 }) 0 7 = some 999
    ∧ writes ticking .host (R.CE_SLACK_CLR.addr 47 0 0) = true ∧ slotMode ((ticking.eng 47).islot 0) ≠ 2 := by decide

theorem witness_EngineFrames_1 : (State.reset.win 47 true).ring.length < 32 ∧ (State.reset.win 47 true).txs = [] ∧ (7 - 2 : Word).getLsbD 0 = true
    ∧ ({ words := List.replicate 64 0 } : TxFrame).words.length = 64 ∧ ({} : TxFrame).eof = false ∧ ({} : TxFrame).words.length < 64 := by decide

theorem witness_EngineFrames_2 : winPort spliced 0 false = some 3 ∧ type8 spliced 3 = false ∧ spliced.on R.TB_PORT_CFG_ONESTEP 3 = false
    ∧ portOwner spliced 3 = some 0 ∧ portFree spliced 3 = true ∧ pausedTill spliced 3 7 = 0 := by decide

theorem witness_EngineFrames_3 : winPort spliced 0 true = some 4 ∧ (spliced.eng 0).attach = none ∧ windowOpen spliced 4 0 0 = false ∧ windowOpen spliced 3 0 0 = true
    ∧ diff64 0 (domTime spliced 1) ≤ 0 ∧ diff64 0 5 < 0 := by decide

theorem witness_PassingFrames_1 : portLive spliced 3 = true ∧ binders spliced 3 ≠ [] ∧ inMaquette spliced 3 = false ∧ (spliced.setPort 3 {}).port 3 = {}
    ∧ ((spliced.port 3).pass.getD {}).owner = some 0 ∧ ((spliced.port 3).pass.getD {}).inB.length < spliced.get R.MAC_MAXLEN_V 3
    ∧ type8 spliced 3 = false ∧ engActive spliced 0 = true := by decide

theorem witness_PassingFrames_2 : winPort spliced 0 (!winSide spliced 0 3) = some 4 ∧ portLive spliced 4 = true ∧ spliced.on R.TB_PORT_CFG_ONESTEP 4 = false
    ∧ spliceFree spliced 4 = true ∧ spliceFree (spliced.setPort 4 { txOpen := true }) 4 = false
    ∧ 64 ≤ spliced.get R.MAC_MAXLEN_V 3 ∧ onWire ({ spliced with now := 50000 }.setPort 3 { txEnd := 90000, wire := List.replicate 64 0 }) 3 = true := by decide

theorem witness_PassingFrames_3 : let s := ((opened.put R.CE_MQ_PORT_MODE 3 5).wr R.MAC_CTL 1 5).put R.CE_MQ_REF_LEN_V 72
    let s := ((s.setMword .fabric 4 64).setBytes .fabric 68 (fcsOf (List.replicate 60 0))).setIgen 0 { fired := some 0 }
    s.get R.CE_MQ_PORT_MODE 5 = 3 ∧ portLive s 5 = true ∧ binders s 5 = [] ∧ s.on R.SW_CTL_EN = false
    ∧ type8 s 5 = false
    ∧ (mqPos s (s.rd R.CE_MQ_REF_BASE) (s.get R.CE_MQ_REF_LEN_V) 0).bind (mqFrame s (s.rd R.CE_MQ_REF_BASE) (s.get R.CE_MQ_REF_LEN_V))
      = some (0, List.replicate 60 0 ++ fcsOf (List.replicate 60 0), 72) ∧ mqNext s 5 0 0 = true
    ∧ (s.igen (s.get R.CE_MQ_START_IG_V)).fired = some 0 ∧ ceil16 0 + 0 ≤ domTime s (igDom s (s.get R.CE_MQ_START_IG_V))
    ∧ 64 ≤ s.get R.MAC_MAXLEN_V 5 ∧ fcsOk (List.replicate 60 0 ++ fcsOf (List.replicate 60 0)) = true := by decide

theorem witness_PortStates : isAtl (.atl 2) = true ∧ writes portsUp (.atl 2) (R.MAC_CTL.addr 3 0 0) = true ∧ portState portsUp 3 = 1
    ∧ portState portsUp 5 = 1 ∧ portsUp.on R.MAC_STAT_LINK 5 = false ∧ inMaquette portsUp 5 = false ∧ portsUp.on R.MAC_STAT_LINK 3 = true
    ∧ arriving portsUp 3 = false ∧ (portsUp.setPort 3 { verify := 2 }).now < ((portsUp.setPort 3 { verify := 2 }).port 3).verifyAt + 10000000
    ∧ portState (portsUp.put R.MAC_CTL_STATE 2 5) 5 = 2
    ∧ magicAt [1, 2, 3, 4, 5, 6] ([9] ++ List.replicate 6 0xFF ++ (List.replicate 16 [1, 2, 3, 4, 5, 6]).flatten) = true
    ∧ portLive portsUp 3 = true ∧ portsUp.on R.MAC_CTL_PREEMPT 3 = true ∧ portsUp.on R.MAC_CTL_VERIFY_DIS 3 = false
    ∧ portsUp.on R.MAC_STAT_PREEMPT_ACT 3 = false ∧ (portsUp.port 3).verify < 3
    ∧ 2 ≤ (portsUp.put R.MAC_STAT_SPEED 2 3).get R.MAC_STAT_SPEED 3 := by decide

theorem witness_PauseAndGates_1 : portLive portsUp 3 = true ∧ type8 portsUp 3 = false ∧ portsUp.on R.MAC_STAT_PW_ACTIVE 3 = false ∧ portsUp.on R.MAC_CTL_PAUSE_RX 3 = true
    ∧ portsUp.on R.MAC_CTL_PFC 3 = false ∧ (portsUp.raise R.MAC_CTL_PFC 3).on R.MAC_CTL_PFC 3 = true
    ∧ ∀ j : Nat, j < 8 → (0x80 : BitVec 8).toNat.testBit j = decide (j = 7) := by decide

theorem witness_PauseAndGates_2 : let s := { holdClass (portsUp.wr R.MAC_PW 0x80000001 3) 3 7 9 with now := 2000000 }
    pausedTill s 3 7 ≠ 0 ∧ pausedTill s 3 7 ≤ s.now ∧ s.on R.MAC_STAT_PW_ACTIVE 3 = false ∧ tabGet 0 s.sw.pwSince 3 ≠ 0
    ∧ (s.raise R.MAC_PW_EN 3).on R.MAC_PW_EN 3 = true
    ∧ max 1 (min 1000 (s.get R.MAC_PW_LIMIT 3)) * 1000000 < s.now + 1 - tabGet 0 s.sw.pwSince 3
    ∧ (s.raise R.MAC_STAT_PW_ACTIVE 3).on R.MAC_STAT_PW_ACTIVE 3 = true ∧ tabGet 0 s.sw.pwUntil 3 ≤ s.now := by decide

theorem witness_PauseAndGates_3 : let s := (portsUp.raise R.SW_GCL_CTL_EN 3).setGcl 3 { len := 2 }
    s.on R.SW_GCL_CTL_EN 3 = true ∧ (s.gcl 3).len ≠ 0 ∧ (s.gcl 3).running = false
    ∧ s.get64 R.SW_GCL_BASE_LO R.SW_GCL_BASE_HI 3 ≤ domTime s (s.get R.SW_GCL_CTL_DOM 3)
    ∧ (s.raise R.SW_GCL_STAT_PEND 3).on R.SW_GCL_STAT_PEND 3 = true ∧ (s.gcl 3).chgAt ≤ domTime s (s.get R.SW_GCL_CTL_DOM 3) := by decide

theorem witness_PauseAndGates_4 : let s := { (portsUp.raise R.SW_GCL_CTL_EN 3).setGcl 3 { len := 2, running := true } with time := { ({} : TimeSt) with frc := 100, d0 := { offs := BitVec.ofNat 104 (100 * 2 ^ 40) } } }
    (s.gcl 3).running = true ∧ entryEnd s 3 ≤ domTime s (s.get R.SW_GCL_CTL_DOM 3) := by decide

theorem witness_SwitchTables : writes switching (.atl 7) (R.SW_IND_CMD.addr 0 0 0) = true ∧ (switching.put R.SW_IND_SEL_TABLE 5).get R.SW_IND_SEL_TABLE ≠ 0
    ∧ (switching.put R.SW_IND_SEL_TABLE 5).get R.SW_IND_SEL_INDEX < swEntries 5 ∧ (0x2000 : Nat).testBit 13 = true
    ∧ (tabGet ({} : FrerSt) [(511, ({ taken := true } : FrerSt))] 511).taken = true
    ∧ fdbValid (setSwWord { switching with now := 10 ^ 16 } 0 32767 2 0x2000) 32767 = true
    ∧ fdbStatic (setSwWord { switching with now := 10 ^ 16 } 0 32767 2 0x2000) 32767 = false
    ∧ max 1 (min 1000000 (switching.get R.SW_AGE_V)) < fdbAge (setSwWord { switching with now := 10 ^ 16 } 0 32767 2 0x2000) 32767 := by decide

theorem witness_SwitchFrames_1 : let f : List Byte := List.replicate 60 1 ++ fcsOf (List.replicate 60 1)
    portLive switching 3 = true ∧ binders switching 3 = [] ∧ inMaquette switching 3 = false ∧ type8 switching 3 = false ∧ switching.on R.SW_CTL_EN = true
    ∧ switching.on R.MAC_CTL_PREEMPT 5 = false ∧ frameDa f ≠ 0xFFFFFFFFFFFF
    ∧ 64 ≤ f.length ∧ f.length ≤ switching.get R.MAC_MAXLEN_V 3 ∧ fcsOk f = true ∧ tagged f = false
    ∧ (swWord switching 1 (switching.get R.SW_P_CFG_PVID 3) 2).testBit 16 = true
    ∧ (swWord switching 1 ((switching.put R.SW_P_CFG_PVID 2 3).get R.SW_P_CFG_PVID 3) 2).testBit 16 = false
    ∧ switching.on R.SW_P_CFG_INGRESS_FILT 3 = false ∧ (switching.clr R.SW_P_CFG_LEARN 3).on R.SW_P_CFG_LEARN 3 = false
    ∧ cellsOf (switching.queue 27 0) + 1 ≤ switching.get R.SW_P_LIM_V 27 0 ∧ switching.on R.SW_CTL_PUSHOUT = false := by decide

theorem witness_SwitchFrames_2 : (switching.queue 27 0).length = 1 ∧ (∀ k : Nat, k < 8 → switching.on R.SW_CBS_EN (8 * 27 + k) = false)
    ∧ eligible switching 27 0 = true ∧ (∀ k : Nat, k < 8 → 0 < k → eligible switching 27 k = false)
    ∧ (switching.queue 3 0).length = 1 ∧ eligible switching 3 0 = true ∧ (∀ k : Nat, k < 8 → 0 < k → eligible switching 3 k = false)
    ∧ switching.on R.TB_PORT_CFG_ONESTEP 3 = false ∧ switching.on R.TB_PORT_CFG_TC 3 = false
    ∧ (switching.queue 3 0).all (fun x => !x.bytes.isEmpty) = true
    ∧ ((switching.setEng 2 { attach := some 0 }).eng 2).attach.isSome = true ∧ ((switching.setEng 2 { attach := some 0 }).eng 2).winB.rx = [] := by decide

theorem witness_HostServiceCommands_1 : canTake (mail 0x77 5 1 []) 0 = true ∧ plainOps.contains (hmbOp (mail 0x77 5 1 []) 0) = false
    ∧ chanOps.contains (hmbOp (mail 0x77 5 1 []) 0) = false ∧ canTake (mail 0 5 1 []) 0 = true ∧ hmbOp (mail 0 5 1 []) 0 = 0
    ∧ canTake (mail 1 5 1 []) 0 = true ∧ hmbOp (mail 1 5 1 []) 0 = 1 ∧ Taken (mail 0x29 0 1 []) 0 0x29 = true := by decide

theorem witness_HostServiceCommands_2 : Served (mail 0x08 0 1 []) 0 0x08 [1, 2, 3] 0 (entry 1) = true ∧ chFieldsOk (entry 1) = true
    ∧ Served (mail 0x09 0 2 []) 0 0x09 [1, 2, 3] 0 (entry 2) = true ∧ chHeld (mail 0x09 0 2 []) (hmbCh (mail 0x09 0 2 []) 0) = false
    ∧ chHeld ((mail 0x09 0 2 []).setInst 3 { used := true, st := 1, ch := 7 }) 7 = true := by decide

theorem witness_HostServiceCommands_3 : let s := (mail 0x0A 0 1 []).setBytes .fabric (64 * 7) (entry 3)
    Served s 0 0x0A [1, 2, 3] 0 (entry 1) = true ∧ chHeld s (hmbCh s 0) = false ∧ chtUp s = true ∧ entryAt s (hmbCh s 0) = entry 3
    ∧ chFlag (entry 3) 0 = true ∧ [1, 2, 3].contains (chType (entry 3)) = true := by decide

theorem witness_HostServiceCommands_4 : Served (mail 0x30 1 1 []) 0 0x30 [1] 32 (entry 1) = true ∧ hmbArg (mail 0x30 1 1 []) 0 = 1
    ∧ Served (mail 0x30 4 2 []) 0 0x30 [1, 2] 0 (entry 2) = true ∧ diagShape (hmbArg (mail 0x30 4 2 []) 0) = none
    ∧ (mail 0 0 1 []).on R.AMB_STAT_FULL 0 = false ∧ (mail 0 0 1 []).on R.HIF_STAT_ATL_RESTART = false := by decide

theorem witness_HostServiceCommands_5 : let x : BitVec 64 := itemEntry 0 32 5 0xFFFF false false false false 0
    let b : List Byte := [3, 9] ++ leBytes 2 1 ++ leBytes 4 0 ++ leBytes 8 0 ++ leBytes 4 0 ++ [5, 2] ++ leBytes 2 1 ++ leBytes 8 0x10000
      ++ leBytes 4 64 ++ leBytes 4 100 ++ leBytes 4 1 ++ List.replicate 20 0
    let s := (mail 0x08 0 3 []).put R.DQ_CTL_EN 1 2
    let s := { s with cmd := { s.cmd with cache := [⟨7, b⟩] }, store := { items := [(100, x)] } }
    Served s 0 0x08 [1, 2, 3] 0 b = true ∧ chFieldsOk b = true ∧ chType b = 3 ∧ streamOk s b = true ∧ streamQueueOk s (chDq b) = true
    ∧ streamOnQueue s (chDq b) = false := by decide

theorem witness_HostStoreCommands_1 : let e : List Byte := leBytes 4 7 ++ leBytes 8 (2 ^ 23 * 31 + 2 ^ 33 * 5) ++ leBytes 4 0
    let s := mail 0x18 1 1 e
    hmbArg s 0 = 1 ∧ Served s 0 0x18 [1] 16 (entry 1) = true ∧ parBytes s (parAddr s (entry 1)) 16 = e
    ∧ itValid (s.item (hdr e 0 4 % 262144)) = false ∧ itemBad s (hdr e 0 4 % 262144) (entryBits e) = false
    ∧ itemBad s 7 (BitVec.ofNat 64 (3 * 2 ^ 61)) = true := by decide

theorem witness_HostStoreCommands_2 : let s := { mail 0x19 1 1 (leBytes 4 5) with store := stored.store }
    hmbArg s 0 = 1 ∧ Served s 0 0x19 [1] 4 (entry 1) = true ∧ parBytes s (parAddr s (entry 1)) 4 = leBytes 4 5
    ∧ itValid (s.item (hdr (leBytes 4 5) 0 4 % 262144)) = true ∧ itemHeld s 5 = false ∧ s.store.casts = [] := by decide

theorem witness_HostStoreCommands_3 : let e : List Byte := leBytes 4 5 ++ leBytes 8 6 ++ leBytes 4 0
    let s := { mail 0x1B 1 1 e with store := { items := [(5, itemEntry 0 8 1 0xFFFF false false false false 0), (6, itemEntry 8 8 1 0xFFFF false false false false 0)] } }
    castBad s 5 (entryBits e) = none ∧ Served s 0 0x1B [1] 16 (entry 1) = true ∧ hmbArg s 0 = 1 ∧ parBytes s (parAddr s (entry 1)) 16 = e ∧ hdr e 0 4 % 262144 = 5
    ∧ s.store.casts = [] := by decide

theorem witness_HostStoreCommands_4 : let e : List Byte := leBytes 4 (2 ^ 31 + 5) ++ leBytes 12 0
    let s := { mail 0x1C 1 1 e with store := { items := [(5, itemEntry 0 8 1 0xFFFF false false false false 0)] } }
    Served s 0 0x1C [1] 16 (entry 1) = true ∧ hmbArg s 0 = 1 ∧ parBytes s (parAddr s (entry 1)) 16 = e ∧ (hdr e 0 4).testBit 31 = true
    ∧ s.store.items = [(hdr e 0 4 % 262144, itemEntry 0 8 1 0xFFFF false false false false 0)] := by decide

theorem witness_HostStoreCommands_5 : let s := mail 0x1A 9 1 (leBytes 4 3 ++ leBytes 4 1000000)
    Served s 0 0x1A [1] 16 (entry 1) = true ∧ hmbArg s 0 = 9 ∧ groupHeld s 9 = false
    ∧ tooSlow (groupSlots s 9) (commitPeriod s (s.mword (chtSpace s) (parAddr s (entry 1))) (s.mword (chtSpace s) (parAddr s (entry 1) + 4))) = false
    ∧ Served (mail 0x1A 0 1 []) 0 0x1A [1] 16 (entry 1) = true ∧ hmbArg (mail 0x1A 0 1 []) 0 = 0 := by decide

theorem witness_ConfigurationCommands_1 : let e := fun (a v : Nat) => (leBytes 4 a ++ leBytes 4 0 ++ leBytes 4 v ++ leBytes 4 0 : List Byte)
    let s := mail 0x20 1 1 (e 0x40117008 1600)
    hmbArg s 0 = 1 ∧ parBytes s (parAddr s (entry 1)) 16 = e 0x40117008 1600 ∧ hdr (e 0x40117008 1600) 4 1 = 0
    ∧ Served s 0 0x20 [1] 16 (entry 1) = true ∧ hdr (e 0x40117008 1600) 0 4 = R.MAC_MAXLEN.addr 23 0 0
    ∧ Served (mail 0x21 1 1 []) 0 0x21 [1] 16 (entry 1) = true ∧ hdr (e 0x400B0004 9) 0 4 = R.SW_AGE.addr 0 0 0
    ∧ Served (mail 0x22 1 1 []) 0 0x22 [1] 16 (entry 1) = true ∧ hdr (e 0x400501A8 9) 0 4 = R.TB_D_STEP_THR.addr 1 0 0
    ∧ Served (mail 0x23 1 1 []) 0 0x23 [1] 16 (entry 1) = true ∧ hdr (e 0x4012C00C 9) 0 4 = R.CAN_NBT.addr 3 0 0
    ∧ (mail 0x23 1 1 []).on R.CAN_CTL_OWNER_EN 3 = false ∧ (mail 0x23 1 1 []).on R.CAN_STAT_INIT 3 = true := by decide

theorem witness_ConfigurationCommands_2 : let e := fun (a v : Nat) => (leBytes 4 a ++ leBytes 4 0 ++ leBytes 4 v ++ leBytes 4 0 : List Byte)
    Served (mail 0x24 1 1 []) 0 0x24 [1] 16 (entry 1) = true ∧ hdr (e 0x400A04CC 9) 0 4 = R.RASP_U_OMAP.addr 15 0 0
    ∧ (mail 0x24 1 1 []).on R.RASP_U_CTL_OWNER_EN 15 = false
    ∧ Served (mail 0x28 1 1 []) 0 0x28 [1] 16 (entry 1) = true ∧ hdr (e 0x40131F90 9) 0 4 = R.FX_CH_DIAG_EN.addr 31 0 0
    ∧ cfgRange 0x28 0x40140000 = false ∧ cfgRange 0x20 0 = false ∧ hdr (e 0x40140000 0) 4 1 ≤ 3 := by decide

theorem witness_ConfigurationCommands_3 : let e : List Byte := leBytes 4 0x400B0004 ++ leBytes 4 3 ++ leBytes 4 1 ++ leBytes 4 0xFFFFFFFF
    let s := { mail 0x21 2 1 (leBytes 16 0 ++ e) with now := 10000000 }.setJob 0 (.record 0x1000 1 0)
    s.job 0 = .record 0x1000 1 0 ∧ s.on R.HIF_STAT_ATL_RESTART = false ∧ 0 + 10000000 ≤ s.now ∧ hmbOp s 0 = 0x21
    ∧ parBytes s (0x1000 + 16 * 1) 16 = e ∧ hdr e 0 4 = R.SW_AGE.addr 0 0 0 ∧ hdr e 4 1 = 3 ∧ s.rd R.SW_AGE &&& hdr e 12 4 ≠ hdr e 8 4 := by decide

theorem witness_PackCommands_1 : Served (mail 0x10 0 1 []) 0 0x10 [1] 16 (entry 1) = true
    ∧ { opened with packs := { loads := [(3, [1, 2])] } }.packs.loads = [((3 : Fin 16).val, [1, 2])]
    ∧ (opened.clr R.HIF_STAT_ATL_RESTART).on R.HIF_STAT_ATL_RESTART = false ∧ (packCheck opened [1, 2]).1 ≠ 0 := by decide

theorem witness_PackCommands_2 : Taken (packed (mail 0x11 2 1 []) 0) 0 0x11 = true ∧ ((packed (mail 0x11 2 1 []) 0).slot (hmbArg (packed (mail 0x11 2 1 []) 0) 0 % 16)).loaded = true
    ∧ slotRuns (packed (mail 0x11 2 1 []) 0) 2 = false ∧ slotRuns (packed (mail 0x11 2 1 []) 2) 2 = true := by decide

theorem witness_PackCommands_3 : let s := packed (mail 0x13 0 2 []) 2
    Served s 0 0x13 [2] 0 (entry 2) = true ∧ (instWhere s fun x => x.st != 0 && x.st != 4 && x.ch == hmbCh s 0).head? = some 3 := by decide

theorem witness_PackCommands_4 : let s := (packed (mail 0x13 0 2 []) 4).setJob 0 (.packStop 3)
    (s.inst 3).used = true ∧ (s.inst 3).st = 4 ∧ (∀ e ∈ (s.inst 3).engines, e < 48 ∧ engState s e = 0)
    ∧ (∀ g ∈ (s.inst 3).groups, g < 256) ∧ (∀ g ∈ (s.inst 3).igs, g < 32) ∧ s.job 0 = .packStop 3
    ∧ s.on R.HIF_STAT_ATL_RESTART = false := by decide

theorem witness_FirmwareCommands_1 : Served (mail 0x40 0 1 []) 0 0x40 [1] 0 (entry 1) = true ∧ hmbArg (mail 0x40 0 1 []) 0 % 4 = 0
    ∧ (mail 0x40 0 1 []).cmd.fwOpen = none ∧ ((mail 0x40 0 1 []).setFw (some 1)).cmd.fwOpen ≠ none := by decide

theorem witness_FirmwareCommands_2 : let s := (mail 0x40 1 1 (leBytes 4 0x100 ++ leBytes 4 256 ++ leBytes 8 0x2000000)).setFw (some 1)
    Served s 0 0x40 [1] 16 (entry 1) = true ∧ hmbArg s 0 % 4 = 1 ∧ leNat (parBytes s (parAddr s (entry 1)) 4) = 0x100
    ∧ leNat (parBytes s (parAddr s (entry 1) + 4) 4) = 256 ∧ s.cmd.fwOpen = some 1 := by decide

theorem witness_FirmwareCommands_3 : let s := (mail 0x40 2 1 []).setFw (some (1 : Fin 2).val)
    let u := s.setBytes .flash (0x900000 + 0x20) (leBytes 4 0x400000)
    Served u 0 0x40 [1] 0 (entry 1) = true ∧ hmbArg u 0 % 4 = 2 ∧ u.cmd.fwOpen = some 1 ∧ fwStatus u 1 = 9 := by decide

theorem witness_FirmwareCommands_4 : let s := (mail 0x40 3 1 []).setFw (some 1)
    Served s 0 0x40 [1] 0 (entry 1) = true ∧ hmbArg s 0 % 4 = 3 := by decide

theorem witness_TrustCommands_1 : let e : List Byte := [1, 9] ++ leBytes 2 1 ++ leBytes 4 0 ++ leBytes 8 0x1000 ++ leBytes 4 0x10000 ++ List.replicate 44 0
    let s := { (mail 0x48 0 1 []).clr R.HIF_CHT_CTL_LOC with cmd := { order := [0], cache := [⟨7, e⟩] } }
    Served s 0 0x48 [1] (0x40 + reportLen s) e = true := by decide

theorem witness_TrustCommands_2 : let s := (mail 0x48 0 1 []).setJob 0 (.attest 0x1040 [1, 2])
    s.cmd.order = [0] ∧ s.job 0 = .attest 0x1040 [1, 2] ∧ chtUp s = true ∧ s.on R.HIF_STAT_ATL_RESTART = false
    ∧ tabGet 0 s.cmd.ring 0 = 0 := by decide

theorem witness_TrustCommands_3 : let s := (mail 0x50 2 1 []).clr R.HIF_CHT_CTL_LOC
    let c : LcChange := { entry := 0, target := 2, update := false, ops := [], pub := [] }
    let u := ({ s with sec := { lc := some c }, boot := { s.boot with phase := 5 } }).setJob 0 .lifeCycle
    hmbArg s 0 % 8 = 2 ∧ Served { s with cmd := { order := [0], cache := [⟨7, [1, 9] ++ leBytes 2 1 ++ leBytes 4 0 ++ leBytes 8 0x1000 ++ leBytes 4 0x10000 ++ List.replicate 44 0⟩] } }
        0 0x50 [1] (lcLength s 2) ([1, 9] ++ leBytes 2 1 ++ leBytes 4 0 ++ leBytes 8 0x1000 ++ leBytes 4 0x10000 ++ List.replicate 44 0) = true
    ∧ u.sec.lc = some c ∧ u.on R.MEM_SEC_STAT_WIPING = false ∧ u.boot.phase ≠ 8 ∧ jobBoxes u .lifeCycle = [(0 : Fin 16).val]
    ∧ u.on R.HIF_STAT_ATL_RESTART = false ∧ (opened.raise R.MEM_SEC_STAT_WIPING).on R.MEM_SEC_STAT_WIPING = true
    ∧ armatureDown u = false ∧ opened.sec.late = [] ∧ lcWaits opened = false := by decide

theorem witness_BlockResetCommands_1 : let s := mail 0x58 0x105 1 []
    Taken s 0 0x58 = true ∧ bits (hmbArg s 0) 8 4 = 1 ∧ hmbArg s 0 % 256 = 5 ∧ blockIdle s 1 5 = true ∧ blockOwned s 1 5 = false
    ∧ blockIdle (s.put R.CE_STAT_STATE 1 5) 1 5 = false
    ∧ blockOwned (s.setInst 3 { used := true, st := 1, engines := [5] }) 1 5 = true := by decide

theorem witness_BlockResetCommands_2 : let s := mail 0x58 0x240 1 []
    Taken s 0 0x58 = true ∧ bits (hmbArg s 0) 8 4 = 2 ∧ classSize 2 ≤ hmbArg s 0 % 256 := by decide

theorem witness_BlockResetCommands_3 : let s := mail 0x58 0x53F 1 []
    Taken s 0 0x58 = true ∧ bits (hmbArg s 0) 8 4 = 5 ∧ hmbArg s 0 % 256 = 63 ∧ blockIdle s 5 63 = true ∧ blockOwned s 5 63 = false
    ∧ streamOnQueue s 63 = false ∧ s.canonical = true := by decide

theorem witness_BlockResetCommands_4 : let s := mail 0x58 0x303 1 []
    let u := mail 0x58 0x40F 1 []
    blockIdle s 3 3 = true ∧ blockOwned s 3 3 = false ∧ blockIdle u 4 15 = true ∧ blockOwned u 4 15 = false
    ∧ bits (hmbArg (mail 0x58 2 1 []) 0) 8 4 = 0 ∧ hmbArg (mail 0x58 2 1 []) 0 % 256 = 2 := by decide

theorem witness_BlockResetCommands_5 : let s := { opened with boot := { opened.boot with reach := none, hostReset := [(1, 0), (2, 5000)] } }
    s.boot.hostReset = (1, 0) :: [(2, 5000)] ∧ 0 ≤ s.now ∧ s.boot.reach = none := by decide

theorem witness_SpareCommands_1 : let s := (mail 0x38 (8 * 5) 1 []).raise R.PAT_CE_SPARE 50
    Taken s 0 0x38 = true ∧ bits (hmbArg s 0) 3 9 = 5 ∧ bits (hmbArg s 0) 0 3 = 0 ∧ migBusy s = false ∧ (spareEngine s).isSome = true
    ∧ jobBoxes s (.engine 5) = [] ∧ engState s 5 = 0 ∧ s.rd R.CE_MAP 5 < 52
    ∧ engState (s.put R.CE_STAT_STATE 1 5) 5 ≠ 0 ∧ s.on R.CE_CYC_EN 5 = false := by decide

theorem witness_SpareCommands_2 : let s := mail 0x38 (8 * 5) 1 []
    let u := ((s.put R.CE_STAT_STATE 1 5).raise R.CE_CYC_EN 5).put R.CE_GAP_LEN_V 100 5
    engState u 5 ≠ 0 ∧ u.on R.CE_CYC_EN 5 = true ∧ u.get R.CE_GAP_LEN_V 5 ≠ 0 ∧ migBusy u = false
    ∧ migBusy (s.put R.CE_MIG_STAT_STATE 2) = true ∧ bits (hmbArg (mail 0x38 (8 * 50) 1 []) 0) 3 9 = 50 := by decide

theorem witness_SpareCommands_3 : let s := mail 0x38 (8 * 3 + 1) 1 []
    Taken s 0 0x38 = true ∧ bits (hmbArg s 0) 3 9 = 3 ∧ bits (hmbArg s 0) 0 3 = 1 ∧ bankSlot s 3 = some 3
    ∧ s.get R.MEM_REMAP_STAT_STATE ≠ 1 ∧ (spareBank s).isSome = true := by decide

theorem witness_SpareCommands_4 : let s := (mail 0x38 (8 * 1 + 2) 1 []).raise R.PK_L_STAT_UP 0
    Taken s 0 0x38 = true ∧ bits (hmbArg s 0) 3 9 = 1 ∧ bits (hmbArg s 0) 0 3 = 2 ∧ s.on R.PK_L_STAT_UP 0 = true
    ∧ s.on R.PK_L_STAT_SPARE_USED 0 = false ∧ s.on R.PAT_LK_SPARE 2 = true ∧ tabGet (0, false) s.pk.swap 0 = (0, false) := by decide

theorem witness_SpareCommands_5 : let s := mail 0x38 (8 * 255 + 3) 1 []
    Taken s 0 0x38 = true ∧ bits (hmbArg s 0) 3 9 = 255 ∧ (s.rd R.FX_CH_SEG 31).testBit 7 = true ∧ segSpare s 31 = true := by decide

theorem witness_SpareCommands_6 : let s := mail 0x38 (8 * 2 + 4) 1 []
    Taken s 0 0x38 = true ∧ bits (hmbArg s 0) 3 9 = 2 ∧ s.on R.PAT_AC_SPARE 4 = true ∧ s.pat.coreArm = none
    ∧ 5 ≤ bits (hmbArg (mail 0x38 7 1 []) 0) 0 3 := by decide

theorem witness_SpareCommands_7 : let s := mail 0x60 (3 + 32 * 1) 1 (leBytes 4 4 ++ leBytes 4 0x1000000)
    Served s 0 0x60 [1] 24 (entry 1) = true ∧ hmbArg s 0 % 32 = 3 ∧ bits (hmbArg s 0) 5 2 = 1
    ∧ (leWords (parBytes s (parAddr s (entry 1)) 24) 6).getD 5 0 < 32 ∧ (∀ q : Nat, q < 24 → mqUses s q = false)
    ∧ s.rd R.CE_MQ_REF_BASE ≠ (leWords (parBytes s (parAddr s (entry 1)) 24) 6).getD 1 0
    ∧ mqUses (s.put R.CE_MQ_PORT_MODE 3 9) 9 = true := by decide

theorem witness_PlinthLinkStates_1 : (joined.clr R.PK_L_STAT_UP 0).on R.PK_L_STAT_UP 0 = false ∧ joined.on R.PK_CTL_EN = true
    ∧ joined.on R.PK_STAT_CLUSTER_EN = true ∧ joined.on R.PK_L_CTL_EN 0 = true ∧ pkPeer joined (pkId joined) 0 = some 3
    ∧ joined.get R.PK_CTL_SIZE = 4 ∧ pkId joined = 2 := by decide

theorem witness_PlinthLinkStates_2 : joined.on R.PK_L_STAT_UP 0 = true ∧ pkOut joined 0 = [] ∧ joined.on R.PK_L_STAT_SPARE_USED 0 = false
    ∧ writes joined (.atl 0) (R.PK_L_CTL.addr 0 0 0) = true ∧ tabGet (0, false) joined.pk.swap 0 = (0, false) ∧ joined.on R.PAT_LK_SPARE (3 * (0 : Fin 4) + 2) = true
    ∧ joined.on R.PK_L_CTL_EN 0 = true ∧ (5 : Word).getLsbD 0 = true
    ∧ tabGet (0, false) { joined with pk := { joined.pk with swap := [(0, (2, true))] } }.pk.swap 0 = ((1 : Fin 2).val + 1, true)
    ∧ jobBoxes joined (.lane (2 * 0 + 1)) = [] := by decide

theorem witness_PlinthPackets_1 : (joined.clr R.PK_L_STAT_UP 0).on R.PK_L_STAT_UP 0 = false ∧ joined.on R.PK_L_STAT_UP 0 = true
    ∧ pkRoute joined ⟨3, 1, 0, true, .event 7⟩ = none ∧ (1 : Nat) ≠ pkId joined
    ∧ joined.get R.EVH_SRC_CFG_STATE (316 + 3) = 0 ∧ joined.on R.PK_CTL_EN = true ∧ (7 : Nat) ≠ pkId joined := by decide

theorem witness_PlinthPackets_2 : pkRoute (joined.wr R.PK_LINKMAP 0x0200) ⟨3, 0, 0, true, .event 7⟩ = some (1, true) := by decide

theorem witness_PlinthPackets_3 : pkOut (setPkOut joined 0 [⟨2, 3, 1, true, .event 7⟩]) 0 ≠ []
    ∧ ((List.range 4).any fun k => (pkOut joined k).any fun p => p.src.val == pkId joined && p.dst == 3) = false := by decide

theorem witness_PlinthMessages_1 : writes joined .arm (R.PK_RA_CMD.addr 0 0 0) = true ∧ writes joined (.atl 0) (R.PK_RA_CMD.addr 0 0 0) = true
    ∧ writes joined .host (R.PK_RA_CMD.addr 1 0 0) = true ∧ isHost .host = true ∧ isAtl (.atl 0) = true
    ∧ joined.on R.PK_RA_STAT_BUSY 0 = false ∧ pkPresent joined 3 = false ∧ pkPresent (joined.put R.PK_STAT_PRESENT 8) 3 = true
    ∧ tabGet false joined.pk.hold 3 = false ∧ (joined.raise R.PK_RA_STAT_BUSY 0).on R.PK_RA_STAT_BUSY 0 = true
    ∧ tabGet 0 joined.pk.raEnd 0 ≤ joined.now := by decide

theorem witness_PlinthMessages_2 : writes joined (.atl 0) (R.PK_RD_CTL.addr 3 0 0) = true ∧ joined.on R.PK_RD_STAT_BUSY 3 = false
    ∧ (joined.raise R.PK_RD_STAT_BUSY 3).on R.PK_RD_STAT_BUSY 3 = true ∧ joined.on R.PK_RD_CTL_PULSE_EN 3 = false
    ∧ joined.on R.PK_RD_CTL_DIR 3 = false ∧ joined.get R.EVH_SRC_CFG_STATE (316 + 7) = 0
    ∧ ((joined.raise R.PK_RD_CTL_DIR 3).wr R.PK_RD_LEN 4 3).rd R.PK_RD_LEN 3 = 4 ∧ inBlocks (joined.rd R.PK_RD_LOCAL 3) = false
    ∧ writes joined (.remAtl 1) (R.PK_RRST.addr 0 0 0) = true ∧ isAtl (.remAtl 1) = true := by decide

theorem witness_PlinthMessages_3 : joined.on R.RST_CTL_REMOTE_EN = false ∧ (joined.raise R.RST_CTL_REMOTE_EN).on R.RST_CTL_REMOTE_EN = true
    ∧ { joined with boot := { joined.boot with reach := none } }.boot.reach = none
    ∧ (joined.raise R.PK_TIME_CTL_EN).on R.PK_TIME_CTL_EN = true ∧ (joined.put R.PK_TIME_CTL_MASTER 2).get R.PK_TIME_CTL_MASTER = pkId joined
    ∧ joined.pk.timeAt ≤ joined.now ∧ (joined.get R.PK_TIME_CTL_MASTER ≠ pkId joined)
    ∧ joined.get R.TB_D_CTL_MODE 0 ≠ 2 ∧ (joined.put R.TB_D_CTL_MODE 2 1).get R.TB_D_CTL_MODE 1 = 2
    ∧ numsWhere 8 (fun d => d != pkId joined && pkPresent (joined.put R.PK_STAT_PRESENT 8) d) = [3] := by decide

theorem witness_CanTransmission_1 : writes onBus .host (R.TXB_CTL.addr 2 1 0) = true ∧ canMay onBus .host 2 = true ∧ (0x101 : Word).getLsbD 1 = false
    ∧ canMay (onBus.raise R.CAN_CTL_OWNER_EN 2) .host 2 = false ∧ txbState onBus 2 1 = 1 ∧ txbState sending 2 1 = 2
    ∧ txbFree onBus 2 0 = true := by decide

theorem witness_CanTransmission_2 : onBus.on R.CAN_STAT_INIT 2 = false ∧ onBus.get R.CAN_STAT_BUS 2 ≠ 2 ∧ onBus.on R.CAN_CTL_MON 2 = false
    ∧ onBus.on R.CAN_CTL_RUN 2 = true ∧ (∀ j : Nat, j < 3 → txbState onBus 2 j ≠ 2) ∧ txbState onBus 2 1 = 1
    ∧ txbFits onBus 2 1 = true ∧ (∀ j : Nat, j < 3 → j ≠ 1 → txbState onBus 2 j ≠ 1) ∧ txbFits (onBus.wr R.TXB_FMT 1 2 1) 2 1 = false ∧ txbSending sending 2 = [(1 : Fin 3).val]
    ∧ sending.on R.CAN_CTL_LOOP 2 = false ∧ txbSending (onBus.clr R.CAN_CTL_RUN 2) 2 = [] := by decide

theorem witness_CanTransmission_3 : ttMaster (((onBus.put R.CAN_TT_CTL_LEVEL 1 2).raise R.CAN_TT_CTL_ROLE 2).put R.CAN_CTL_FMT 0 2) 2 = true
    ∧ (onBus.raise R.CAN_STAT_RECOVERING 2).on R.CAN_STAT_RECOVERING 2 = true ∧ writes onBus .host (R.CAN_CTL.addr 2 0 0) = true
    ∧ canOwned ((onBus.raise R.CAN_CTL_OWNER_EN 2).put R.CAN_CTL_OWNER_LE 47 2) 47 2 = true ∧ txbFree onBus 2 2 = true
    ∧ txbFree onBus 2 1 = false ∧ canOwned onBus 0 2 = false := by decide

theorem witness_CanReception_1 : onBus.on R.CAN_STAT_INIT 2 = false ∧ onBus.get R.CAN_STAT_BUS 2 ≠ 2 ∧ (1 : Word).toNat % 4 > min (onBus.get R.CAN_CTL_FMT 2) 2
    ∧ (0 : Word).toNat % 4 ≤ min (onBus.get R.CAN_CTL_FMT 2) 2 ∧ opened.on R.CAN_STAT_INIT 3 = true
    ∧ writes onBus .host (R.CAN_RX_POP.addr 2 0 0) = true ∧ canMay onBus .host 2 = true
    ∧ canMay (onBus.raise R.CAN_CTL_OWNER_EN 2) .host 2 = false := by decide

theorem witness_CanReception_2 : let m : CanMsg := ⟨0x123, w32 (setBits 0 4 12 2), 0, 0, 0, [7, 8]⟩
    let s := onBus.wr R.CAN_FLT 0x10 2 3 2
    fltHit s 2 3 m = true ∧ (∀ g : Nat, g < 3 → fltHit s 2 g m = false) ∧ bits (s.rd R.CAN_FLT 2 3 2) 2 2 = 0
    ∧ bits ((onBus.wr R.CAN_FLT 0x14 2 3 2).rd R.CAN_FLT 2 3 2) 2 2 = 1 ∧ (s.cb 2).rx = [] := by decide

theorem witness_CanReception_3 : let m : CanMsg := ⟨0x123, w32 (setBits 0 4 12 2), 0, 0, 0, [7, 8]⟩
    let s := onBus.raise R.CAN_CTL_NOMATCH_ACC 2
    (∀ f : Nat, f < 128 → fltHit s 2 f m = false) ∧ ((s.setCb 2 { rx := List.replicate 64 m }).cb 2).rx.length = 64
    ∧ s.on R.CAN_CTL_NOMATCH_ACC 2 = true ∧ onBus.on R.CAN_CTL_NOMATCH_ACC 2 = false := by decide

theorem witness_CanReception_4 : ttReceiver (onBus.put R.CAN_TT_CTL_LEVEL 2 1) 1 = true ∧ 2 ≤ ((onBus.setCb 1 { missed := 2 }).cb 1).missed ∧ ttReceiver onBus 2 = false := by decide

theorem witness_FieldOutputs_1 : (let s := { outOn with field := { svc := some (1, 2, 64, 0) }, store := { items := [(67, itemEntry 0 1 0 0xFFFF true true false true 0)] } }
     let u := s.setFx 3 { item := some 67 }
     u.field.svc ≠ none ∧ (u.fx 3).item = some 67 ∧ (readView u 67).testBit 0 = false ∧ fxSwitched u 3 = true ∧ (u.fx 3).sent ≠ some false
       ∧ (u.fx 3).fired ≠ some (fxTickNo u) ∧ u.on R.FX_CH_CFG_APPLY_EN 3 = false)
    ∧ (outOn.fx 3).fired ≠ some (fxTickNo outOn) ∧ ((outOn.setFx 3 { fired := some 0 }).fx 3).fired = some (fxTickNo outOn)
    ∧ outOn.on R.FX_CH_CFG_APPLY_EN 3 = false
    ∧ fxSwitched outOn 3 = true ∧ (outOn.raise R.FX_CH_CFG_APPLY_EN 3).on R.FX_CH_CFG_APPLY_EN 3 = true
    ∧ writes outOn (.atl 0) (R.FX_CH_CMD.addr 3 0 0) = true ∧ outOn.on R.FX_CH_STAT_ON 3 = true
    ∧ ((outOn.setFx 3 { tripped := true }).fx 3).tripped = true ∧ outOn.on R.FX_CH_CFG_OVL_LATCH 3 = false ∧ 900 ≤ (1500 : BitVec 16).toNat ∧ (1500 : BitVec 16).toNat ≤ 1500
    ∧ (outOn.raise R.FX_CH_CFG_OVL_LATCH 3).on R.FX_CH_CFG_OVL_LATCH 3 = true := by decide

theorem witness_FieldOutputs_2 : writes outOn (.atl 0) (R.FX_CH_SCH_CTL.addr 3 0 0) = true ∧ schMay outOn (.atl 0) 3 = true ∧ (1 : Word).getLsbD 0 = true
    ∧ fxMode outOn 3 ≠ 0 ∧ (1 : Word).getLsbD 2 = false
    ∧ schAhead ((outOn.wr R.FX_CH_SCH_TIME 0xFFFFFFFF 3 0).rd R.FX_CH_SCH_TIME 3 0) (domView (outOn.wr R.FX_CH_SCH_TIME 0xFFFFFFFF 3 0) 0) < 0
    ∧ schReady outOn 3 0 = none ∧ (schReady (setSchDue outOn 3 1 [(0, 0)]) 3 1).isSome = true
    ∧ (match exec (.scheduleFire 3 1) (setSchDue outOn 3 1 [(0, 0)]) with | .next u => schReady u 3 1 == none | _ => false) = true
    ∧ schDue (setSchDue outOn 3 1 [(0, 0)]) 3 1 = [(0, 0)] ∧ 0 ≤ fxTick (setSchDue outOn 3 1 [(0, 0)]) 0
    ∧ (∀ j : Nat, j < 4 → j ≠ 1 → schReady (setSchDue outOn 3 1 [(0, 0)]) 3 j = none) := by decide

theorem witness_FieldOutputs_3 : writes outOn (.atl 0) (R.FX_CH_CFG.addr 3 0 0) = true ∧ fxMode outOn 3 ≠ 0 ∧ bits (3 : Word).toNat 0 3 ≠ fxMode outOn 3
    ∧ bits (0x80000 : Word).toNat 0 3 = 0 ∧ fxMode opened 4 = 0 ∧ itValid (opened.item 64) = false ∧ overlaps opened 262144 0 1 = false := by decide

theorem witness_FieldGroups_1 : grpOn outOn (0 : Fin 2) = true ∧ (17501 : BitVec 16).toNat > 17500 ∧ (13999 : BitVec 16).toNat < 14000 ∧ (4001 : BitVec 16).toNat > 4000
    ∧ grpOn ((outOn.put R.FX_CH_CFG_MODE 2 31).raise R.FX_CH_STAT_ON 31) (1 : Fin 2) = true
    ∧ writes outOn (.atl 0) (R.FX_GRP_CTL.addr 1 0 0) = true ∧ (outOn.raise R.FX_GRP_STAT_LOCKOUT 1).on R.FX_GRP_STAT_LOCKOUT 1 = true
    ∧ (outOn.raise R.FX_GRP_CTL_RESTORE 1).on R.FX_GRP_CTL_RESTORE 1 = true ∧ outOn.on R.FX_GRP_CTL_RESTORE 1 = false
    ∧ writes outOn (.atl 0) (R.FX_HOLD_RELEASE.addr 0 0 0) = true := by decide

theorem witness_FieldGroups_2 : let s := { outOn.raise R.FX_STAT_HOLD with now := 200000000 }
    fxHold s = true ∧ s.on R.FX_STAT_HOLD_EXPIRED = false ∧ s.field.holdAt + holdLimit s ≤ s.now ∧ outOn.now < outOn.field.holdAt + holdLimit outOn := by decide

theorem witness_FieldDiagnostics_1 : let s := (opened.put R.FX_CH_CFG_MODE 1 31).raise R.FX_CH_CFG_EDGE_EN 31
    fxMode s 31 = 1 ∧ (s.rd R.FX_CH_STAT 31).testBit 0 ≠ true ∧ (s.fx 31).item = none ∧ (s.fx 31).timeItem = none
    ∧ (s.fx 31).runAt ≤ (s.time.frc.toNat - (0 : BitVec 32).toNat + 7) / 8 * 8
    ∧ (s.time.frc.toNat - (0 : BitVec 32).toNat + 7) / 8 * 8 + [0, 10000, 50000, 100000, 1000000, 3000000].getD (s.get R.FX_CH_CFG_FILT 31) 0 ≤ s.time.frc.toNat ∧ s.on R.FX_CH_CFG_EDGE_EN 31 = true
    ∧ s.field.edges.length < 256 ∧ { s with field := { edges := List.replicate 256 (0, 0) } }.field.edges.length = 256
    ∧ writes s .host (R.FX_EDGE_POP.addr 0 0 0) = true ∧ (isAtl .host || isHost .host) = true
    ∧ ([(1, 2), (3, 4)] : List (Word × Word)).length ≤ 256 := by decide

theorem witness_FieldDiagnostics_2 : let u := (outOn.put R.FX_CH_CFG_MODE 2 4).raise R.FX_CH_CFG_RB 4
    let s := { u with now := 50000000 }
    let x := s.setFx 3 { ons := [20000000] }
    fxSwitched s 4 = true ∧ s.on R.FX_CH_CFG_RB 4 = true ∧ outOn.on R.FX_CH_CFG_RB 3 = false ∧ backHigh s 4 (20000000 : BitVec 32).toNat = true
    ∧ (∀ c : Nat, c < 32 → crossed s 4 c (s.now - (20000000 : BitVec 32).toNat) = false)
    ∧ backHigh x 4 (20000000 : BitVec 32).toNat = true ∧ fxGroup 3 = fxGroup 4 ∧ lastOn x 3 (x.now - 20000000) = some 20000000
    ∧ x.now - 20000000 ≤ 20000000 + 20000000 ∧ (∀ c : Nat, c < 32 → c ≠ 3 → lastOn x c (x.now - 20000000) = none)
    ∧ crossed x 4 3 (x.now - 20000000) = true := by decide

theorem witness_FieldDiagnostics_3 : segSpare outOn 3 = true ∧ (outOn.rd R.FX_CH_SEG 3).testBit (7 : Fin 8) = true
    ∧ ((outOn.setFx 3 { worn := some (7, 0) }).fx 3).worn = some ((7 : Fin 8).val, 0) ∧ 0 ≤ outOn.now
    ∧ cqReady ((opened.put R.FX_CH_CFG_MODE 4 0).put R.FX_CH_CFG_COM 1 0) 0 = true
    ∧ (let u := { opened with packs := { insts := [(0, { used := true, st := 1, code := 9, chans := [0], engines := [5] })] }, field := { svc := some (1, 2, 64, 0) } }
       sdciEngine u 0 = some 5 ∧ u.field.svc ≠ none) ∧ sdciEngine opened 0 = none := by decide

theorem witness_FieldDiagnostics_4 : let s := { outOn with field := { svc := some (1, 2, 64, 0) }, store := { items := [(67, itemEntry 0 1 0 0xFFFF true true false true 0)] } }
    let u := s.setFx 3 { item := some 67 }
    u.field.svc ≠ none ∧ (u.fx 3).item = some 67 ∧ itLive (u.item 67) = true ∧ (∀ k : Nat, k < 32 → k ≠ 3 → (u.fx k).item = none)
    ∧ fxSwitched u 3 = true ∧ u.on R.FX_CH_CFG_APPLY_EN 3 = false ∧ (u.fx 3).fired ≠ some (fxTickNo u) ∧ (u.fx 3).sent ≠ some ((readView u 67).testBit 0) := by decide

theorem witness_PdGrant : State.reset.get R.PWR_PD_STAT_EVENTS < 5 ∧ pdInvalid State.reset = false ∧ pdInvalid ((State.reset.raise R.PWR_PD_CTL_SIG_OFF_AUX).raise R.PWR_PD_STAT_AUX) = true ∧ (State.reset.put R.PWR_PD_STAT_EVENTS 4).get R.PWR_PD_STAT_EVENTS < 5 := by decide

theorem witness_PaceGovernor_1 : let s := { opened with pwr := { opened.pwr with target := 803 }, now := 10000 }
    s.get R.PWR_VREQ_VREQ ≠ s.pwr.target ∧ s.pwr.movedAt + 10000 ≤ s.now ∧ s.pwr.target < 2 ^ 16
    ∧ (opened.raise R.PWR_STAT_AVS).on R.PWR_STAT_AVS = true ∧ writes opened (.atl 0) (R.PWR_BUDGET.addr 0 0 0) = true
    ∧ (let u := { opened with pwr := { opened.pwr with target := 803, movedAt := 1 } }
      u.get R.PWR_VREQ_VREQ ≠ u.pwr.target ∧ u.now < u.pwr.movedAt + 10000) ∧ opened.get R.PWR_VREQ_VREQ = opened.pwr.target
    ∧ pdInvalid opened = false ∧ pdInvalid ((opened.raise R.PWR_PD_CTL_SIG_OFF_AUX).raise R.PWR_PD_STAT_AUX) = true := by decide

theorem witness_PaceGovernor_2 : let s := { (opened.raise R.PWR_STAT_AVS).put R.PWR_CTL_MODE 2 with now := 10000000 }
    effMode s = 2 ∧ s.pwr.hold = false ∧ s.pwr.stepAt + 10000000 ≤ s.now ∧ s.pwr.movedAt + 10000 ≤ s.now
    ∧ 720 ≤ s.get R.PWR_VREQ_VREQ ∧ s.get R.PWR_VREQ_VREQ ≤ 800 := by decide

theorem witness_PaceGovernor_3 : let u := (opened.raise R.PWR_PD_STAT_PDGOOD).put R.PWR_CTL_MODE 3
    let s := { u.raise R.PWR_STAT_AVS with now := 1000000 }
    effMode u = 3 ∧ u.on R.PWR_STAT_AVS = false ∧ effMode s = 3 ∧ s.on R.PWR_STAT_AVS = true ∧ s.pwr.hold = false
    ∧ s.get R.PWR_CAP_V < (5000 : BitVec 20).toNat ∧ 720 < s.get R.PWR_VREQ_VREQ ∧ s.pwr.stepAt + 1000000 ≤ s.now ∧ effMode opened ≠ 3 := by decide

theorem witness_RaspSteps_1 : let s := rasping 0x000F01E3 {}
    raspDue s 15 = true ∧ (s.unit 15).wait = 0 ∧ (s.unit 15).stalled = none ∧ (s.unit 15).stop = none
    ∧ raspBlocked (s.unit 15) (raspLookup s 15).2.toNat = false ∧ (raspLookup s 15).2 = 0x000F01E3 ∧ (∀ p ∈ s.rasp.late, p.1 ≠ raspAt s 15) ∧ raspBlocked {} 0x60 = true
    ∧ raspDue opened 15 = false := by decide

theorem witness_RaspSteps_2 : let s := rasping 0 { wait := 1 }
    (s.unit 15).wait ≠ 0 ∧ (s.unit 15).run = true ∧ (s.unit 15).t0 ≤ s.time.frc.toNat ∧ (s.unit 15).k + (s.unit 15).wait ≤ raspTicks s 15 + 1
    ∧ raspTicks s 15 + 1 < ((rasping 0 { wait := 5 }).unit 15).k + 5 := by decide

theorem witness_RaspSteps_3 : let s := rasping 0 { stalled := some 0x60, pull := [7] }
    (s.unit 15).stalled = some 0x60 ∧ raspDue s 15 = true ∧ raspAtTick s 15 = true ∧ raspBlocked (s.unit 15) 0x60 = false
    ∧ (s.unit 15).stop = none ∧ ((rasping 0 { stop := some 0 }).unit 15).stop = some 0 ∧ 0 + 0 * raspDiv s 15 / 256 ≤ s.time.frc.toNat
    ∧ raspBlocked ((rasping 0 { stalled := some 0x60 }).unit 15) 0x60 = true := by decide

theorem witness_RaspSteps_4 : let s := { opened.setUnit 15 { hold := true } with time := { opened.time with frc := 1 } }
    (s.unit 15).hold = true ∧ (s.unit 15).run = false ∧ 256 * (s.unit 15).t0 + raspDiv s 15 < 256 * (s.time.frc.toNat + 1)
    ∧ ((s.put R.GPIO_PIN_OWN 16 63).get R.GPIO_PIN_OWN 63) = 15 + 1 := by decide

theorem witness_RaspCommands_1 : let s := rasping 0 {}
    writes s (.atl 0) (R.RASP_U_CTL.addr 15 0 0) = true ∧ isAtl (.atl 0) = true ∧ (s.unit 15).run = true ∧ (0x100 : Word).getLsbD 2 = false
    ∧ writes s (.atl 0) (R.RASP_TW_DATA.addr 0 0 0) = true ∧ raspKey (s.get R.RASP_TW_SEL_UNIT) (s.get R.RASP_TW_SEL_BANK) (s.get R.RASP_TW_SEL_INDEX) = 0
    ∧ writes s (.atl 0) (R.RASP_U_INJ.addr 15 0 0) = true ∧ raspMay s (.atl 0) 15 = true ∧ (s.unit 15).inj = none
    ∧ writes s (.atl 0) (R.RASP_START.addr 0 0 0) = true := by decide

theorem witness_RaspCommands_2 : let s := (rasping 0 { push := [5] }).raise R.RASP_U_CTL_OWNER_EN 15
    raspOwned s 0 15 = true ∧ raspOwned s 47 15 = false ∧ reads s (.atl 0) (R.RASP_U_PUSH.addr 15 0 0) = true
    ∧ writes s (.atl 0) (R.RASP_U_PULL.addr 15 0 0) = true ∧ s.on R.RASP_U_CTL_EN 15 = true
    ∧ (opened.on R.RASP_U_CTL_EN 15) = false := by decide

theorem witness_RaspCommands_3 : let s := (rasping 0 {}).raise R.RASP_START_STAT_PEND
    s.on R.RASP_START_STAT_PEND = true ∧ s.on R.RASP_START_IG_EN = false ∧ opened.on R.RASP_START_STAT_PEND = false := by decide

theorem witness_DmaQueues_1 : let s := ((dmaq {}).wr R.DQ_OWN 0x40 63)
    (dqOwned s 0).contains (63 : Fin 64).val = true ∧ (dqOwned s 47).contains (63 : Fin 64).val = false ∧ s.on R.DQ_CTL_EN 63 = true ∧ s.get R.DQ_STAT_STATE 63 ≠ 3
    ∧ (s.dq 63).phase = 0 ∧ s.on R.DQ_STAT_TRIG_PEND 63 = false ∧ writes s (.atl 0) (R.DQ_DB.addr 63 0 0) = true
    ∧ mayRing s (.atl 0) 63 = true ∧ ((dmaq { phase := 1 }).dq 63).phase ≠ 0 := by decide

theorem witness_DmaQueues_2 : let s := (dmaq { phase := 1 }).setMword .host 0x10000 0x80000014
    (s.dq 63).phase = 1 ∧ (s.dq 63).wait = false ∧ (∀ k : Nat, k < 64 → (s.dq k).held = false ∧ (s.dq k).wait = false) ∧ s.on R.DMA_CTL_EN = true ∧ s.on R.DQ_CTL_RING_SP 63 = true ∧ hostMemUp s = true
    ∧ (hdr (s.bytes .host (ringAt s 63 % 2 ^ 64) 32) 0 4).testBit 31 = true
    ∧ (hdr ((dmaq { phase := 1 }).bytes .host (ringAt s 63 % 2 ^ 64) 32) 0 4).testBit 31 = false
    ∧ hostMemUp (dmaq { phase := 1 }) = true ∧ hostMemUp ((dmaq { phase := 1 }).clr R.HIF_STAT_BME) = false := by decide

theorem witness_DmaQueues_3 : let s := (dmaq copying).put R.DQ_STAT_STATE 3 63
    writes s (.atl 0) (R.DQ_CTL.addr 63 0 0) = true ∧ s.on R.DQ_CTL_EN 63 = true ∧ s.get R.DQ_STAT_STATE 63 = 3
    ∧ (s.dq 63).phase = 2 ∧ (s.dq 63).bursts = [] ∧ (s.dq 63).held = false ∧ writes s (.atl 0) (R.DQ_RQ_TAIL.addr 63 0 0) = true
    ∧ (isAtl (.atl 0) || (isHost (.atl 0) && s.on R.DQ_CTL_HOST 63)) = true := by decide

theorem witness_DmaTransfers_1 : let s := dmaq copying
    let x := s.dq 63
    s.on R.DMA_CTL_EN = true ∧ s.on R.DQ_CTL_EN 63 = true ∧ x.phase = 2 ∧ x.result = none ∧ x.bursts = [] ∧ x.held = false ∧ x.issued = 0 ∧ x.done = 0
    ∧ 0 < x.len ∧ x.len ≤ burstSize s 63 - x.dst % burstSize s 63 ∧ dstSp x = 1 ∧ srcSp x = 1 ∧ hostMemUp s = true ∧ x.dst + x.len ≤ 2 ^ 64
    ∧ x.src + x.len ≤ 2 ^ 64 ∧ s.get R.DMA_STAT_INFLIGHT < 256 ∧ tagsUsed s + 2 ≤ 256 ∧ (∀ k : Nat, k < 64 → (s.dq k).held = false ∧ (s.dq k).wait = false) ∧ tabGet [] s.dma.htx 63 = []
    ∧ bits x.ctl 0 2 = 0 := by decide

theorem witness_DmaTransfers_2 : let s := dmaq copying
    readyAt s (0 : Fin 4) = [(63 : Fin 64).val] ∧ agingRound s = false ∧ starved s 1 (dmaAsking s) = none ∧ (∀ l : Nat, l < 4 → 0 < l → readyAt s l = []) ∧ s.get R.DMA_STAT_INFLIGHT ≠ 256 ∧ tagsUsed s + burstTags (s.dq 63) ≤ 256
    ∧ agingRound { s with dma := { s.dma with since0 := 15 } } = true ∧ (s.put R.DMA_STAT_INFLIGHT 256).get R.DMA_STAT_INFLIGHT = 256 := by decide

theorem witness_DmaTransfers_3 : let s := dmaq { copying with len := 80, issued := 80, bursts := [⟨0, 64, 0⟩, ⟨64, 16, 0⟩] }
    (s.dq 63).phase = 2 ∧ (s.dq 63).bursts[(1 : Fin 16).val]? = some ⟨64, 16, 0⟩ ∧ (s.dq 63).result = none ∧ 2 ≤ (s.dq 63).bursts.length
    ∧ (∀ k : Nat, k < 64 → (s.dq k).held = false ∧ (s.dq k).wait = false) := by decide

theorem witness_DmaTransfers_4 : let s := dmaq { copying with phase := 3, result := some 8 }
    let u := ((dmaq { copying with phase := 3, record := true }).put R.DQ_RQ_SIZE_V 2 63).put R.DQ_RQ_TAIL_V 1 63
    (s.dq 63).phase = 3 ∧ (s.dq 63).result.getD 0 = 8 ∧ (s.dq 63).record = false ∧ s.on R.DQ_CTL_RING_SP 63 = true ∧ hostMemUp s = true
    ∧ ringAt s 63 + 32 ≤ 2 ^ 64 ∧ s.get R.DQ_PULSE_KIND 63 = 0 ∧ s.on R.DQ_CTL_EN 63 = true ∧ s.on R.DQ_STAT_TRIG_PEND 63 = false
    ∧ rqFull u 63 = true ∧ (u.dq 63).record = true := by decide

theorem witness_HostInterface_1 : opened.on R.HIF_STAT_IF = false ∧ State.reset.boot.phase ≠ 0 ∧ (∀ k : Nat, k < 2 → State.reset.rd R.MSIX_PBA k = 0)
    ∧ ({ State.reset with boot := { State.reset.boot with phase := 0, reach := some 1 } } : State).boot.phase = 0 ∧ (∀ n : Nat, n < 512 → State.reset.get R.EVH_SRC_CFG_STATE n ≠ 1) := by decide

theorem witness_HostInterface_2 : let s := mail 0x40 0 1 []
    let u := s.clr R.HIF_CHT_CTL_LOC
    hostMemUp u = true ∧ canTake u 0 = true ∧ chanOps.contains (hmbOp u 0) = true ∧ u.on R.HIF_CHT_CTL_EN = true ∧ u.on R.HIF_CHT_CTL_LOC = false
    ∧ tabGet 0 u.cmd.ring 0 = 0 ∧ tabGet 0 u.cmd.since 0 + 1000000 * max 1 (min 1000 (u.get R.HIF_CPL_TO_V)) ≤ ({ u with now := 50000000 } : State).now := by decide

theorem witness_HostInterface_3 : let s := (opened.setDq 63 { phase := 1 }).raise R.DQ_CTL_RING_SP 63
    hostMemUp s = true ∧ (s.dq 63).phase = 1 ∧ (∀ k : Nat, k < 64 → (s.dq k).held = false ∧ (s.dq k).wait = false) ∧ s.on R.DQ_CTL_RING_SP 63 = true := by decide

theorem witness_HostInterface_4 : let s := spi
    s.on R.HIF_STAT_IF = true ∧ fwPass s .host true 0x3FFC = true ∧ inBlocks 0x3FFC = false ∧ inImages 0x3FFC = false ∧ assigned s 0x3FFC = true
    ∧ (memOpen { s with bus := {} } 0x3FFC).isSome = true ∧ fwPass s .host true (0x3FFC + 4) = false := by decide

theorem witness_HostInterface_5 : let s := spi.raise R.HMB_STAT_FULL 15
    fwPass s .host true (R.HMB_DATA.addr 15 0 0) = true ∧ s.on R.HMB_STAT_FULL 15 = true ∧ fwPass s .host false 0x3FFC = true
    ∧ writes s .host (R.HMB_DATA.addr 15 0 0) = true ∧ hostSide .host = true ∧ writes s .dma (R.HMB_DATA.addr 15 0 0) = true ∧ hostSide .dma = true
    ∧ spi.on R.HMB_STAT_FULL 15 = false := by decide

theorem witness_HostInterface_6 : writes spi (.atl 0) (R.HMB_ACK.addr 15 0 0) = true ∧ isAtl (.atl 0) = true ∧ writes spi (.atl 0) (R.AMB_DATA.addr 15 0 0) = true
    ∧ spi.on R.AMB_STAT_FULL 15 = false ∧ (spi.raise R.AMB_STAT_FULL 15).on R.AMB_STAT_FULL 15 = true
    ∧ writes spi .host (R.AMB_ACK.addr 15 0 0) = true ∧ isHost .host = true := by decide

theorem witness_HostInterface_7 : writes spi .host (R.HDB_SET.addr 0 0 0) = true ∧ writes spi (.atl 1) (R.HDB_CLR.addr 0 0 0) = true ∧ isHost (.atl 1) = false
    ∧ writes spi (.atl 1) (R.ADB_SET.addr 0 0 0) = true ∧ writes spi .host (R.ADB_CLR.addr 0 0 0) = true ∧ isAtl .host = false := by decide

theorem witness_EventHub_1 : isLevelSource (300 : Fin 512) = true ∧ levelNow opened 300 = false ∧ sourceExists 308 = true ∧ isLevelSource 308 = false
    ∧ opened.get R.EVH_SRC_CFG_STATE 308 = 0 ∧ (evMasked opened 308 = true ∨ evMasked (opened.wr R.EVH_MASK 0xFFFFFFFF 9) 308 = true)
    ∧ (opened.put R.EVH_SRC_CFG_STATE 2 308).get R.EVH_SRC_CFG_STATE 308 = 2 := by decide

theorem witness_EventHub_2 : let s := opened.wr R.EVH_MASK 0 9
    evMasked s 308 = false ∧ asleep s (s.get R.EVH_SRC_CFG_TARGET (308 : Fin 512)) = false
    ∧ asleep (s.put R.EVH_T_STAT_SLEEP 1 0) 0 = true ∧ (s.put R.EVH_SRC_CFG_TARGET 0 308).get R.EVH_SRC_CFG_TARGET 308 = 0
    ∧ s.on R.EVH_T_CTL_WAKE_EN 0 = true ∧ (s.put R.EVH_T_CTL_WAKE_EN 0 0).on R.EVH_T_CTL_WAKE_EN 0 = false := by decide

theorem witness_EventHub_3 : let s := { (opened.wr R.EVH_MASK 0 9).put R.EVH_SRC_CFG_TARGET 6 308 with hif := { msixEn := true } }
    evMasked s 308 = false ∧ asleep s 6 = false ∧ s.get R.EVH_SRC_CFG_TARGET 308 = 6 ∧ s.on R.HIF_STAT_IF = false ∧ s.hif.msixFMask = false
    ∧ s.on R.MSIX_CTL_MASK 0 = true ∧ (s.put R.MSIX_CTL_MASK 0 0).on R.MSIX_CTL_MASK 0 = false := by decide

theorem witness_EventHub_4 : let s := (opened.wr R.EVH_MASK 0xFFFFFFFF 15).put R.EVH_SRC_CFG_STATE 1 511
    writes s (.atl 0) (R.EVH_SWSET.addr 0 0 0) = true ∧ writes s (.atl 3) (R.EVH_T_CLAIM.addr (3 : Fin 8) 0 0) = true ∧ mayTarget (.atl 3) (3 : Fin 8) = true
    ∧ mayTarget .host (3 : Fin 8) = false ∧ writes s .host (R.EVH_T_CLAIM.addr (3 : Fin 8) 0 0) = true
    ∧ sourceExists 511 = true ∧ s.get R.EVH_SRC_CFG_STATE 511 = 1 ∧ pendingOn s 511 = s.get R.EVH_SRC_CFG_TARGET 511 := by decide

theorem witness_EventHub_5 : let s := { (opened.wr R.EVH_MASK 0xFFFFFFFF 15).put R.EVH_SRC_CFG_STATE 3 511 with evh := { claimant := [(511, 4)] } }
    writes s (.atl 3) (R.EVH_T_EOI.addr (3 : Fin 8) 0 0) = true ∧ mayTarget (.atl 3) (3 : Fin 8) = true ∧ tabGet 0 s.evh.claimant (511 : Fin 512) = (3 : Fin 8) + 1
    ∧ s.get R.EVH_SRC_CFG_STATE 511 = 3 ∧ evMasked s 511 = true ∧ isLevelSource 511 = false ∧ tabGet 0 s.evh.claimant 510 ≠ 4 := by decide

theorem witness_EventHub_6 : let s := (opened.wr R.EVH_MASK 0xFFFFFFFF 15).put R.EVH_SRC_CFG_STATE 1 511
    writes s .arm (R.EVH_MASK.addr (15 : Fin 16) 0 0) = true ∧ isArm .arm = true ∧ evMasked s (32 * (15 : Fin 16).val + 31) = true
    ∧ asleep s (pendingOn s 511) = false ∧ tabGet 0 s.evh.presented 511 = 0 ∧ isLevelSource (32 * (9 : Fin 16).val + 0) = true ∧ reads s .host (R.EVH_MASK_FENCE.addr 0 0 0) = true := by decide

theorem witness_EventHub_7 : let s := (opened.wr R.EVH_MASK 0 15).put R.EVH_SRC_CFG_STATE 1 511
    writes s .arm (R.EVH_SRC_CFG.addr (511 : Fin 512) 0 0) = true ∧ s.get R.EVH_SRC_CFG_STATE 511 = 1 ∧ s.get R.EVH_SRC_CFG_TARGET 511 ≠ (2 : Nat)
    ∧ asleep s 2 = false ∧ evMasked s 511 = false ∧ evMasked (s.wr R.EVH_MASK 0xFFFFFFFF 15) 511 = true
    ∧ tabGet 0 ({ s with evh := { presented := [(511, 1)] } } : State).evh.presented 511 ≠ 0 ∧ isAtl .host = false ∧ isArm .host = false ∧ writes s .host (R.EVH_SRC_CFG.addr (511 : Fin 512) 0 0) = true := by decide

theorem witness_EventHub_8 : let s := { ((((opened.put R.EVH_SRC_CFG_STATE 1 511).put R.EVH_SRC_CFG_TARGET 0 511).raise R.EVH_T_STAT_SLEEP 0).raise R.EVH_T_CTL_FB_EN 0).put R.EVH_T_CTL_FALLBACK 1 0 with evh := { linger := [(511, 1)] } }
    s.get R.EVH_SRC_CFG_TARGET (511 : Fin 512) = 0 ∧ s.get R.EVH_T_CTL_FALLBACK 0 = 1 ∧ tabGet 0 s.evh.linger 511 ≠ 0 ∧ tabGet 0 s.evh.linger 511 ≤ s.now + 1
    ∧ s.get R.EVH_SRC_CFG_STATE 511 = 1 ∧ s.on R.EVH_SRC_CFG_FB 511 = false ∧ asleep s 0 = true ∧ s.on R.EVH_T_CTL_FB_EN 0 = true ∧ asleep s 1 = false
    ∧ tabGet 0 State.reset.evh.linger 511 = 0 := by decide

theorem witness_OnChipMemory_1 : opened.on R.MEM_CTL_SCRUB_EN = true ∧ opened.ocm.scrub < 96 ∧ opened.get R.MEM_BK_STAT_STATE opened.ocm.scrub = 0 ∧ opened.ocm.test = none
    ∧ opened.get R.MEM_BK_SCRUB_V opened.ocm.scrub < 32767
    ∧ (opened.put R.MEM_CTL_SCRUB_EN 0).on R.MEM_CTL_SCRUB_EN = false := by decide

theorem witness_OnChipMemory_2 : let s := { opened.put R.MEM_BK_SCRUB_V 32000 5 with ocm := { scrub := 5, test := some (5, 500, 0) } }
    s.get R.MEM_BK_SCRUB_V 5 = 32000 ∧ 32000 / 64 = 500 ∧ s.ocm.test = some (5, 32000 / 64, 0) ∧ s.get R.MEM_BK_STAT_STATE 5 = 0 := by decide

theorem witness_OnChipMemory_3 : let s := { opened.put R.MEM_BK_SCRUB_V 32767 87 with ocm := { scrub := 87 } }
    s.get R.MEM_BK_SCRUB_V 87 = 32767 ∧ s.get R.MEM_BK_STAT_STATE 0 = 0
    ∧ (∀ k : Nat, k < 96 → (87 < k ∧ k < 0) ∨ (0 ≤ 87 ∧ (87 < k ∨ k < 0)) → s.get R.MEM_BK_STAT_STATE k ≠ 0) := by decide

theorem witness_OnChipMemory_4 : opened.on R.MEM_CTL_TEST_EN = true ∧ opened.ocm.test = none ∧ opened.get R.MEM_BK_STAT_STATE (95 : Fin 96) = 1 ∧ opened.on R.MEM_BK_STAT_TRANS (95 : Fin 96) = false
    ∧ (opened.put R.MEM_BK_STAT_STATE 2 95).get R.MEM_BK_STAT_STATE 95 = 2 := by decide

theorem witness_OnChipMemory_5 : let s := { opened.clr R.PAT_CTL_EN with ocm := { test := some (87, 511, 0) } }
    s.ocm.test = some (87, 511, 0) ∧ tabGet 0 s.ocm.req 87 = 0 ∧ s.on R.PAT_CTL_EN = false ∧ s.on R.PAT_BK_SPARE 87 = false ∧ s.get R.PAT_BK_STATE 87 < 2
    ∧ s.on R.MEM_BK_STAT_REMAP_SRC 87 = false ∧ s.get R.MEM_REMAP_STAT_STATE ≠ 1 ∧ tabGet 0 [(87, 2)] 87 = 2 := by decide

theorem witness_OnChipMemory_6 : let s := opened
    writes s (.atl 0) (R.MEM_BK_PWR.addr (3 : Fin 96) 0 0) = true ∧ bankMay s (.atl 0) 3 = true ∧ bankMay s (.atl 0) 20 = false
    ∧ s.on R.MEM_BK_STAT_UNDER_TEST 3 = false ∧ (s.raise R.MEM_BK_STAT_UNDER_TEST 3).on R.MEM_BK_STAT_UNDER_TEST 3 = true
    ∧ (({ s with ocm := { spare := 90 } } : State).put R.MEM_REMAP_STAT_STATE 1).get R.MEM_REMAP_STAT_STATE = 1
    ∧ s.get R.MEM_BK_STAT_STATE 3 ≠ 2 ∧ bankSlot s 3 = some 3 ∧ slotBase 3 = some 0xC0000 ∧ bankMay s .pat 95 = true
    ∧ writes s .host (R.MEM_BK_PWR.addr (3 : Fin 96) 0 0) = true ∧ (s.raise R.MEM_BK_STAT_TRANS 3).on R.MEM_BK_STAT_TRANS 3 = true := by decide

theorem witness_OnChipMemory_7 : let s := opened
    writes s .pat (R.MEM_REMAP_CTL.addr 0 0 0) = true ∧ (0x157 : Word).toNat % 128 = 87 ∧ (0x157 : Word).getLsbD 8 = true ∧ s.get R.MEM_REMAP_STAT_STATE ≠ 1
    ∧ (spareBank s).isSome = true ∧ spareBank s ≠ some 87 ∧ s.get R.MEM_MAP_PHYS 87 = 87 ∧ 0 < s.get R.MEM_SPARES_FREE
    ∧ writes s .host (R.MEM_REMAP_CTL.addr 0 0 0) = true := by decide

theorem witness_OnChipMemory_8 : let s := { ((opened.put R.MEM_REMAP_STAT_STATE 1).put R.MEM_REMAP_CTL_SLOT 87).setJob 4 (.bank 87) with ocm := { spare := 95 } }
    let u := s.clr R.HIF_STAT_ATL_RESTART
    u.get R.MEM_REMAP_CTL_SLOT = 87 ∧ u.get R.MEM_MAP_PHYS 87 = 87 ∧ u.get R.MEM_REMAP_STAT_STATE = 1 ∧ jobBoxes u (.bank 87) = [(4 : Fin 16).val]
    ∧ u.on R.HIF_STAT_ATL_RESTART = false ∧ u.ocm.spare = 95 ∧ u.ocm.patina = false := by decide

theorem witness_OnChipMemory_9 : State.reset.boot.phase = 1 ∧ State.reset.on R.MEM_STAT_READY = false ∧ State.reset.sec.lc = none ∧ lcState State.reset ≠ 4 ∧ State.reset.on R.SEC_STAT_TAMPER_HOLD = false ∧ hostBooted State.reset = false
    ∧ lifeRec State.reset = none ∧ lifeRec { State.reset with pat := { recB := some { seq := 3 } } } = some { seq := 3 } := by decide

theorem witness_ResetAndBoot_1 : booted.boot.reach = none ∧ booted.on R.RST_AWD_CTL_EN = true ∧ booted.boot.awdEnd ≠ 0 ∧ booted.boot.awdEnd ≤ booted.now + 1
    ∧ (659 : BitVec 16).toNat < [660, 780, 820, 1080, 2950, 2950, 1600, 1600].getD (0 : Fin 8) 0 ∧ 5000 ≤ (5000 : BitVec 32).toNat
    ∧ bits (booted.rd R.RST_OPT 0) 24 8 = 0 ∧ State.reset.boot.reach = some 0 ∧ (0 : Nat) < 1
    ∧ inReset booted = false ∧ booted.boot.armAt + 1000000000 ≤ ({ booted with now := 1000000000 } : State).now := by decide

theorem witness_ResetAndBoot_2 : (999 : BitVec 32).toNat < 1000 ∧ 660 ≤ (950 : BitVec 16).toNat ∧ opened.on R.RST_AWD_CTL_EN = false ∧ booted.boot.reach = none
    ∧ booted.boot.phase ≠ 2 ∧ booted.boot.phase ≠ 3 ∧ booted.boot.phase ≠ 4 ∧ booted.now < booted.boot.armAt + 1000000000 := by decide

theorem witness_ResetAndBoot_3 : let m : List (BitVec 16) := [680, 800, 840, 1110, 3000, 3000, 1650, 1650]
    (∀ r : Nat, r < 8 → railBack r (m.getD r 0).toNat = true) ∧ (∀ r : Nat, r < 8 → railOut r (m.getD r 0).toNat = false)
    ∧ ({ now := 2000000 } : State).boot.railAt + 2000000 ≤ 2000000 := by decide

theorem witness_ResetAndBoot_4 : writes booted .arm (R.RST_AWD_KICK.addr 0 0 0) = true ∧ isArm .arm = true ∧ writes booted .host (R.RST_AWD_KICK.addr 0 0 0) = true ∧ isHost .host = true
    ∧ isAtl .host = false ∧ isArm .host = false := by decide

theorem witness_ResetAndBoot_5 : let s := { State.reset with boot := { phase := 0 } }
    let u := { booted with boot := { reach := some 2, phase := 0 }, pat := { coreArm := some 3 } }
    s.boot.phase = 0 ∧ anySource s = false ∧ s.boot.reach = some 0 ∧ u.boot.phase = 0 ∧ anySource u = false ∧ lcState u ≠ 4 ∧ u.on R.SEC_STAT_TAMPER_HOLD = false ∧ hostBooted u = false
    ∧ optGood (s.bytes .otp 0 64) = false := by decide

theorem witness_ResetAndBoot_6 : let s := { booted with boot := { phase := 2, slot := 1 } }
    s.boot.phase = 2 ∧ s.on R.SEC_STAT_TAMPER_HOLD = false ∧ s.boot.slot = 1 := by decide

theorem witness_ResetAndBoot_7 : let s := { booted with boot := { phase := 3, slot := 1, len := 0x400001 } }
    s.boot.phase = 3 ∧ bootOk s = false ∧ s.boot.fromHost = false ∧ s.boot.second = false ∧ s.boot.reach ≠ some 2
    ∧ lcState s ≠ 4 ∧ s.on R.SEC_STAT_TAMPER_HOLD = false ∧ s.on R.MEM_SEC_STAT_LOCKED = false := by decide

theorem witness_ResetAndBoot_8 : let s := booted.raise R.RST_STAT_HBOOT_WAIT
    writes s .host (R.RST_HBOOT_LEN.addr 0 0 0) = true ∧ isHost .host = true ∧ s.on R.RST_STAT_HBOOT_WAIT = true ∧ booted.on R.RST_STAT_HBOOT_WAIT = false
    ∧ writes booted .host (R.RST_HBOOT_LEN.addr 0 0 0) = true := by decide

theorem witness_ResetAndBoot_9 : let s := { opened with boot := { reach := some 1, phase := 4 } }
    s.boot.phase = 4 ∧ s.boot.reach.getD 0 = 1 ∧ s.on R.RST_AWD_CTL_EN = false ∧ (∀ n : Nat, n < 32 → fxMode s n = 0) ∧ s.cmd.order = [] ∧ s.cmd.streams = []
    ∧ s.packs.insts = [] ∧ s.cmd.notes.length < 256 ∧ s.on R.FX_STAT_HOLD = false ∧ s.on R.FX_STAT_HOLD_EXPIRED = false := by decide

theorem witness_TrustAndWear_1 : lcState opened < 2 ∧ lcState (opened.put R.SEC_STAT_LC 2) = 2 ∧ lcState (opened.put R.SEC_STAT_LC 4) = 4 ∧ booted.boot.reach = none
    ∧ lcState (booted.put R.SEC_STAT_LC 2) = 2 ∧ debugOpen opened = false ∧ debugOpen (opened.raise R.SEC_STAT_DBG_UNLOCKED) = true := by decide

theorem witness_TrustAndWear_2 : (WearKind.engine ≠ .segment) ∧ (51 : Nat) < wearUnits .engine ∧ State.reset.get (wearState .engine) 51 ≠ 3 ∧ opened.on R.PAT_STAT_BASELINE = false ∧ subRuns opened = false
    ∧ subRuns (opened.put R.CE_MIG_STAT_STATE 1) = true := by decide

theorem witness_TrustAndWear_3 : let s := { opened.raise R.MEM_STAT_READY with now := 600000000000, pat := { paces := [(3, [5, 6])] } }
    s.on R.PAT_STAT_BASELINE = false ∧ s.on R.MEM_STAT_READY = true ∧ s.pat.epochAt + 600000000000 ≤ s.now ∧ subRuns s = false
    ∧ (s.pat.paces.map (·.1)).Nodup ∧ (∀ p ∈ s.pat.paces, p.2 ≠ []) := by decide

theorem witness_TrustAndWear_4 : let s := (worn [(wearKey .core 4, [100, 101])]).put (wearBelow .core) 2 4 |>.raise R.PAT_CTL_POLICY
    s.on R.PAT_STAT_BASELINE = true ∧ s.on R.PAT_CTL_EN = true ∧ s.on R.PAT_CTL_POLICY = true
    ∧ s.pat.epochAt + max 1 (min 1440 (s.get R.PAT_EPOCH_V)) * 60000000000 ≤ s.now ∧ (100 + 101) / 2 < (wearLimits s .core).2 ∧ 4 < wearUnits .core
    ∧ s.get (wearState .core) 4 < 2 ∧ 2 ≤ s.get (wearBelow .core) 4 := by decide

theorem witness_TrustAndWear_5 : let s := (worn []).raise R.PAT_CTL_POLICY
    (∀ b : Nat, b < 96 → s.rd R.MEM_BK_CE b ≤ tabGet 0 s.pat.ceAt b + 16) ∧ (∀ x : Nat, x < 52 → s.get (wearState .engine) x ≠ 2)
    ∧ (∀ x : Nat, x < 96 → s.get (wearState .bank) x ≠ 2) ∧ (∀ x : Nat, x < 12 → s.get (wearState .lane) x ≠ 2) ∧ (∀ x : Nat, x < 288 → s.get (wearState .segment) x ≠ 2)
    ∧ (∀ x : Nat, x < 5 → s.get (wearState .core) x ≠ 2) := by decide

theorem witness_TrustAndWear_6 : let s := { worn [] with pat := { recA := some { seq := 4 }, recDue := true } }
    s.pat.recDue = true ∧ s.pat.recB = none := by decide

theorem witness_TrustAndWear_7 : let s := { (worn []).raise R.PAT_CTL_POLICY with pat := { reqAt := [(wearKey .segment 287, 1), (wearKey .engine 5, 1)] } }
    tabGet 0 s.pat.reqAt (wearKey .engine (5 : Fin 288)) = 1 ∧ s.on R.PAT_CTL_POLICY = true ∧ 1 ≤ s.now ∧ s.get (wearState .engine) (5 : Fin 288) ≠ 3
    ∧ (unitArg s .engine 5).isSome = true ∧ s.cmd.notes.length < 256 ∧ (s.put (wearState .engine) 3 5).get (wearState .engine) 5 = 3 := by decide

theorem witness_TrustAndWear_8 : let s := { opened.raise R.PAT_CE_SPARE 50 with pat := { retry := some (47, 0) } }
    s.pat.retry = some (47, 0) ∧ 0 ≤ s.now ∧ migBusy s = false ∧ (spareEngine s).isSome = true ∧ engState s 47 = 0 ∧ s.rd R.CE_MAP 47 < 52 := by decide

theorem witness_TrustAndWear_9 : let s := { (opened.raise R.PAT_TEL_CTL_EN).wr R.PAT_TEL_BASE 0x023FFF00 with time := { frc := 10000000 } }
    s.on R.PAT_TEL_CTL_EN = true ∧ s.pat.telAt + 10000000 ≤ s.time.frc.toNat ∧ memReady s .pat (s.rd R.PAT_TEL_BASE / 256 * 256 + 256 * s.get R.PAT_TEL_HEAD_V) 256 = true := by decide

theorem witness_TrustAndWear_10 : (opened.raise R.TB_STAT_ALTREF_OK).on R.TB_STAT_ALTREF_OK = true ∧ opened.on R.TB_STAT_ALTREF_OK = false := by decide

end Sys2Proof.Tests
end

section
/-! PROOFS. The scope of the device (spec/00): reset (R3), registers behind the fabric (R4), and a write's five ways through the fabric
(R21, R23, R303, R306, R405, R406, R489). First what the words of registers become, then the fabric, then the statements. -/
namespace Sys2Proof.Machine

/-! ### Words of registers under the access codes (R489) -/

/-- A field replaced by its own number leaves the word. -/
theorem setBits_bits_self (n lo w : Nat) : setBits n lo w (bits n lo w) = n := by
  apply Nat.eq_of_testBit_eq
  intro i
  rw [setBits_testBit]
  split
  · rename_i h
    rw [testBit_bits, show lo + (i - lo) = i by omega]
    simp [show i - lo < w by omega]
  · rfl

/-- A field that fills the register replaces its word. -/
theorem setBits_word {n : Nat} (h : n < 2 ^ 32) (v : Nat) : setBits n 0 32 v = v % 2 ^ 32 := by
  simp only [setBits, bits, Nat.pow_zero, Nat.div_one, Nat.mul_one, Nat.mod_eq_of_lt h]
  omega

theorem bits_word {n : Nat} (h : n < 2 ^ 32) : bits n 0 32 = n := by
  simp only [bits, Nat.pow_zero, Nat.div_one, Nat.mod_eq_of_lt h]

/-- Taking from a number the bits that it shares with another clears those bits, and no borrow arises. -/
theorem testBit_sub_and (o n b : Nat) : (o - (o &&& n)).testBit b = (o.testBit b && !n.testBit b) := by
  induction b generalizing o n with
  | zero =>
    have hle : o &&& n ≤ o := Nat.and_le_left
    have hodd : (o &&& n) % 2 = 1 ↔ o % 2 = 1 ∧ n % 2 = 1 := Nat.and_mod_two_eq_one
    simp only [Nat.testBit_zero, ← decide_not, ← Bool.decide_and, decide_eq_decide]
    omega
  | succ b ih =>
    have hle : o &&& n ≤ o := Nat.and_le_left
    have hodd : (o &&& n) % 2 = 1 ↔ o % 2 = 1 ∧ n % 2 = 1 := Nat.and_mod_two_eq_one
    have hdiv : (o &&& n) / 2 = o / 2 &&& n / 2 := Nat.and_div_two
    have hhalf : (o - (o &&& n)) / 2 = o / 2 - (o / 2 &&& n / 2) := by omega
    rw [Nat.testBit_succ, hhalf, ih, Nat.testBit_succ, Nat.testBit_succ]

/-- A register whose fields are all RO keeps its word under every write. -/
theorem regWriteWord_ro (r : Reg) (old v : Nat) (h : ∀ f ∈ r.fields, f.acc = .ro) : regWriteWord r old v = old := by
  suffices ∀ l : List FldDesc, (∀ f ∈ l, f.acc = .ro) →
      l.foldl (fun w f => setBits w f.lo f.width (fieldWrite f old v)) old = old from this r.fields h
  intro l
  induction l with
  | nil => intro _; rfl
  | cons f l ih =>
    intro hl
    have hf : fieldWrite f old v = bits old f.lo f.width := by simp [fieldWrite, hl f (by simp)]
    rw [List.foldl_cons, hf, setBits_bits_self]
    exact ih fun g hg => hl g (by simp [hg])

/-- A register that is one RW field of 32 bits takes the word written. -/
theorem regWriteWord_rw {r : Reg} {p : Nat} {y c : Option Nat} (hr : r.fields = [⟨0, 32, .rw, p, y, c⟩]) {old : Nat} (h : old < 2 ^ 32)
    (v : Nat) : regWriteWord r old v = v % 2 ^ 32 := by
  simp [regWriteWord, hr, fieldWrite, setBits_word h, bits]

/-- A register that is one count of 32 bits is cleared by a write of all ones and keeps its number under any other (R489). -/
theorem regWriteWord_cnt {r : Reg} {p : Nat} {y c : Option Nat} (hr : r.fields = [⟨0, 32, .cnt, p, y, c⟩]) {old v : Nat}
    (h : old < 2 ^ 32) (hv : v < 2 ^ 32) : regWriteWord r old v = if v = 2 ^ 32 - 1 then 0 else old := by
  simp only [regWriteWord, hr, List.foldl_cons, List.foldl_nil, fieldWrite, setBits_word h, bits_word h, bits_word hv]
  split
  · rfl
  · exact Nat.mod_eq_of_lt h

/-- The bits of a W1C field at the foot of a register fall by a write of 1 and stay under a write of 0. -/
theorem testBit_regWriteWord_w1c {r : Reg} {w p : Nat} {y c : Option Nat} (hr : r.fields = [⟨0, w, .w1c, p, y, c⟩]) (old v : Nat) {b : Nat}
    (hb : b < w) : (regWriteWord r old v).testBit b = (old.testBit b && !v.testBit b) := by
  simp only [regWriteWord, hr, List.foldl_cons, List.foldl_nil, fieldWrite, setBits_testBit]
  rw [if_pos (by omega), testBit_sub_and, testBit_bits, testBit_bits]
  simp [hb]

/-! ### Registers -/

/-- A register holds 32 bits (R4). -/
theorem State.rd_lt (s : State) (r : Reg) (i j k : Nat) : s.rd r i j k < 2 ^ 32 := BitVec.isLt _

/-- The word of a register after an ordinary write of it. -/
theorem State.rd_regWrite (s : State) (r : Reg) (v i j k : Nat) :
    (s.regWrite r v i j k).rd r i j k = regWriteWord r (s.rd r i j k) v % 2 ^ 32 := State.rd_wr s r _ i j k

theorem onlyRegs_regWrite (s : State) (r : Reg) (v i j k : Nat) : OnlyRegs s (s.regWrite r v i j k) [r.addr i j k] :=
  onlyRegs_wr s r _ i j k

/-- A register given the word it holds is no change of any. -/
theorem onlyRegs_wr_self (s : State) (r : Reg) (i j k : Nat) : OnlyRegs s (s.wr r (s.rd r i j k) i j k) [] := by
  intro a _
  by_cases ha : a = r.addr i j k
  · subst ha
    simp only [State.wr, State.rd, tabGet_tabSet_same, w32, BitVec.ofNat_toNat, BitVec.setWidth_eq,
      BitVec.xor_assoc, BitVec.xor_self, BitVec.xor_zero]
  · simp only [State.wr, tabGet_tabSet_ne _ _ _ ha]

/-! ### Reset (R3) -/

/-- After reset a register holds its POR column. -/
theorem State.rd_reset (r : Reg) (i j k : Nat) : State.reset.rd r i j k = r.por i % 2 ^ 32 := by
  simp [State.rd, State.reset, tabGet, w32]

theorem defaultTarget_lt (n : Nat) : defaultTarget n < 8 := by
  unfold defaultTarget
  repeat' split
  all_goals omega

/-- An event source is reset to its default target and its kind, the fields above bit 3 to 0. -/
theorem por_evhSrcCfg_lt (n : Nat) : R.EVH_SRC_CFG.por n < 16 := by
  have h := defaultTarget_lt n
  simp only [Reg.por, R.EVH_SRC_CFG, List.foldl_cons, List.foldl_nil, Nat.zero_mod, Nat.zero_mul, Nat.or_zero]
  split <;> omega

/-- No event source is Pending after reset. -/
theorem State.get_reset_evhState (n : Nat) : State.reset.get R.EVH_SRC_CFG_STATE n = 0 := by
  have h := por_evhSrcCfg_lt n
  simp only [State.get, State.rd_reset, R.EVH_SRC_CFG_STATE, bits]
  omega

/-- Every engine's STATE is 0 after reset. -/
theorem State.get_reset_engineState (e : Nat) : State.reset.get R.CE_STAT_STATE e = 0 := by
  have h : R.CE_STAT.por e = 0 := by simp [Reg.por, R.CE_STAT]
  simp [State.get, State.rd_reset, R.CE_STAT_STATE, h, bits]

/-- Every engine's working registers are 0 after reset. -/
theorem State.reg_reset_engine (e : Nat) (r : Fin 32) : (State.reset.eng e).reg r = 0 := by
  simp [State.eng, State.reset, tabGet, Eng.reg]

end Sys2Proof.Machine
end

section
/-! PROOFS. What the fabric does with an access, case by case (R4, R22, R23, R306, R405): lemmas about `busWrite` and `busRead` that
statements cite. -/
namespace Sys2Proof.Machine

/-! ### Writes -/

/-- REGISTER_WRITE is a write of the word's bytes to the fabric. -/
theorem exec_registerWrite (r : Requester) (w : Width) (a v : Word) (s : State) :
    exec (.registerWrite r w a v) s = .next (busWrite s r a.toNat (leBytes (widthBytes w) v.toNat)) := rfl

/-- A write that does not reach the device changes nothing (R306). -/
theorem busWrite_of_down {s : State} {r : Requester} {a : Nat} (h : reaches s r a = false) (bs : List Byte) : busWrite s r a bs = s := by
  simp [busWrite, h]

/-- A write that the firewall passes (R405). -/
theorem busWrite_of_passed {s : State} {r : Requester} {a : Nat} {bs : List Byte} (hr : reaches s r a = true)
    (hf : fwSpan s r true a bs.length = true) : busWrite s r a bs = passedWrite { s with bus := {} } r a bs := by
  simp [busWrite, hr, hf]

/-- A write that the firewall refuses (R406). -/
theorem busWrite_of_refused {s : State} {r : Requester} {a : Nat} {bs : List Byte} (hr : reaches s r a = true)
    (hf : fwSpan s r true a bs.length = false) : busWrite s r a bs = fwRefuse s r a := by simp [busWrite, hr, hf]

section
variable {a : Nat} {x : RegRef} (hx : regRef a = some x) (hb : inBlocks a = true) (hs : inSpareFrames a = false) (h4 : a % 4 = 0)
include hx hb hs h4

/-- Four bytes at a register's address are a write of its word, by the rules of its block (R4). -/
theorem passedWrite_word (s : State) (r : Requester) {bs : List Byte} (hn : bs.length = 4) :
    passedWrite s r a bs = blockWrite s r x (leNat bs) := by
  have ha : a / 4 * 4 = a := by omega
  simp [passedWrite, hb, hs, ha, hx, hn, h4]

/-- Another number of bytes writes nothing (R4). -/
theorem passedWrite_other (s : State) (r : Requester) {bs : List Byte} (hn : bs.length ≠ 4) : passedWrite s r a bs = s := by
  have ha : a / 4 * 4 = a := by omega
  simp [passedWrite, hb, hs, ha, hx, hn]

/-- A read of a register's word gives what its block answers (R4). -/
theorem passedRead_word (s : State) (r : Requester) : (passedRead s r a 4).2 = leBytes 4 (blockRead s r x).bus.rdata.toNat := by
  simp [passedRead, hb, hs, hx, h4]

end

/-- A read of another width from a register block gives zeros (R4). -/
theorem passedRead_other {a : Nat} (hb : inBlocks a = true) (s : State) (r : Requester) {n : Nat} (hn : n ≠ 4) :
    (passedRead s r a n).2 = List.replicate n 0 := by simp [passedRead, hb, hn]

theorem busRead_of_passed {s : State} {r : Requester} {a n : Nat} (hr : reaches s r a = true) (hf : fwSpan s r false a n = true) :
    busRead s r a n = passedRead s r a n := by simp [busRead, hr, hf]

/-! ### Writes of a word -/

/-- The bytes of a word give it back. -/
theorem leNat_leBytes_word (v : Word) : leNat (leBytes 4 v.toNat) = v.toNat := by
  rw [leNat_leBytes, Nat.mod_eq_of_lt (by simpa using v.isLt)]

/-- Only the 32-bit width is four bytes. -/
theorem widthBytes_eq_four {w : Width} : widthBytes w = 4 ↔ w = .b32 := by cases w <;> decide

section
variable {s : State} {r : Requester} {a : Word} {x : RegRef} (hx : regRef a.toNat = some x) (hb : inBlocks a.toNat = true)
  (hs : inSpareFrames a.toNat = false) (h4 : a.toNat % 4 = 0) (hr : reaches s r a.toNat = true)
include hx hb hs h4 hr

/-- REGISTER_WRITE of 32 bits to a register. -/
theorem exec_registerWrite_word (hf : fwSpan s r true a.toNat 4 = true) (v : Word) :
    exec (.registerWrite r .b32 a v) s = .next (blockWrite { s with bus := {} } r x v.toNat) := by
  have hlen : (leBytes 4 v.toNat).length = 4 := length_leBytes 4 _
  rw [exec_registerWrite, widthBytes, busWrite_of_passed hr (by rw [hlen]; exact hf), passedWrite_word hx hb hs h4 _ _ hlen,
    leNat_leBytes_word]

/-- REGISTER_WRITE of another width to a register. -/
theorem exec_registerWrite_other {w : Width} (hw : w ≠ .b32) (hf : fwSpan s r true a.toNat (widthBytes w) = true) (v : Word) :
    exec (.registerWrite r w a v) s = .next { s with bus := {} } := by
  have hlen : (leBytes (widthBytes w) v.toNat).length = widthBytes w := length_leBytes _ _
  rw [exec_registerWrite, busWrite_of_passed hr (by rw [hlen]; exact hf),
    passedWrite_other hx hb hs h4 _ _ (by rw [hlen]; exact fun h => hw (widthBytes_eq_four.mp h))]

end

end Sys2Proof.Machine
end

section
/-! PROOFS. A write to the fabric that is refused (R406), that meets a memory (R21, R380), one of Atelier's registers, or an address that
the map does not assign (R23). -/
namespace Sys2Proof.Machine

/-- The bus's answer is no change of a register. -/
theorem OnlyRegs.answer {s t : State} {l : List Nat} (h : OnlyRegs s t l) (v : Nat) : OnlyRegs s (t.answer v) l := h

theorem OnlyRegs.busError {s t : State} {l : List Nat} (h : OnlyRegs s t l) : OnlyRegs s t.busError l := h

/-- A field of a register that is none of those changed keeps its number. -/
theorem OnlyRegs.get {s t : State} {l : List Nat} (h : OnlyRegs s t l) (f : Fld) {i j k : Nat} (hf : f.reg.addr i j k ∉ l) :
    t.get f i j k = s.get f i j k := by
  simp only [State.get, State.rd, h _ hf]

theorem State.on_of_get {s : State} {f : Fld} {i j k : Nat} (h : s.get f i j k = 1) : s.on f i j k = true := by simp [State.on, h]

/-- The end of an access leaves the registers. -/
@[simp] theorem State.get_answer (s : State) (v : Nat) (f : Fld) (i j k : Nat) : (s.answer v).get f i j k = s.get f i j k := rfl
@[simp] theorem State.rd_answer (s : State) (v : Nat) (r : Reg) (i j k : Nat) : (s.answer v).rd r i j k = s.rd r i j k := rfl
@[simp] theorem State.get_busError (s : State) (f : Fld) (i j k : Nat) : s.busError.get f i j k = s.get f i j k := rfl
@[simp] theorem State.rd_busError (s : State) (r : Reg) (i j k : Nat) : s.busError.rd r i j k = s.rd r i j k := rfl

/-! ### Refusals (R303, R406) -/

/-- What every refusal records: that there was one, its class, and its address. -/
def fwRecord (s : State) (r : Requester) (a : Nat) : State :=
  ((s.raise R.SEC_FW_STAT_DENY).put R.SEC_FW_STAT_CLASS ((fwClass r).getD 0)).put R.SEC_FW_ADDR_V a

theorem fwRefuse_host (s : State) (a : Nat) : fwRefuse s .host a = ((fwRecord s .host a).raise R.HIF_ERR_FW_DENY).answer 0 := rfl

/-- A requester that is neither the host nor a core of this device gets a bus error. -/
theorem fwRefuse_busError {r : Requester} (h : isAtl r = false ∨ ∃ d, r = .remAtl d) (hh : r ≠ .host) (s : State) (a : Nat) :
    fwRefuse s r a = (fwRecord s r a).busError := by
  cases r with
  | atl c => simp [isAtl] at h
  | host => exact absurd rfl hh
  | arm | pat | dma | remAtl _ | remHost _ | debug => rfl

theorem fwClass_lt (r : Requester) : (fwClass r).getD 0 < 4 := by cases r <;> simp [fwClass]

theorem fwRecord_deny (s : State) (r : Requester) (a : Nat) : (fwRecord s r a).get R.SEC_FW_STAT_DENY = 1 := by
  rw [fwRecord, State.get_put_ne _ _ _ _ _ _ _ _ _ _ (by decide),
    State.get_put_beside _ R.SEC_FW_STAT_CLASS R.SEC_FW_STAT_DENY _ _ _ _ rfl (by decide) (by decide), State.raise,
    State.get_put _ _ _ _ _ _ (by decide)]
  rfl

theorem fwRecord_class (s : State) (r : Requester) (a : Nat) : (fwRecord s r a).get R.SEC_FW_STAT_CLASS = (fwClass r).getD 0 := by
  rw [fwRecord, State.get_put_ne _ _ _ _ _ _ _ _ _ _ (by decide), State.get_put _ _ _ _ _ _ (by decide)]
  exact Nat.mod_eq_of_lt (fwClass_lt r)

theorem fwRecord_addr (s : State) (r : Requester) {a : Nat} (ha : a < 2 ^ 32) : (fwRecord s r a).rd R.SEC_FW_ADDR = a := by
  rw [fwRecord, State.put]
  refine (State.rd_wr _ R.SEC_FW_ADDR _ 0 0 0).trans ?_
  rw [R.SEC_FW_ADDR_V, setBits_word (State.rd_lt _ _ _ _ _), Nat.mod_mod, Nat.mod_eq_of_lt ha]

theorem fwRecord_onlyRegs (s : State) (r : Requester) (a : Nat) :
    OnlyRegs s (fwRecord s r a) [R.SEC_FW_STAT.addr 0 0 0, R.SEC_FW_ADDR.addr 0 0 0] :=
  (((onlyRegs_put s R.SEC_FW_STAT_DENY 1 0 0 0).trans (onlyRegs_put _ R.SEC_FW_STAT_CLASS _ 0 0 0)).trans
    (onlyRegs_put _ R.SEC_FW_ADDR_V a 0 0 0)).mono (by simp [R.SEC_FW_STAT_DENY, R.SEC_FW_STAT_CLASS, R.SEC_FW_ADDR_V])

/-- Two changes of registers alone are one. -/
theorem eq_regs_trans {s t u : State} (h : t = { s with regs := t.regs }) (g : u = { t with regs := u.regs }) :
    u = { s with regs := u.regs } := g.trans (congrArg (fun x : State => { x with regs := u.regs }) h)

theorem State.put_eq_regs (s : State) (f : Fld) (v i j k : Nat) : s.put f v i j k = { s with regs := (s.put f v i j k).regs } := rfl

/-- The bus's answer after a change of registers. -/
theorem answer_eq_regs {s t : State} (h : t = { s with regs := t.regs }) (v : Nat) :
    t.answer v = { s with regs := (t.answer v).regs, bus := (t.answer v).bus } := congrArg (fun u : State => u.answer v) h

theorem busError_eq_regs {s t : State} (h : t = { s with regs := t.regs }) :
    t.busError = { s with regs := t.busError.regs, bus := t.busError.bus } := congrArg State.busError h

theorem fwRecord_eq_regs (s : State) (r : Requester) (a : Nat) : fwRecord s r a = { s with regs := (fwRecord s r a).regs } :=
  eq_regs_trans (eq_regs_trans (s.put_eq_regs R.SEC_FW_STAT_DENY _ _ _ _) (State.put_eq_regs _ R.SEC_FW_STAT_CLASS _ _ _ _))
    (State.put_eq_regs _ R.SEC_FW_ADDR_V _ _ _ _)

/-! ### Memories (R21, R380) -/

theorem bankOn_mem (s : State) (b : Nat) : (bankOn s b).mem = s.mem := by
  unfold bankOn
  split <;> rfl

theorem bankTouch_mem (s : State) (b : Nat) : (bankTouch s b).mem = s.mem := by
  unfold bankTouch
  split <;> rfl

/-- A bank whose power is asked for, with its transition waited for (R380). -/
def bankWaited (s : State) (b : Nat) : State := if s.get R.MEM_BK_PWR_STATE b = 0 then bankOn s b else s

theorem bankWaited_mem (s : State) (b : Nat) : (bankWaited s b).mem = s.mem := by
  unfold bankWaited
  split
  · exact bankOn_mem s b
  · rfl

/-- The image window always stands open. -/
theorem memOpen_image {a : Nat} (h : inImages a = true) (s : State) : memOpen s a = some s := by simp [memOpen, h]

/-- Where there is neither a bank nor the image window there is no memory. -/
theorem memOpen_unbanked {a : Nat} (hi : inImages a = false) (hk : slotOf a = none) (s : State) : memOpen s a = none := by
  simp [memOpen, hi, hk]

/-- A bank opens unless it is OFF. -/
theorem memOpen_banked {a k : Nat} (hi : inImages a = false) (hk : slotOf a = some k) (s : State) :
    memOpen s a = if (bankWaited s (s.get R.MEM_MAP_PHYS k)).get R.MEM_BK_STAT_STATE (s.get R.MEM_MAP_PHYS k) = 2 then none
      else some (bankTouch (bankWaited s (s.get R.MEM_MAP_PHYS k)) (s.get R.MEM_MAP_PHYS k)) := by
  simp only [memOpen, hi, hk, Bool.false_eq_true, if_false]
  rfl

/-- Opening a memory brings banks ON; its bytes stay. -/
theorem memOpen_mem {s t : State} {a : Nat} (h : memOpen s a = some t) : t.mem = s.mem := by
  cases hi : inImages a with
  | true =>
    rw [memOpen_image hi] at h
    rw [Option.some.inj h]
  | false =>
    cases hk : slotOf a with
    | none => simp [memOpen_unbanked hi hk] at h
    | some k =>
      rw [memOpen_banked hi hk] at h
      split at h
      · simp at h
      · rw [← Option.some.inj h, bankTouch_mem, bankWaited_mem]

theorem memSpan_mem {s u : State} {a n : Nat} (h : memSpan s a n = some u) : u.mem = s.mem := by
  obtain ⟨t, ht, hu⟩ := Option.bind_eq_some_iff.mp h
  rw [memOpen_mem hu, memOpen_mem ht]

/-- Where an access finds no memory at its first byte it finds none. -/
theorem memSpan_of_closed {s : State} {a : Nat} (h : memOpen s a = none) (n : Nat) : memSpan s a n = none := by simp [memSpan, h]

/-- A write to memory that stands open stores its bytes. -/
theorem passedWrite_memory {s u : State} {a : Nat} (hb : inBlocks a = false) (hi : inImages a = false) (r : Requester) {bs : List Byte}
    (h : memSpan s a bs.length = some u) : passedWrite s r a bs = u.setBytes .fabric a bs := by
  simp [passedWrite, hb, fabWrite, hi, h]

/-- A number's bytes, least significant first. -/
theorem getD_leBytes {n i : Nat} (h : i < n) (v : Nat) : (leBytes n v).getD i 0 = BitVec.ofNat 8 (v / 256 ^ i) := by
  induction n generalizing v i with
  | zero => omega
  | succ n ih =>
    cases i with
    | zero => simp [leBytes]
    | succ i => rw [leBytes, List.getD_cons_succ, ih (by omega), Nat.div_div_eq_div_mul, ← Nat.pow_succ']

/-! ### Atelier's writes of host registers (spec/12) -/

/-- A write that Atelier makes of a word whose register takes it field by field. -/
theorem exec_registerWrite_plain {s : State} {c : Fin 5} {a : Word} {n : Nat} {x : RegRef} (ha : a.toNat = n) (hx : regRef n = some x)
    (hb : inBlocks n = true) (hs : inSpareFrames n = false) (h4 : n % 4 = 0)
    (hf : fwSpan s (.atl c) true n 4 = true) (hp : ∀ (u : State) (v : Nat), blockWrite u (.atl c) x v = plainWrite u x v) (v : Word) :
    exec (.registerWrite (.atl c) .b32 a v) s = .next ({ s with bus := {} }.regWrite x.reg v.toNat x.i x.j x.k) := by
  subst ha
  rw [exec_registerWrite_word hx hb hs h4 rfl hf, hp, plainWrite]

/-- Where the map has them. -/
theorem regRef_hdbMask : regRef 0x40020208 = some ⟨R.HDB_MASK, 0, 0, 0⟩ := rfl
theorem regRef_hifErr : regRef 0x40160004 = some ⟨R.HIF_ERR, 0, 0, 0⟩ := rfl
theorem regRef_hifStat : regRef 0x40160000 = some ⟨R.HIF_STAT, 0, 0, 0⟩ := rfl
theorem regRef_hifChcMiss : regRef 0x40160118 = some ⟨R.HIF_CHC_MISS, 0, 0, 0⟩ := rfl

/-! ### Address errors (R23, R364, R371) -/

/-- The targets' registers lie past the sources'. -/
theorem evhSrcCfg_addr_not_mem {n : Nat} (hn : n < 512) (t : Nat) : R.EVH_SRC_CFG_STATE.reg.addr n 0 0 ∉ [R.EVH_T_STAT.addr t 0 0] := by
  simp only [List.mem_singleton, Reg.addr, R.EVH_SRC_CFG_STATE, R.EVH_SRC_CFG, R.EVH_T_STAT, regOffset]
  omega

/-- What the hub changes when it sends no message: registers and its own bits. -/
theorem HubFrame.eq_of_mem {s t : State} (h : HubFrame s t) (hm : t.mem = s.mem) : t = { s with regs := t.regs, evh := t.evh } := by
  obtain ⟨r, m, p, l, rfl⟩ := h
  obtain rfl : m = s.mem := hm
  rfl

/-- The bus's answer after such a change. -/
theorem answer_eq_hub {s t : State} (h : t = { s with regs := t.regs, evh := t.evh }) (v : Nat) :
    t.answer v = { s with regs := (t.answer v).regs, bus := (t.answer v).bus, evh := (t.answer v).evh } :=
  congrArg (fun u : State => u.answer v) h

/-- A delivery to a target other than the host sends no message, and of the registers can change the target's SLEEP alone. -/
theorem deliver_of_ne (s : State) (n : Nat) {t : Nat} (h : t ≠ 6) :
    (deliver s n t).mem = s.mem ∧ OnlyRegs s (deliver s n t) [R.EVH_T_STAT.addr t 0 0] := by
  unfold deliver
  split
  · rw [present_of_ne s n t h]
    exact ⟨rfl, OnlyRegs.of_regs rfl _⟩
  · split
    · rw [present_of_ne _ n t h]
      exact ⟨rfl, onlyRegs_put s R.EVH_T_STAT_SLEEP 0 t 0 0⟩
    · split <;> exact ⟨rfl, OnlyRegs.of_regs rfl _⟩

/-- A source whose register shows it Pending, before its bit goes anywhere (R364, R371). -/
def asPending (s : State) (n : Nat) : State := (s.put R.EVH_SRC_CFG_STATE 1 n).clr R.EVH_SRC_CFG_FB n

theorem enterPending_eq (s : State) (n : Nat) : enterPending s n = if evMasked (asPending s n) n then asPending s n
    else deliver (asPending s n) n ((asPending s n).get R.EVH_SRC_CFG_TARGET n) := rfl

theorem asPending_onlyRegs (s : State) (n : Nat) : OnlyRegs s (asPending s n) [R.EVH_SRC_CFG.addr n 0 0] :=
  ((onlyRegs_put s R.EVH_SRC_CFG_STATE 1 n 0 0).trans (onlyRegs_put _ R.EVH_SRC_CFG_FB 0 n 0 0)).mono
    (by simp [R.EVH_SRC_CFG_STATE, R.EVH_SRC_CFG_FB])

theorem asPending_state (s : State) (n : Nat) : (asPending s n).get R.EVH_SRC_CFG_STATE n = 1 := by
  rw [asPending, State.clr, State.get_put_beside _ R.EVH_SRC_CFG_FB R.EVH_SRC_CFG_STATE _ _ _ _ rfl (by decide) (by decide),
    State.get_put _ _ _ _ _ _ (by decide)]
  rfl

theorem asPending_target (s : State) (n : Nat) : (asPending s n).get R.EVH_SRC_CFG_TARGET n = s.get R.EVH_SRC_CFG_TARGET n := by
  rw [asPending, State.clr, State.get_put_beside _ R.EVH_SRC_CFG_FB R.EVH_SRC_CFG_TARGET _ _ _ _ rfl (by decide) (by decide),
    State.get_put_beside _ R.EVH_SRC_CFG_STATE R.EVH_SRC_CFG_TARGET _ _ _ _ rfl (by decide) (by decide)]

theorem asPending_mem (s : State) (n : Nat) : (asPending s n).mem = s.mem := by rw [asPending, State.clr, State.put_mem, State.put_mem]

/-- A source that enters Pending, its target not the host: it shows Pending, no message is sent, and the registers that change are
its own and its target's SLEEP. -/
theorem enterPending_of_ne (s : State) {n : Nat} (hn : n < 512) (h : s.get R.EVH_SRC_CFG_TARGET n ≠ 6) :
    (enterPending s n).get R.EVH_SRC_CFG_STATE n = 1 ∧ (enterPending s n).mem = s.mem
      ∧ OnlyRegs s (enterPending s n) [R.EVH_SRC_CFG.addr n 0 0, R.EVH_T_STAT.addr (s.get R.EVH_SRC_CFG_TARGET n) 0 0] := by
  rw [enterPending_eq, asPending_target]
  split
  · exact ⟨asPending_state s n, asPending_mem s n, (asPending_onlyRegs s n).mono (by simp)⟩
  · obtain ⟨hm, hd⟩ := deliver_of_ne (asPending s n) n h
    refine ⟨?_, hm.trans (asPending_mem s n), (asPending_onlyRegs s n).trans hd⟩
    rw [hd.get R.EVH_SRC_CFG_STATE (evhSrcCfg_addr_not_mem hn _), asPending_state]

/-- An event of a source of the map that is Idle makes it Pending. -/
theorem evhEvent_of_idle {s : State} {n : Nat} (hn : sourceExists n = true) (h : s.get R.EVH_SRC_CFG_STATE n = 0) :
    evhEvent s n = enterPending s n := by simp [evhEvent, hn, h]

/-- Every core has its own address-error source. -/
theorem sourceExists_addrErr (c : Fin 5) : sourceExists (308 + c) = true := by revert c; decide

/-- An address error of a core whose source is Idle makes that source Pending. -/
theorem addrErr_of_idle {s : State} {c : Fin 5} (h : s.get R.EVH_SRC_CFG_STATE (308 + c) = 0) :
    addrErr s (.atl c) = enterPending s (308 + c) := evhEvent_of_idle (sourceExists_addrErr c) h

/-! ### Addresses that are not assigned (R23) -/

theorem bankOn_bus (s : State) (x : BusSt) (b : Nat) : bankOn { s with bus := x } b = { bankOn s b with bus := x } := by
  have h : ({ s with bus := x } : State).on R.MEM_BK_STAT_TRANS b = s.on R.MEM_BK_STAT_TRANS b := rfl
  unfold bankOn
  rw [h]
  split <;> rfl

theorem bankTouch_bus (s : State) (x : BusSt) (b : Nat) : bankTouch { s with bus := x } b = { bankTouch s b with bus := x } := by
  have h : ({ s with bus := x } : State).get R.MEM_BK_STAT_STATE b = s.get R.MEM_BK_STAT_STATE b := rfl
  unfold bankTouch
  rw [h]
  split <;> rfl

theorem bankWaited_bus (s : State) (x : BusSt) (b : Nat) : bankWaited { s with bus := x } b = { bankWaited s b with bus := x } := by
  have h : ({ s with bus := x } : State).get R.MEM_BK_PWR_STATE b = s.get R.MEM_BK_PWR_STATE b := rfl
  unfold bankWaited
  rw [h, bankOn_bus]
  split <;> rfl

/-- What a memory does when it opens does not hang on the bus's last answer. -/
theorem memOpen_bus (s : State) (x : BusSt) (a : Nat) :
    memOpen { s with bus := x } a = (memOpen s a).map fun t => { t with bus := x } := by
  cases hi : inImages a with
  | true => rw [memOpen_image hi, memOpen_image hi, Option.map_some]
  | false =>
    cases hk : slotOf a with
    | none => rw [memOpen_unbanked hi hk, memOpen_unbanked hi hk, Option.map_none]
    | some k =>
      have hb : ({ s with bus := x } : State).get R.MEM_MAP_PHYS k = s.get R.MEM_MAP_PHYS k := rfl
      rw [memOpen_banked hi hk, memOpen_banked hi hk, hb, bankWaited_bus, bankTouch_bus]
      exact (apply_ite (Option.map fun t : State => { t with bus := x })
        ((bankWaited s (s.get R.MEM_MAP_PHYS k)).get R.MEM_BK_STAT_STATE (s.get R.MEM_MAP_PHYS k) = 2) none (some _)).symm

theorem assigned_bus (s : State) (x : BusSt) (a : Nat) : assigned { s with bus := x } a = assigned s a := by
  simp only [assigned, memOpen_bus, Option.isSome_map]

/-- An address outside the blocks that is not assigned has no memory open. -/
theorem memOpen_of_unassigned {s : State} {a : Nat} (hb : inBlocks a = false) (h : assigned s a = false) : memOpen s a = none := by
  simpa [assigned, hb] using h

/-- An address in the blocks that is not assigned is no spare frame and no register. -/
theorem regRef_of_unassigned {s : State} {a : Nat} (hb : inBlocks a = true) (h : assigned s a = false) :
    inSpareFrames a = false ∧ regRef (a / 4 * 4) = none := by
  simpa [assigned, hb] using h

theorem passedWrite_of_unassigned {s : State} {a : Nat} (h : assigned s a = false) (r : Requester) (bs : List Byte) :
    passedWrite s r a bs = addrErr s r := by
  cases hb : inBlocks a with
  | true =>
    obtain ⟨hs, hx⟩ := regRef_of_unassigned hb h
    simp [passedWrite, hb, hs, hx]
  | false => simp [passedWrite, hb, fabWrite, memSpan_of_closed (memOpen_of_unassigned hb h)]

theorem passedRead_of_unassigned {s : State} {a : Nat} (h : assigned s a = false) (r : Requester) (n : Nat) :
    (passedRead s r a n).1 = (addrErr s r).answer 0 := by
  cases hb : inBlocks a with
  | true =>
    obtain ⟨hs, hx⟩ := regRef_of_unassigned hb h
    by_cases hw : n = 4 ∧ a % 4 = 0
    · rw [show a / 4 * 4 = a by omega] at hx
      simp [passedRead, hb, hs, hx, hw.1, hw.2]
    · have hn : (n != 4 || a % 4 != 0) = true := by simpa [Decidable.or_iff_not_imp_left] using hw
      simp only [passedRead, hb, hn, if_true, h, Bool.false_eq_true, if_false]
  | false => simp [passedRead, hb, memSpan_of_closed (memOpen_of_unassigned hb h)]

theorem exec_addressError (r : Requester) (wr : Bool) (a : Word) (s : State) :
    exec (.addressError r wr a) s = .next (if assigned s a.toNat then s
      else if wr then busWrite s r a.toNat (leBytes 4 0) else (busRead s r a.toNat 4).1) := rfl

/-- ADDRESS_ERROR by a core: its write and its read both raise the source. -/
theorem exec_addressError_write {s : State} {c : Fin 5} {a : Word} (hf : fwSpan s (.atl c) true a.toNat 4 = true)
    (h : assigned s a.toNat = false) : exec (.addressError (.atl c) true a) s = .next (addrErr { s with bus := {} } (.atl c)) := by
  rw [exec_addressError, h, if_neg Bool.false_ne_true, if_pos rfl, busWrite_of_passed rfl hf,
    passedWrite_of_unassigned ((assigned_bus s {} a.toNat).trans h)]

theorem exec_addressError_read {s : State} {c : Fin 5} {a : Word} (hf : fwSpan s (.atl c) false a.toNat 4 = true)
    (h : assigned s a.toNat = false) : exec (.addressError (.atl c) false a) s = .next ((addrErr s (.atl c)).answer 0) := by
  rw [exec_addressError, h, if_neg Bool.false_ne_true, if_neg Bool.false_ne_true, busRead_of_passed rfl hf,
    passedRead_of_unassigned h]

/-! ### The clauses of FabricWrites -/

/-- A write that the firewall refuses, by any requester but a core of this device (R303, R406). -/
theorem exec_registerWrite_refused (w : Width) (a v : Word) (r : Requester) (s : State) (hr : reaches s r a.toNat = true)
    (hf : fwSpan s r true a.toNat (widthBytes w) = false) (hq : isAtl r = false ∨ ∃ d, r = .remAtl d) :
    ∃ t, exec (.registerWrite r w a v) s = .next t ∧ t.on R.SEC_FW_STAT_DENY = true
      ∧ t.get R.SEC_FW_STAT_CLASS = (fwClass r).getD 0 ∧ t.rd R.SEC_FW_ADDR = a.toNat
      ∧ (r = .host → t.on R.HIF_ERR_FW_DENY = true ∧ t.bus = {}) ∧ (r ≠ .host → t.bus.err = true)
      ∧ t = { s with regs := t.regs, bus := t.bus }
      ∧ OnlyRegs s t [R.SEC_FW_STAT.addr 0 0 0, R.SEC_FW_ADDR.addr 0 0 0, R.HIF_ERR.addr 0 0 0] := by
  have hdeny := fwRecord_deny s r a.toNat
  have hclass := fwRecord_class s r a.toNat
  have haddr := fwRecord_addr s r a.isLt
  have honly := fwRecord_onlyRegs s r a.toNat
  have hregs := fwRecord_eq_regs s r a.toNat
  rw [exec_registerWrite, busWrite_of_refused hr (by rw [length_leBytes]; exact hf)]
  by_cases hh : r = .host
  · subst hh
    have hput := onlyRegs_put (fwRecord s .host a.toNat) R.HIF_ERR_FW_DENY 1 0 0 0
    rw [fwRefuse_host, State.raise]
    refine ⟨_, rfl, State.on_of_get ?_, ?_, ?_, fun _ => ⟨State.on_of_get ?_, rfl⟩, fun h => absurd rfl h, ?_, ?_⟩
    · rw [State.get_answer, hput.get R.SEC_FW_STAT_DENY (by decide), hdeny]
    · rw [State.get_answer, hput.get R.SEC_FW_STAT_CLASS (by decide), hclass]
    · rw [State.rd_answer, State.rd_put_ne _ _ _ _ _ _ _ _ _ _ (by decide), haddr]
    · rw [State.get_answer, State.get_put _ _ _ _ _ _ (by decide)]
      rfl
    · exact answer_eq_regs (eq_regs_trans hregs (State.put_eq_regs _ R.HIF_ERR_FW_DENY 1 0 0 0)) 0
    · exact ((honly.trans hput).mono (by simp [R.HIF_ERR_FW_DENY])).answer 0
  · rw [fwRefuse_busError hq hh]
    refine ⟨_, rfl, State.on_of_get ?_, ?_, ?_, fun h => absurd h hh, fun _ => rfl, busError_eq_regs hregs, (honly.mono (by simp)).busError⟩
    · rw [State.get_busError, hdeny]
    · rw [State.get_busError, hclass]
    · rw [State.rd_busError, haddr]

/-- A write to a memory that stands open stores its bytes and no others (R21). -/
theorem exec_registerWrite_memory (r : Requester) (w : Width) (a v : Word) (s u : State) (hr : reaches s r a.toNat = true)
    (hf : fwSpan s r true a.toNat (widthBytes w) = true) (hb : inBlocks a.toNat = false) (hi : inImages a.toNat = false)
    (hm : memSpan { s with bus := {} } a.toNat (widthBytes w) = some u) :
    ∃ t, exec (.registerWrite r w a v) s = .next t ∧ t = { u with mem := t.mem }
      ∧ (∀ i : Nat, i < widthBytes w → t.mrd .fabric (a.toNat + i) = BitVec.ofNat 8 (v.toNat / 256 ^ i))
      ∧ ∀ k : Nat, k < a.toNat ∨ a.toNat + widthBytes w ≤ k → tabGet 0 t.mem k = tabGet 0 s.mem k := by
  have hlen : (leBytes (widthBytes w) v.toNat).length = widthBytes w := length_leBytes _ _
  rw [exec_registerWrite, busWrite_of_passed hr (by rw [hlen]; exact hf), passedWrite_memory hb hi r (by rw [hlen]; exact hm)]
  refine ⟨_, rfl, State.setBytes_eq _ _ _ _, fun i hlt => ?_, fun k hk => ?_⟩
  · rw [State.mrd_setBytes, hlen, if_pos (by omega), Nat.add_sub_cancel_left, getD_leBytes hlt]
  · have h := State.onlyBytes_setBytes u .fabric a.toNat (leBytes (widthBytes w) v.toNat) k (by simpa [Space.base, hlen] using hk)
    rw [h, memSpan_mem hm]

/-- Atelier's write of HDB_MASK, all RW. -/
theorem exec_registerWrite_hdbMask (c : Fin 5) (v : Word) (s : State) (hf : fwSpan s (.atl c) true 0x40020208 4 = true) :
    ∃ t, exec (.registerWrite (.atl c) .b32 0x40020208 v) s = .next t ∧ t.rd R.HDB_MASK = v.toNat
      ∧ t = { s with bus := {}, regs := t.regs } ∧ OnlyRegs s t [0x40020208] := by
  refine ⟨_, exec_registerWrite_plain (n := 0x40020208) (x := ⟨R.HDB_MASK, 0, 0, 0⟩) rfl regRef_hdbMask (by decide) (by decide)
    (by decide) hf (fun _ _ => rfl) v, ?_, rfl,
    onlyRegs_regWrite { s with bus := {} } R.HDB_MASK _ 0 0 0⟩
  rw [State.rd_regWrite, regWriteWord_rw rfl (State.rd_lt _ _ _ _ _), Nat.mod_mod]
  exact Nat.mod_eq_of_lt v.isLt

/-- Atelier's write of HIF_ERR, all W1C. -/
theorem exec_registerWrite_hifErr (c : Fin 5) (v : Word) (s : State) (hf : fwSpan s (.atl c) true 0x40160004 4 = true) :
    ∃ t, exec (.registerWrite (.atl c) .b32 0x40160004 v) s = .next t
      ∧ (∀ b : Nat, b < 5 → (t.rd R.HIF_ERR).testBit b = ((s.rd R.HIF_ERR).testBit b && !v.getLsbD b))
      ∧ t = { s with bus := {}, regs := t.regs } ∧ OnlyRegs s t [0x40160004] := by
  refine ⟨_, exec_registerWrite_plain (n := 0x40160004) (x := ⟨R.HIF_ERR, 0, 0, 0⟩) rfl regRef_hifErr (by decide) (by decide)
    (by decide) hf (fun _ _ => rfl) v, fun b hb => ?_, rfl, onlyRegs_regWrite { s with bus := {} } R.HIF_ERR _ 0 0 0⟩
  rw [State.rd_regWrite, Nat.testBit_mod_two_pow, testBit_regWriteWord_w1c rfl _ _ hb]
  simp [show b < 32 by omega, BitVec.getLsbD, State.rd]

/-- Atelier's write of HIF_STAT, all RO. -/
theorem exec_registerWrite_hifStat (c : Fin 5) (v : Word) (s : State) (hf : fwSpan s (.atl c) true 0x40160000 4 = true) :
    ∃ t, exec (.registerWrite (.atl c) .b32 0x40160000 v) s = .next t ∧ t.rd R.HIF_STAT = s.rd R.HIF_STAT
      ∧ t = { s with bus := {}, regs := t.regs } ∧ OnlyRegs s t [] := by
  have hro : ∀ old, regWriteWord R.HIF_STAT old v.toNat = old := fun old => regWriteWord_ro _ _ _ (by decide)
  refine ⟨_, exec_registerWrite_plain (n := 0x40160000) (x := ⟨R.HIF_STAT, 0, 0, 0⟩) rfl regRef_hifStat (by decide) (by decide)
    (by decide) hf (fun _ _ => rfl) v, ?_, rfl, ?_⟩
  · rw [State.rd_regWrite, hro]
    exact Nat.mod_eq_of_lt (State.rd_lt _ _ _ _ _)
  · rw [State.regWrite, hro]
    exact onlyRegs_wr_self { s with bus := {} } R.HIF_STAT 0 0 0

/-- Atelier's write of HIF_CHC_MISS, a count. -/
theorem exec_registerWrite_hifChcMiss (c : Fin 5) (v : Word) (s : State) (hf : fwSpan s (.atl c) true 0x40160118 4 = true) :
    ∃ t, exec (.registerWrite (.atl c) .b32 0x40160118 v) s = .next t
      ∧ t.rd R.HIF_CHC_MISS = (if v.toNat = 2 ^ 32 - 1 then 0 else s.rd R.HIF_CHC_MISS)
      ∧ t = { s with bus := {}, regs := t.regs } ∧ OnlyRegs s t [0x40160118] := by
  refine ⟨_, exec_registerWrite_plain (n := 0x40160118) (x := ⟨R.HIF_CHC_MISS, 0, 0, 0⟩) rfl regRef_hifChcMiss (by decide) (by decide)
    (by decide) hf (fun _ _ => rfl) v, ?_, rfl,
    onlyRegs_regWrite { s with bus := {} } R.HIF_CHC_MISS _ 0 0 0⟩
  rw [State.rd_regWrite, regWriteWord_cnt rfl (State.rd_lt _ _ _ _ _) v.isLt]
  split
  · rfl
  · exact Nat.mod_eq_of_lt (State.rd_lt s _ _ _ _)

/-- An access by a core to an address that is not assigned (R23). -/
theorem exec_addressError_unassigned (c : Fin 5) (wr : Bool) (a : Word) (s : State) (hf : fwSpan s (.atl c) wr a.toNat 4 = true)
    (ha : assigned s a.toNat = false) (hst : s.get R.EVH_SRC_CFG_STATE (308 + c) = 0) (htg : s.get R.EVH_SRC_CFG_TARGET (308 + c) ≠ 6) :
    ∃ t, exec (.addressError (.atl c) wr a) s = .next t ∧ t.get R.EVH_SRC_CFG_STATE (308 + c) = 1 ∧ t.bus = {}
      ∧ t = { s with regs := t.regs, bus := {}, evh := t.evh }
      ∧ OnlyRegs s t [R.EVH_SRC_CFG.addr (308 + c) 0 0, R.EVH_T_STAT.addr (s.get R.EVH_SRC_CFG_TARGET (308 + c)) 0 0] := by
  have hn : 308 + (c : Nat) < 512 := by omega
  cases wr with
  | true =>
    have hget : ({ s with bus := {} } : State).get R.EVH_SRC_CFG_TARGET (308 + c) = s.get R.EVH_SRC_CFG_TARGET (308 + c) := rfl
    obtain ⟨hone, hmem, honly⟩ := enterPending_of_ne { s with bus := {} } hn (hget ▸ htg)
    rw [hget] at honly
    have hfr := (enterPending_frame { s with bus := {} } (308 + c)).eq_of_mem hmem
    rw [exec_addressError_write hf ha, addrErr_of_idle (s := { s with bus := {} }) hst]
    exact ⟨_, rfl, hone, congrArg State.bus hfr, hfr, honly⟩
  | false =>
    obtain ⟨hone, hmem, honly⟩ := enterPending_of_ne s hn htg
    have hfr := (enterPending_frame s (308 + c)).eq_of_mem hmem
    rw [exec_addressError_read hf ha, addrErr_of_idle hst]
    exact ⟨_, rfl, (State.get_answer _ _ _ _ _ _).trans hone, rfl, answer_eq_hub hfr 0, honly.answer 0⟩

end Sys2Proof.Machine
end

section
/-! PROOFS. The statements about the device's scope (spec/00): each is put together from the lemmas above. -/
namespace Sys2Proof.Machine

/-- Settles O3: every register reads its POR column off an empty table, and nothing is listed. -/
theorem resetState : Obligations.ResetState :=
  ⟨State.rd_reset, rfl, rfl, rfl, rfl, rfl, fun _ => rfl, fun n => State.get_reset_evhState n,
    fun e => ⟨State.get_reset_engineState e, State.reg_reset_engine e⟩, State.canonical_reset⟩

/-- Settles O5: an access that the firewall passes comes to the register of its address, and there its width decides. -/
theorem registerWidth : Obligations.RegisterWidth := by
  refine ⟨State.rd_lt, fun r a x s hx hb hs h4 =>
    ⟨fun hr => ⟨fun v hf => ?_, fun w v hw hf => ?_⟩, fun hr => ⟨fun hf => ?_, fun n hn hf => ?_⟩⟩⟩
  · exact exec_registerWrite_word hx hb hs h4 hr hf v
  · exact exec_registerWrite_other hx hb hs h4 hr hw hf v
  · rw [busRead_of_passed hr hf, passedRead_word hx hb hs h4]
  · rw [busRead_of_passed hr hf, passedRead_other hb s r hn]

/-- Settles O6: a write that does not reach the device, is refused, meets a memory or one of four registers, or names no address of
the map: one lemma for each. -/
theorem fabricWrites : Obligations.FabricWrites := by
  refine ⟨fun r w a v s h => ?_, exec_registerWrite_refused, exec_registerWrite_memory, fun c v s hf => ⟨?_, ?_, ?_, ?_⟩,
    exec_addressError_unassigned⟩
  · rw [exec_registerWrite, busWrite_of_down h]
  · exact exec_registerWrite_hdbMask c v s (hf _ (by simp))
  · exact exec_registerWrite_hifErr c v s (hf _ (by simp))
  · exact exec_registerWrite_hifStat c v s (hf _ (by simp))
  · exact exec_registerWrite_hifChcMiss c v s (hf _ (by simp))

end Sys2Proof.Machine
end

section
/-! PROOFS. PACK_STOP's end (R140, R315), where the record of a stopping pack names a pin beyond the device's 64: that pin's OWN field
lies in HIF_STAT, and clearing it shows Atelier as restarting. -/
namespace Sys2Proof.Machine

/-! ### What the end of a job does while Atelier restarts (R315, R344) -/

/-- While Atelier restarts the end of a job is noted, and no register changes. -/
theorem ackOrNote_of_restart {s : State} (h : s.on R.HIF_STAT_ATL_RESTART = true) (n status value : Nat) :
    ackOrNote s n status value = s.setJob n (.done status value) := if_pos h

/-- The same of every command that waits for the job. -/
theorem ackJobs_regs_of_restart {s : State} (h : s.on R.HIF_STAT_ATL_RESTART = true) (j : Job) (status value : Nat) :
    (ackJobs s j status value).regs = s.regs := by
  suffices hl : ∀ (l : List Nat) (t : State), t.on R.HIF_STAT_ATL_RESTART = true →
      (l.foldl (fun t n => ackOrNote t n status value) t).regs = t.regs from hl (jobBoxes s j) s h
  intro l
  induction l with
  | nil => exact fun _ _ => rfl
  | cons n l ih =>
    intro t ht
    rw [List.foldl_cons, ackOrNote_of_restart ht]
    exact ih (t.setJob n (.done status value)) ht

/-! ### The counterexample -/

/-- The pin whose GPIO_PIN register would stand at HIF_STAT's address; the device's pins are those below 64. -/
def strayPin : Nat := 195584

theorem strayPin_addr : R.GPIO_PIN.addr strayPin 0 0 = R.HIF_STAT.addr 0 0 0 := by decide

/-- A word written there is read from HIF_STAT, with the bits turned by which the two reset values differ. -/
theorem rd_hifStat_of_strayPin (s : State) (v : Nat) :
    (s.wr R.GPIO_PIN v strayPin).rd R.HIF_STAT = (w32 v ^^^ (0x104 : Word)).toNat := by
  have hpor : w32 (R.GPIO_PIN.por strayPin) ^^^ w32 (R.HIF_STAT.por 0) = 0x104 := by decide
  rw [State.rd, State.wr, ← strayPin_addr, tabGet_tabSet_same, BitVec.xor_assoc, hpor]

/-- The release of that pin clears a bit whose reset value in HIF_STAT is 1: ATL_RESTART reads 1. -/
theorem restart_of_strayPin_given (s : State) : (s.put R.GPIO_PIN_OWN 0 strayPin).on R.HIF_STAT_ATL_RESTART = true := by
  have hclear : (setBits (s.rd R.GPIO_PIN strayPin) 4 5 0).testBit 8 = false := by simp [setBits_testBit]
  have hbit : ((s.put R.GPIO_PIN_OWN 0 strayPin).rd R.HIF_STAT).testBit 8 = true := by
    rw [State.put, R.GPIO_PIN_OWN, rd_hifStat_of_strayPin, BitVec.toNat_xor, Nat.testBit_xor, w32, BitVec.toNat_ofNat,
      Nat.testBit_mod_two_pow, hclear]
    decide
  exact State.on_of_get ((Nat.toNat_testBit _ 8).symm.trans (congrArg Bool.toNat hbit))

/-- Pack record 3, STOPPING, holds that pin and nothing else; the PACK_STOP of mailbox 0 waits for it, and Atelier does not restart. -/
def stoppingWithStrayPin : State :=
  ((State.reset.clr R.HIF_STAT_ATL_RESTART).setInst 3 { used := true, st := 4, pins := [strayPin] }).setJob 0 (.packStop 3)

/-- When the jobs that wait for the stop come to their end, no register but the pin's has changed. -/
theorem instStopped_strayPin : ∃ u : State, instStopped stoppingWithStrayPin 3 = ackJobs u (.packStop 3) stOk 0
    ∧ u.regs = (stoppingWithStrayPin.put R.GPIO_PIN_OWN 0 strayPin).regs := ⟨_, if_pos (by decide), rfl⟩

/-- So nothing is acknowledged. -/
theorem instStopped_strayPin_regs :
    (instStopped stoppingWithStrayPin 3).regs = (stoppingWithStrayPin.put R.GPIO_PIN_OWN 0 strayPin).regs := by
  obtain ⟨u, hend, hregs⟩ := instStopped_strayPin
  have hrestart : u.on R.HIF_STAT_ATL_RESTART = true := by
    rw [State.on, State.get_congr hregs]
    exact restart_of_strayPin_given stoppingWithStrayPin
  rw [hend, ackJobs_regs_of_restart hrestart, hregs]

/-- Refutes O37: its last clause bounds the engines, groups and generators that a stopping pack holds, not its pins. Giving up pin 195584,
which the record of `stoppingWithStrayPin` names, sets HIF_STAT's ATL_RESTART, and PACK_STOP is noted in the journal, not acknowledged. -/
theorem not_packCommands : ¬ Obligations.PackCommands := by
  unfold Obligations.PackCommands
  rintro ⟨-, -, -, -, -, hstopped⟩
  obtain ⟨t, ht, -, -, -, -, -, -, ⟨-, -, hackv⟩, -⟩ := hstopped 3 0 stoppingWithStrayPin (by decide) (by decide) (by decide) (by decide)
    (by decide) (by decide) (by decide) (by decide)
  cases ht
  have hsame : (instStopped stoppingWithStrayPin 3).on R.HMB_STAT_ACKV 0 = stoppingWithStrayPin.on R.HMB_STAT_ACKV 0 := by
    rw [State.on, State.get_congr instStopped_strayPin_regs, State.get_put_ne _ _ _ _ _ _ _ _ _ _ (by decide)]
    rfl
  exact absurd (hsame.symm.trans hackv) (by decide)

end Sys2Proof.Machine
end
